-- ==== Sys2Proof/Word.lean ====
section
/-! DEFINITION. The two data units every chapter speaks of: the byte and the 4096-byte block (spec/00, section 3). -/

namespace Sys2Proof

/-- One byte. -/
abbrev Byte := BitVec 8

/-- A run of bytes; a block of either link holds 4096 of them (00_scope.md, section 3). -/
abbrev Block := List Byte

end Sys2Proof
end

