-- ==== Sys2Proof/Syntax.lean ====
section
/-! DEFINITION. The commands: one constructor of `Instr` for each row of spec/opcode_table.json, with the operands that
the row's message or event carries. Widths are those of chapter 12. -/

namespace Sys2Proof

/-- The 14-byte body of CONFIGURE, slot by slot (12.2): a presence mask and the eleven settings. -/
structure ConfigureBody where
  mask : BitVec 16
  mode : Byte
  policy : Byte
  idleLimit : Byte
  idleUnit : Byte
  storeTimeout : Byte
  linkLoss : Byte
  spaceLow : BitVec 16
  journalHigh : Byte
  maskLevel : Byte
  patrolRate : Byte
  readAhead : Byte
  deriving DecidableEq, Repr

/-- One tariff entry: grace G, initial interval I, subsequent step S, rate (3.7). -/
structure TariffEntry where
  grace : Byte
  initial : BitVec 16
  step : BitVec 16
  rate : BitVec 16
  deriving DecidableEq, Repr

/-- The commands, in the order of spec/opcode_table.json. -/
inductive Instr where
  /-- READ (R34): a client request. -/
  | read (tag : Byte) (addr : BitVec 64) (count : BitVec 16)
  /-- WRITE (R25): a client request. -/
  | write (tag : Byte) (addr : BitVec 64) (count : BitVec 16)
  /-- SYNC (R33): a client request. -/
  | sync (tag : Byte) (addr : BitVec 64) (count : BitVec 16)
  /-- CLIENT_CAPACITY (R24): a client request whose operation is CAPACITY or is unknown. -/
  | clientCapacity (tag : Byte) (op : Byte) (addr : BitVec 64) (count : BitVec 16)
  /-- CLIENT_DATA (R28): a client DATA message. -/
  | clientData (tag : Byte) (index : BitVec 16) (block : Block)
  /-- ABORT (R35): a client ABORT message. -/
  | abort (tag : Byte)
  /-- CLIENT_LINK_DOWN (R22). -/
  | clientLinkDown
  /-- CLIENT_LINK_UP (R22). -/
  | clientLinkUp
  /-- CONFIGURE (R154). -/
  | configure (tag : Byte) (ref : BitVec 32) (body : ConfigureBody)
  /-- SIGNATURE (R156): the new 16-byte marker as one number, first byte most significant. -/
  | signature (tag : Byte) (ref : BitVec 32) (marker : BitVec 128)
  /-- REPORT (R157). -/
  | report (tag : Byte) (ref : BitVec 32)
  /-- INQUIRE (R158). -/
  | inquire (tag : Byte) (ref : BitVec 32) (window : BitVec 16) (first : BitVec 32)
  /-- CLOSE (R18). -/
  | close (tag : Byte) (ref : BitVec 32) (window : BitVec 16) (serial : BitVec 32)
  /-- RESOLVE_RESUME (R19): RESOLVE with choice RESUME. -/
  | resolveResume (tag : Byte) (ref : BitVec 32) (window : BitVec 16) (serial : BitVec 32)
  /-- RESOLVE_ABANDON (R19): RESOLVE with choice ABANDON. -/
  | resolveAbandon (tag : Byte) (ref : BitVec 32) (window : BitVec 16) (serial : BitVec 32)
  /-- TARIFF_LOAD (R49). -/
  | tariffLoad (tag : Byte) (ref : BitVec 32) (bank : Byte) (first : Byte) (entries : List TariffEntry)
  /-- TARIFF_SELECT (R50). -/
  | tariffSelect (tag : Byte) (ref : BitVec 32) (bank : Byte)
  /-- CALENDAR (R112). -/
  | calendar (tag : Byte) (ref : BitVec 32) (day : BitVec 16)
  /-- RETENTION (R114). -/
  | retention (tag : Byte) (ref : BitVec 32) (cls : Byte) (days : BitVec 16) (grace : BitVec 16) (choice : Byte)
  /-- HOLD (R121). -/
  | hold (tag : Byte) (ref : BitVec 32) (id : BitVec 16) (anySource : Byte) (source : BitVec 16) (first : BitVec 16) (last : BitVec 16)
  /-- RELEASE (R122). -/
  | release (tag : Byte) (ref : BitVec 32) (id : BitVec 16)
  /-- ACCEPT (R131). -/
  | accept (tag : Byte) (ref : BitVec 32) (window : BitVec 16) (serial : BitVec 32)
  /-- VERIFY (R141). -/
  | verify (tag : Byte) (ref : BitVec 32) (window : BitVec 16) (serial : BitVec 32)
  /-- REVOKE (R143). -/
  | revoke (tag : Byte) (ref : BitVec 32) (window : BitVec 16) (serial : BitVec 32)
  /-- CLEAR_ATTENTION (R164): the item set of 12.2. -/
  | clearAttention (tag : Byte) (ref : BitVec 32) (items : BitVec 16)
  /-- TAKE_BLOCK (R41): the framer takes the block at the ingest point of the window's volume. -/
  | takeBlock (window : BitVec 12)
  /-- HELD_CLOSE (R70): the held close of the window's open segment is made. -/
  | heldClose (window : BitVec 12)
  /-- IDLE_TIMER_EXPIRY (R10). -/
  | idleTimerExpiry (window : BitVec 12)
  /-- STORE_GRANT (R91). -/
  | storeGrant
  /-- STORE_DATA (R38): a store DATA message. -/
  | storeData (tag : Byte) (index : BitVec 16) (block : Block)
  /-- SEGMENT_WRITE_COMPLETION (R74). -/
  | segmentWriteCompletion (tag : Byte) (status : Byte) (blockField : BitVec 64)
  /-- CATALOGUE_WRITE_COMPLETION (R17). -/
  | catalogueWriteCompletion (tag : Byte) (status : Byte) (blockField : BitVec 64)
  /-- SETTINGS_WRITE_COMPLETION (R160). -/
  | settingsWriteCompletion (tag : Byte) (status : Byte) (blockField : BitVec 64)
  /-- JOURNAL_WRITE_COMPLETION (R147). -/
  | journalWriteCompletion (tag : Byte) (status : Byte) (blockField : BitVec 64)
  /-- FETCH_COMPLETION (R104). -/
  | fetchCompletion (tag : Byte) (status : Byte) (blockField : BitVec 64)
  /-- JOURNAL_READ_COMPLETION (R101). -/
  | journalReadCompletion (tag : Byte) (status : Byte) (blockField : BitVec 64)
  /-- VERIFICATION_READ_COMPLETION (R135). -/
  | verificationReadCompletion (tag : Byte) (status : Byte) (blockField : BitVec 64)
  /-- STORE_WATCHDOG_EXPIRY (R92). -/
  | storeWatchdogExpiry (tag : Byte)
  /-- STORE_LINK_DOWN (R95). -/
  | storeLinkDown
  /-- STORE_LINK_UP (R96). -/
  | storeLinkUp
  /-- SERVE_BLOCK (R97): the next block of the read that holds the tag. -/
  | serveBlock (tag : Byte)
  /-- CLOSE_VERDICT (R12 step 2). -/
  | closeVerdict (window : BitVec 12)
  /-- CLOSE_CATALOGUE (R12 step 3). -/
  | closeCatalogue (window : BitVec 12)
  /-- SWEEP_EXAMINE (R118). -/
  | sweepExamine
  /-- RECLAIM_BEGIN (R124). -/
  | reclaimBegin
  /-- PATROL_TURN (R139). -/
  | patrolTurn
  /-- QUEUE_VERIFICATION_BEGIN (R142). -/
  | queueVerificationBegin
  /-- POWER_ON (R165): the two JSIZE straps, 0 to 3 for 2, 4, 8 or 16 journal zones. -/
  | powerOn (straps : BitVec 2)
  /-- RESET_N_ASSERT (R165). -/
  | resetNAssert
  /-- RESET_N_RELEASE (R165). -/
  | resetNRelease
  /-- STARTUP_CAPACITY (R166). -/
  | startupCapacity
  /-- STARTUP_READ_COMPLETION (R166). -/
  | startupReadCompletion (tag : Byte) (status : Byte) (blockField : BitVec 64)
  /-- START_ENTRY (R171). -/
  | startEntry
  /-- CAPACITY_COMPLETION (R166): the block field carries the store's capacity. -/
  | capacityCompletion (tag : Byte) (status : Byte) (blockField : BitVec 64)
  deriving DecidableEq, Repr

end Sys2Proof
end

