-- ==== Sys2Proof/Decode.lean ====
section
/-! DEFINITION. The decoder that the host asks for. The commands of this part are messages and events, not words of an
instruction memory: no row of spec/opcode_table.json gives bits. A directive block is decoded in Machine/Operands.lean. -/

namespace Sys2Proof

/-- The command that a word spells by the table's bits: none, since no row of the table gives bits. -/
def decodeTableWord (_nbits _w : Nat) : Option Instr := none

end Sys2Proof
end

