-- ==== Sys2Proof/Config.lean ====
section
/-! DEFINITION. What the spec leaves to the implementation. Every constant here is a free value: it has no body, nothing can
prove what it is, and a statement that mentions it holds for every value. -/

namespace Sys2Proof.Config

/-- The fixed value that opens every segment header (R72: 'segment marker'); the spec gives no value. Free value, entry 7. -/
opaque segmentMarker : BitVec 64

/-- The fixed value that opens the settings block (R159: 'a fixed settings marker'); the spec gives no value. Free value,
entry 8. -/
opaque settingsMarker : BitVec 64

/-- The trailer totals of the volume with the given serial (0 declared count, 1 duration, 2 units, 3 volume) when start-up
finds that bytes of its trailer lie in a LOST marker, which keeps none, and the catalogue record holds no totals (R2, R40, R65,
R78). Free value, entry 12. -/
opaque lostTrailerValue : Nat → Nat → BitVec 48

/-- Whether the CRC of that unreadable trailer was good (R40, R78). Free value, entry 12. -/
opaque lostTrailerGood : Nat → Bool

end Sys2Proof.Config
end

