-- ==== Sys2Proof/Machine/Bytes.lean ====
section
/-! DEFINITION. Bytes, byte order (most significant byte first, 00_scope.md 4.2) and the three CRCs of chapter 12. -/

namespace Sys2Proof.Machine

/-- `v` as `n` bytes, most significant byte first (4.2); bits above `8 * n` are dropped. -/
def be : Nat → Nat → List Byte
  | 0, _ => []
  | n + 1, v => BitVec.ofNat 8 (v >>> (8 * n)) :: be n v

/-- The number that bytes spell, most significant byte first (4.2). -/
def ofBE (bs : List Byte) : Nat := bs.foldl (fun a b => a * 256 + b.toNat) 0

/-- `len` bytes from offset `at`. -/
def slice (bs : List Byte) (start len : Nat) : List Byte := (bs.drop start).take len

/-- The number in the `len` bytes at offset `start`. -/
def fld (bs : List Byte) (start len : Nat) : Nat := ofBE (slice bs start len)

/-- Zeros. -/
def zeros (n : Nat) : List Byte := List.replicate n 0

/-- `bs` filled up with zeros to `n` bytes. -/
def padTo (n : Nat) (bs : List Byte) : List Byte := bs ++ zeros (n - bs.length)

/-- The block of 4096 zero bytes (R98). -/
def zeroBlock : Block := zeros 4096

/-- One presence byte and `n` bytes, zeros when absent (R173: "opt"). -/
def optBytes (n : Nat) (o : Option (List Byte)) : List Byte :=
  match o with
  | none => 0 :: zeros n
  | some bs => 1 :: bs

/-- A Boolean as one byte. -/
def boolByte (b : Bool) : Byte := if b then 1 else 0

/-- The consecutive 4096-byte blocks of a byte string, `n` of them. -/
def toBlocks : Nat → List Byte → List Block
  | 0, _ => []
  | n + 1, bs => bs.take 4096 :: toBlocks n (bs.drop 4096)

/-- ceil (a / b). -/
def ceilDiv (a b : Nat) : Nat := (a + b - 1) / b

/-! ### CRC-16, CRC-32, CRC-64 (chapter 12) -/

/-- `n` bit steps, most significant bit first. -/
def crcStepsMsb (poly : BitVec w) : Nat → BitVec w → BitVec w
  | 0, r => r
  | n + 1, r => crcStepsMsb poly n (if r.msb then (r <<< 1) ^^^ poly else r <<< 1)

/-- `n` bit steps, reflected. -/
def crcStepsLsb (poly : BitVec w) : Nat → BitVec w → BitVec w
  | 0, r => r
  | n + 1, r => crcStepsLsb poly n (if r.getLsbD 0 then (r >>> 1) ^^^ poly else r >>> 1)

/-- A register run over bytes, one after another. The comparison always holds; it makes the kernel work the register out byte
by byte instead of at the end (`runBytes_eq_foldl`). -/
def runBytes (f : BitVec w → Byte → BitVec w) : List Byte → BitVec w → BitVec w
  | [], r => r
  | b :: bs, r => if r.toNat < 2 ^ w then runBytes f bs (f r b) else r

/-- `runBytes` is a left fold. -/
theorem runBytes_eq_foldl (f : BitVec w → Byte → BitVec w) (bs : List Byte) (r : BitVec w) :
    runBytes f bs r = bs.foldl f r := by
  induction bs generalizing r with
  | nil => rfl
  | cons b bs ih => simp [runBytes, ih, r.isLt]

/-- CRC-16 of records: generator 0x1021, most significant bit first, preset all ones, no final inversion (R44, chapter 12). -/
def crc16 (bs : List Byte) : BitVec 16 :=
  runBytes (fun r b => crcStepsMsb 0x1021 8 (r ^^^ (b.setWidth 16 : BitVec 16) <<< (8 : Nat))) bs 0xFFFF

/-- CRC-32: generator 0x04C11DB7 (0xEDB88320 reflected), preset all ones, final inversion (R72, R152, chapter 12). -/
def crc32 (bs : List Byte) : BitVec 32 :=
  ~~~ (runBytes (fun r b => crcStepsLsb 0xEDB88320 8 (r ^^^ b.setWidth 32)) bs 0xFFFFFFFF)

/-- The CRC-64 register run over bytes: generator 0x42F0E1EBA9EA3693, most significant bit first (R55). -/
def crc64Run (reg : BitVec 64) (bs : List Byte) : BitVec 64 :=
  runBytes (fun r b => crcStepsMsb 0x42F0E1EBA9EA3693 8 (r ^^^ (b.setWidth 64 : BitVec 64) <<< (56 : Nat))) bs reg

/-- The preset CRC-64 register (R39). -/
def crc64Preset : BitVec 64 := BitVec.allOnes 64

/-- CRC-64 with preset and final inversion (R132). -/
def crc64 (bs : List Byte) : BitVec 64 := ~~~ (crc64Run crc64Preset bs)

end Sys2Proof.Machine
end

