-- ==== Sys2Proof/Machine/State.lean ====
section
/-! DEFINITION. The state of the TA-816 as plain data, block by block as 1.2 of 00_scope.md arranges it, and the state
right after a reset. Numbers that the spec counts or compares are `Nat`; registers it shifts are bit vectors. -/

namespace Sys2Proof.Machine

/-! ### Codes shared by all blocks -/

/-- The classes of 11.1, with the two verdicts of verification that share the class field (R173). -/
inductive FaultClass where
  | medium | check | timeout | linkDown | geometry | mismatch | lost
  deriving DecidableEq, Repr

/-- A failure of a store request as the store port reports it: its class and the block it is at (R38, R94). -/
structure Failure where
  cls : FaultClass
  block : Nat
  deriving DecidableEq, Repr

/-- Completion statuses (12.5). -/
inductive Status where
  | good | busyRetry | refused | storeError | expired | unavailable | aborted | halted
  deriving DecidableEq, Repr

/-- Reasons of a REFUSED completion (12.5). -/
inductive Reason where
  | badRequest | crossesWindow | appendOnly | notAVolume | duplicateVolume | openLimit | volumeClosed | windowBusy
  | journalReadOnly | directiveCheck | unknownDirective | badField | noSuchVolume | wrongState | bankInUse | holdExists
  | holdTableFull | noSuchHold | queueFull | tooLate | calendarBackward | journalFull
  deriving DecidableEq, Repr

/-- Operations of a store request (R38). -/
inductive StoreOp where
  | read | write | capacity
  deriving DecidableEq, Repr

/-- What the part sends: DATA and COMPLETION on the client link, REQUEST, DATA and ABORT on the store link (2.1). -/
inductive Msg where
  | clientData (tag index : Nat) (block : Block)
  | completion (tag : Nat) (status : Status) (reason : Option Reason) (blockField : Nat)
  | storeRequest (tag : Nat) (op : StoreOp) (block count : Nat)
  | storeData (tag index : Nat) (block : Block)
  | storeAbort (tag : Nat)
  deriving DecidableEq, Repr

/-! ### Settings (10.3) -/

/-- When a write is answered (R30, R31). -/
inductive CompletionMode where
  | posted | committed
  deriving DecidableEq, Repr

/-- Resume policies (R169). -/
inductive ResumePolicy where
  | abandon | resume | preserve | byClass
  deriving DecidableEq, Repr

/-- Units of the idle timer (R9). -/
inductive IdleUnit where
  | seconds | minutes
  deriving DecidableEq, Repr

/-- Link-loss modes (R36). -/
inductive LinkLoss where
  | hold | fail
  deriving DecidableEq, Repr

/-- Choices of RESOLVE and of a retention class (R19, R113). -/
inductive Choice where
  | resume | abandon
  deriving DecidableEq, Repr

/-- The eleven settings of 10.3; the values here are the fresh ones. -/
structure Settings where
  mode : CompletionMode := .posted
  policy : ResumePolicy := .preserve
  idleLimit : Nat := 30
  idleUnit : IdleUnit := .minutes
  storeTimeout : Nat := 250
  linkLoss : LinkLoss := .hold
  spaceLow : Nat := 64
  journalHigh : Nat := 32
  maskLevel : Nat := 0
  patrolRate : Nat := 4
  readAhead : Bool := true
  deriving DecidableEq, Repr

/-! ### Client port (chapter 2) -/

/-- Operations that hold a tag table entry (2.3). -/
inductive ReqOp where
  | read | write | sync
  deriving DecidableEq, Repr

/-- Phases of a tag table entry (2.3). -/
inductive Phase where
  | awaitingBlock | receiving | waitingCommit | serving | syncing | directive
  deriving DecidableEq, Repr

/-- What a SERVING read waits on (R97, R101, R103). -/
inductive ReadWait where
  /-- nothing: its next block can be taken up -/
  | idle
  /-- the fetch of this segment -/
  | fetch (serial index : Nat)
  /-- room in the segment cache -/
  | room
  /-- the outstanding write of this journal ring block -/
  | journalWrite (ring : Nat)
  /-- the store read of this journal ring block, and whether it is the second attempt -/
  | journalRead (ring : Nat) (second : Bool)
  deriving DecidableEq, Repr

/-- An entry of the client tag table (2.3). -/
structure TagEntry where
  tag : Nat
  op : ReqOp
  phase : Phase
  window : Nat
  offset : Nat
  count : Nat
  /-- put aside at the REQUEST for a FREE window at offset 0: an opening write, which R6 tests whatever its window holds by the
  time it is examined (R26 case 2) -/
  opening : Bool := false
  serial : Option Nat := none
  mode : Option CompletionMode := none
  done : Nat := 0
  held : Option Block := none
  waitingOn : Option Nat := none
  /-- SYNC: the target T of R33 -/
  target : Option Nat := none
  /-- SYNC of window 4095: the journal block writes it still waits for (R147) -/
  journalWrites : Nat := 0
  wait : ReadWait := .idle
  deriving DecidableEq, Repr

/-- A staging slot that is not FREE (2.6): RESERVED while `data` is absent, HELD once it is present. -/
structure Slot where
  serial : Nat
  offset : Nat
  tag : Nat
  data : Option Block := none
  deriving DecidableEq, Repr

/-- A DATA message that waits on the client link (R21). -/
structure LinkData where
  tag : Nat
  index : Nat
  block : Block
  deriving DecidableEq, Repr

/-- A directive handed to its owner and not yet taken (R153); `owed` says whether a completion is still to be sent (R22). -/
structure Dispatched where
  owed : Bool
  command : Instr
  deriving DecidableEq, Repr

/-- The client port (1.2). -/
structure ClientPort where
  up : Bool := false
  tags : List TagEntry := []
  linkData : List LinkData := []
  slots : List Slot := []
  dispatched : List Dispatched := []
  deriving DecidableEq, Repr

/-! ### Volume table and segment map (chapters 1 and 4) -/

/-- Lifecycle states other than FREE (1.1). -/
inductive LifeState where
  | opened | suspended | closing | closed | expiring
  deriving DecidableEq, Repr

/-- Audit states (R4). -/
inductive AuditState where
  | pending | reconciled | discrepant | unterminated | unparsed | damaged | accepted
  deriving DecidableEq, Repr

/-- The reconcile flags of R129. -/
structure ReconcileFlags where
  countDiff : Bool := false
  durationDiff : Bool := false
  unitsDiff : Bool := false
  volumeDiff : Bool := false
  seqGaps : Bool := false
  badRecords : Bool := false
  unrated : Bool := false
  totalOverflow : Bool := false
  trailerBad : Bool := false
  futureDay : Bool := false
  deriving DecidableEq, Repr

/-- What a trailer declares, and whether its CRC was good (1.1, R56). -/
structure TrailerTotals where
  count : Nat
  duration : Nat
  units : Nat
  volume : Nat
  crcGood : Bool
  deriving DecidableEq, Repr

/-- The five counts and three totals of a volume (3.1). -/
structure Counts where
  calls : Nat := 0
  gaps : Nat := 0
  disorder : Nat := 0
  bad : Nat := 0
  unrated : Nat := 0
  duration : Nat := 0
  units : Nat := 0
  volume : Nat := 0
  deriving DecidableEq, Repr

/-- Kinds of a stored segment (R72). -/
inductive SegKind where
  | coded | raw | lost
  deriving DecidableEq, Repr

/-- A map entry (R75). -/
structure MapEntry where
  first : Nat
  count : Nat
  zone : Nat
  off : Nat
  len : Nat
  kind : SegKind
  lead : Nat
  tail : Nat
  recs : Nat
  deriving DecidableEq, Repr

/-- A link of the audit chain (R133). -/
structure ChainLink where
  index : Nat := 0
  value : BitVec 64 := 0
  deriving DecidableEq, Repr

/-- The record of a volume window that is not FREE (1.1), with the volume's segment map (R76). -/
structure Volume where
  window : Nat
  serial : Nat
  state : LifeState
  source : Nat
  day : Nat
  gen : Nat
  cls : Nat
  openedOn : Nat
  bank : Nat
  audit : AuditState := .pending
  flags : Option ReconcileFlags := none
  trailer : Option TrailerTotals := none
  counts : Counts := {}
  ingest : Nat := 0
  segments : Nat := 0
  digest : Option (BitVec 64) := none
  chain : Option ChainLink := none
  supersededOn : Option Nat := none
  expiry : Option Nat := none
  stalled : Bool := false
  verifyQueued : Bool := false
  verifying : Bool := false
  reclaimBegun : Bool := false
  /-- marked to close DAMAGED (R77, R106) -/
  markDamaged : Bool := false
  map : List MapEntry := []
  deriving DecidableEq, Repr

/-! ### Ingest contexts and pending segments (chapters 3 and 4) -/

/-- Framer states (3.2). -/
inductive FramerState where
  | inCalls | afterTrailer | raw
  deriving DecidableEq, Repr

/-- The conditions of R68 that call for a close. -/
inductive CloseCond where
  | payloadReserve | blockLimit | framingLoss | idleTimer | sync | volumeClose | committed
  deriving DecidableEq, Repr

/-- The open segment (4.1); for CODED, `payload` holds the lead bytes and the record entries written so far. -/
structure OpenSeg where
  index : Nat
  first : Nat
  blocks : Nat := 0
  kind : SegKind := .coded
  payload : List Byte := []
  recs : Nat := 0
  lead : Nat := 0
  held : Option CloseCond := none
  deriving DecidableEq, Repr

/-- The running state that segment headers carry (R72). -/
structure RunState where
  lastSeq : Option Nat := none
  counts : Counts := {}
  trailerSeen : Bool := false
  digest : BitVec 64 := BitVec.allOnes 64
  bank : Nat := 0
  deriving DecidableEq, Repr

/-- Where a close stands (R12). -/
inductive CloseStage where
  /-- the framer still takes the contiguous staged blocks (R18, R59) -/
  | taking
  /-- step 1: segments complete -/
  | segments
  /-- step 2 is next -/
  | verdict
  /-- step 3 is next: it may wait for the chain index before (R12) -/
  | catalogue
  /-- step 3: the catalogue write is out -/
  | writing
  /-- step 4: the CLOSE entry is to be appended or waits -/
  | journal
  deriving DecidableEq, Repr

/-- A close sequence in progress (R12). -/
structure Closing where
  stage : CloseStage
  /-- the reference of the CLOSE or RESOLVE that began it -/
  ref : Option Nat := none
  /-- blocks discarded (R29) -/
  discarded : Nat := 0
  /-- flags found at step 2 (R129) -/
  flags : ReconcileFlags := {}
  /-- bodies of the SUPERSEDE entries of step 2 -/
  supersedes : List (List Byte) := []
  deriving DecidableEq, Repr

/-- An ingest context (3.1, 4.1). -/
structure Ctx where
  num : Nat
  window : Nat
  serial : Nat
  framer : FramerState := .inCalls
  headerTaken : Bool := false
  carry : List Byte := []
  lastSeq : Option Nat := none
  counts : Counts := {}
  overflow : Bool := false
  digest : BitVec 64 := BitVec.allOnes 64
  bank : Nat := 0
  trailer : Option TrailerTotals := none
  /-- the bytes after the trailer in the trailer's block (R56) -/
  afterTrailer : List Byte := []
  reference : List Byte
  seg : OpenSeg
  next : Nat := 0
  committed : Nat := 0
  /-- the idle timer: its load and unit, or stopped (R9) -/
  idle : Option (Nat × IdleUnit) := none
  /-- the catalogue write and the settings write of the open have completed (R8) -/
  openCatalogue : Bool := true
  openSettings : Bool := true
  close : Option Closing := none
  deriving DecidableEq, Repr

/-- The contents of a segment header but for its marker and CRC (R72). -/
structure SegHeader where
  window : Nat
  serial : Nat
  index : Nat
  first : Nat
  count : Nat
  kind : SegKind
  lead : Nat
  tail : Nat
  recs : Nat
  payloadLen : Nat
  stamp : Nat
  run : RunState
  deriving DecidableEq, Repr

/-- A placement (5.4). -/
structure Place where
  zone : Nat
  off : Nat
  len : Nat
  stamp : Nat
  deriving DecidableEq, Repr

/-- Statuses of a pending segment (R74). -/
inductive PendStatus where
  | writing | written | marking | unwritten
  deriving DecidableEq, Repr

/-- An entry of a pending list (R74); the lists of all volumes are kept together. -/
structure PendSeg where
  hdr : SegHeader
  payload : List Byte
  place : Option Place := none
  retryUsed : Bool := false
  status : PendStatus := .writing
  /-- class and placement of the failed first attempt (R93) -/
  failure : Option (FaultClass × Place) := none
  deriving DecidableEq, Repr

/-! ### Tariff unit (3.7) -/

/-- The tariff unit: two banks of 64 entries and the selector (R48). -/
structure TariffUnit where
  bank0 : List TariffEntry := List.replicate 64 ⟨0, 0, 0, 0⟩
  bank1 : List TariffEntry := List.replicate 64 ⟨0, 0, 0, 0⟩
  active : Nat := 0
  deriving DecidableEq, Repr

/-! ### Zone allocator (chapter 5) -/

/-- Statuses of a placement list entry (5.2). -/
inductive PlaceStatus where
  | issued | landed | abandoned
  deriving DecidableEq, Repr

/-- An entry of a placement list, owner first (5.2). -/
structure Placement where
  window : Nat
  serial : Nat
  index : Nat
  off : Nat
  len : Nat
  stamp : Nat
  status : PlaceStatus := .issued
  deriving DecidableEq, Repr

/-- A data zone that is FILLING or FULL (R81); a data zone not listed is FREE. -/
structure Zone where
  zone : Nat
  filling : Bool
  fill : Nat := 0
  live : Nat := 0
  list : List Placement := []
  deriving DecidableEq, Repr

/-- An entry of the waiting list (R88). -/
inductive WaitItem where
  /-- the held close of the window's open segment -/
  | seal (window serial : Nat)
  /-- a placement for a pending segment: first placement, retry, re-placement or marker -/
  | place (serial index : Nat)
  deriving DecidableEq, Repr

/-- The zone allocator with map memory's free count (5.2, R82, R83, R88, R89). -/
structure Alloc where
  ready : Bool := false
  zoneCount : Nat := 0
  j : Nat := 2
  zones : List Zone := []
  fifo : List Nat := []
  stamp : Nat := 1
  waiting : List WaitItem := []
  mapFree : Nat := 4194304
  deriving DecidableEq, Repr

/-! ### Store port (chapter 5) -/

/-- The user of a store request and what it is for (R90). -/
inductive StoreUser where
  | settings
  | catalogue (block : Nat)
  | journal (ring : Nat)
  | segment (serial index stamp : Nat)
  | fetch (serial index : Nat)
  | journalRead (tag ring : Nat)
  | patrol (serial index : Nat)
  | queueVerify (serial index : Nat)
  | startup
  | capacity
  deriving DecidableEq, Repr

/-- A store request (R90, R91); `cls` is its arbiter class, 1 to 5. -/
structure StoreReq where
  cls : Nat
  user : StoreUser
  op : StoreOp
  block : Nat
  count : Nat
  data : List Block := []
  deriving DecidableEq, Repr

/-- An entry of the store request table (R90). -/
structure StoreEntry where
  tag : Nat
  req : StoreReq
  watchdog : Nat
  abandoned : Bool := false
  /-- its completion is to be discarded (R86, R109) -/
  discard : Bool := false
  /-- DATA received, by index (R38) -/
  got : List (Nat × Block) := []
  deriving DecidableEq, Repr

/-- The store port (R90, R91, R95). -/
structure StorePort where
  up : Bool := false
  reported : Bool := false
  queue : List StoreReq := []
  table : List StoreEntry := []
  deriving DecidableEq, Repr

/-! ### Read unit (chapter 6) -/

/-- State of a segment cache entry (R102); FETCHING is at its second attempt once a first failure stands. -/
inductive FetchState where
  | fetching (ahead : Bool) (firstFail : Option FaultClass) (waiters : List Nat)
  | ready (blocks : List Block)
  | failed (cls : FaultClass)
  deriving DecidableEq, Repr

/-- An entry of the segment cache (6.3). -/
structure CacheEntry where
  window : Nat
  serial : Nat
  index : Nat
  entry : MapEntry
  st : FetchState
  deriving DecidableEq, Repr

/-- The read unit: the cache, most recent first, and the reads that wait for room in it (R102, R103). -/
structure ReadUnit where
  cache : List CacheEntry := []
  roomWait : List Nat := []
  deriving DecidableEq, Repr

/-! ### Retention unit (chapter 7) -/

/-- An entry of the retention table, with its fresh values (7.2). -/
structure RetentionEntry where
  days : Nat := 0
  grace : Nat := 3650
  choice : Choice := .resume
  deriving DecidableEq, Repr

/-- A legal hold (7.5); an absent source is ANY. -/
structure Hold where
  id : Nat
  source : Option Nat
  first : Nat
  last : Nat
  placedOn : Nat
  deriving DecidableEq, Repr

/-- A sweep in progress (R118, R119). -/
structure Sweep where
  day : Nat
  ref : Nat
  next : Nat := 0
  queued : Nat := 0
  held : Nat := 0
  blocked : Nat := 0
  verifying : Nat := 0
  deriving DecidableEq, Repr

/-- An entry of the reclaim queue (R123): its EXPIRING catalogue write has completed; it was put at the head by R128. -/
structure Expiring where
  window : Nat
  serial : Nat
  written : Bool := false
  cut : Bool := false
  deriving DecidableEq, Repr

/-- The reclaim in progress (R125, R126). -/
structure Reclaim where
  window : Nat
  serial : Nat
  /-- the settings write of step 4, if any, has completed -/
  floorDone : Bool := false
  /-- the PURGE entry of step 5 has reached the store -/
  purgeStored : Bool := false
  /-- the FREE catalogue write of step 6 is issued -/
  freeIssued : Bool := false
  deriving DecidableEq, Repr

/-- The retention unit (chapter 7). -/
structure Retention where
  day : Nat := 0
  table : List RetentionEntry := List.replicate 8 {}
  holds : List Hold := []
  sweep : Option Sweep := none
  /-- the waiting request: sweep day and CALENDAR reference (R117) -/
  sweepNext : Option (Nat × Nat) := none
  queue : List Expiring := []
  reclaim : Option Reclaim := none
  deriving DecidableEq, Repr

/-! ### Audit unit (chapter 8) -/

/-- The patrol (R138, R139). -/
structure Patrol where
  window : Nat := 0
  index : Nat := 0
  serial : Option Nat := none
  reg : BitVec 64 := BitVec.allOnes 64
  /-- the interval timer is running or has run out, not stopped -/
  timer : Bool := false
  /-- a segment's verification is under way, with the class of its first failure -/
  active : Option (Option FaultClass) := none
  /-- its VERIFY entry waits to be appended -/
  entryWaits : Bool := false
  deriving DecidableEq, Repr

/-- An entry of the verify queue (R141). -/
structure VerifyItem where
  window : Nat
  serial : Nat
  ref : Nat
  deriving DecidableEq, Repr

/-- The verification in progress (R142). -/
structure Verification where
  window : Nat
  serial : Nat
  ref : Nat
  index : Nat := 0
  reg : BitVec 64 := BitVec.allOnes 64
  firstFail : Option FaultClass := none
  /-- a verdict is reached; its VERIFY entry waits to be appended -/
  entryWaits : Bool := false
  deriving DecidableEq, Repr

/-- The audit unit (chapter 8); `floor` is the chain floor of the settings block (R126), `closes` the windows whose closes have
reached step 2 and wait for their verdict, in the order in which they reached it (R12). -/
structure AuditUnit where
  head : ChainLink := {}
  floor : ChainLink := {}
  patrol : Patrol := {}
  queue : List VerifyItem := []
  current : Option Verification := none
  closes : List Nat := []
  deriving DecidableEq, Repr

/-! ### Journal unit (chapter 9) -/

/-- Who is released when an entry is appended (R149). -/
inductive Appender where
  | nobody
  | close (window serial : Nat)
  /-- a SUPERSEDE entry behind the CLOSE entry of the window's volume; nothing waits for it -/
  | supersede (window serial : Nat)
  | sweep
  | purge
  | patrol
  | verification
  deriving DecidableEq, Repr

/-- An append: format code, body, forced write, appender (R146). -/
structure Append where
  code : Nat
  body : List Byte
  forced : Bool := false
  who : Appender := .nobody
  deriving DecidableEq, Repr

/-- What waits for a journal block write (R147). -/
inductive JournalWaiter where
  | purge
  | sync (tag : Nat)
  deriving DecidableEq, Repr

/-- A ring block's write handed over and not completed, and the further write gathered behind it (9.2, R147, R148). -/
structure JournalWrite where
  ring : Nat
  content : Block
  retryUsed : Bool := false
  failed : Bool := false
  waiters : List JournalWaiter := []
  gathered : Option (Block × List JournalWaiter) := none
  deriving DecidableEq, Repr

/-- The journal buffer (R145, R146): `body` holds the entry bytes from byte 32 to the bytes used; `asRead` the block as
start-up read it (R151). -/
structure JournalBuffer where
  firstSeq : Nat := 1
  count : Nat := 0
  body : List Byte := []
  complete : Bool := false
  asRead : Option Block := none
  deriving DecidableEq, Repr

/-- The journal unit (9.2). -/
structure JournalUnit where
  ready : Bool := false
  head : Nat := 0
  buf : JournalBuffer := {}
  nextSeq : Nat := 1
  readPtr : Nat := 0
  waitList : List Append := []
  writes : List JournalWrite := []
  deriving DecidableEq, Repr

/-! ### Settings block and catalogue writes (chapters 10 and 1) -/

/-- What waits for a settings block write (R160). -/
inductive SetWaiter where
  /-- a directive, with the tag to answer while a completion is owed -/
  | directive (tag : Option Nat)
  /-- a CALENDAR and its reference (R112) -/
  | calendar (tag : Option Nat) (ref : Nat)
  /-- the open of the volume with this serial (R8) -/
  | opening (serial : Nat)
  /-- step 4 of the reclaim in progress (R126) -/
  | floor
  /-- start-up's format (R166) -/
  | format
  deriving DecidableEq, Repr

/-- A settings block write that is outstanding, with the values that it brings into force (R155, R160). -/
structure SettingsWrite where
  settings : Settings
  marker : BitVec 128
  day : Nat
  bytes : Block
  retryUsed : Bool := false
  waiters : List SetWaiter := []
  deriving DecidableEq, Repr

/-- What waits for a catalogue block write (R17). -/
inductive CatWaiter where
  | opening (serial : Nat)
  | closing (window serial : Nat)
  | expiring (window serial : Nat)
  | free (window serial : Nat)
  | resume (tag : Option Nat)
  | format
  deriving DecidableEq, Repr

/-- A catalogue block write that is outstanding, and the changes gathered behind it (R17). -/
structure CatWrite where
  block : Nat
  bytes : Block
  retryUsed : Bool := false
  waiters : List CatWaiter := []
  gathered : Option (List CatWaiter) := none
  deriving DecidableEq, Repr

/-- The 16 characters "TA-816 DIRECTIVE" (R156). -/
def freshMarker : BitVec 128 := 0x54412D38313620444952454354495645

/-- The settings, their image, and the writes of the settings and catalogue blocks (10.3, R160, R17). -/
structure SettingsUnit where
  work : Settings := {}
  workMarker : BitVec 128 := freshMarker
  image : Settings := {}
  imageMarker : BitVec 128 := freshMarker
  write : Option SettingsWrite := none
  gathered : Option (List SetWaiter) := none
  catWrites : List CatWrite := []
  deriving DecidableEq, Repr

/-! ### Start-up (chapter 11) -/

/-- Where start-up stands (R166 to R171). -/
inductive StartPhase where
  | capacity | settings | format | catalogue | scan | journal | finish
  deriving DecidableEq, Repr

/-- A segment found by the scan (R167): where it lies, its header, and its lead, tail and last record bytes. -/
structure Found where
  zone : Nat
  off : Nat
  hdr : SegHeader
  lead : List Byte
  tail : List Byte
  last : List Byte
  deriving DecidableEq, Repr

/-- A running start-up: its phase, the read it is at, and what it has gathered (R166 to R171). -/
structure Startup where
  phase : StartPhase := .capacity
  /-- phase 1: the CAPACITY request is out -/
  issued : Bool := false
  /-- the read it is at is being made for the second time -/
  second : Bool := false
  /-- the number, within the phase, of the block it is at -/
  pos : Nat := 0
  /-- phase 4: the blocks of the zone read so far, latest first -/
  zoneBlocks : List (Option Block) := []
  /-- phase 4: the offsets of the zone whose segment failed its checks and has been asked for once more -/
  checked : List Nat := []
  /-- phase 4: blocks of a failed segment are being read again, up to this offset of the zone -/
  redo : Option Nat := none
  found : List Found := []
  /-- scan end of each zone scanned -/
  ends : List (Nat × Nat) := []
  /-- highest write stamp of any valid header, and its zone -/
  top : Option (Nat × Nat) := none
  /-- highest serial in a segment header or journal entry -/
  maxSerial : Nat := 0
  /-- phase 7: the valid ring block of highest sequence -/
  best : Option Block := none
  /-- serials of the PURGE entries found -/
  purged : List Nat := []
  formatted : Bool := false
  rebuilt : Bool := false
  cut : Bool := false
  resumed : Nat := 0
  suspended : Nat := 0
  abandoned : Nat := 0
  deriving DecidableEq, Repr

/-! ### The whole part -/

/-- The latched attention items (11.3). -/
structure Latched where
  volumeStalled : Bool := false
  discrepantClose : Bool := false
  damageFound : Bool := false
  storeFault : Bool := false
  expiryBlocked : Bool := false
  deriving DecidableEq, Repr

/-- The state of the part. `pending` is the queue of commands, first in first out; `sent` the messages sent, oldest first. -/
structure State where
  pending : List Instr := []
  sent : List Msg := []
  resetHeld : Bool := false
  straps : Nat := 2
  startup : Option Startup := some {}
  halted : Option FaultClass := none
  haltedEarly : Bool := false
  latched : Latched := {}
  client : ClientPort := {}
  vols : List Volume := []
  serialCounter : Nat := 1
  ctxs : List Ctx := []
  pend : List PendSeg := []
  tariff : TariffUnit := {}
  alloc : Alloc := {}
  port : StorePort := {}
  rd : ReadUnit := {}
  ret : Retention := {}
  audit : AuditUnit := {}
  jr : JournalUnit := {}
  set : SettingsUnit := {}
  deriving DecidableEq, Repr

/-- The part right after power-on with good power: all work and working state empty (R165), start-up at phase 1, both links
taken as DOWN until the lane layer reports (R22, R95). Entries 3 and 4 name what the spec does not give. -/
def State.reset : State := {}

/-- The ways a command can stop the machine. -/
inductive Fault where
  /-- Raised by CLIENT_DATA and STORE_DATA when the operand is not 4096 bytes, which no DATA message can carry (12.5,
  entry 25). Safe: the model stops where the hardware has no such event. -/
  | notABlock
  deriving DecidableEq, Repr

/-- The ways a command can be refused by the model. -/
inductive Refusal where
  /-- Raised by `exec` alone, for a row that has no meaning yet. Safe: nothing follows from a refusal. -/
  | notModelled (mnemonic : String)
  deriving DecidableEq, Repr

/-- The outcome of a command. -/
abbrev Result := Host.Outcome State Fault Refusal

end Sys2Proof.Machine
end

