-- ==== Sys2Proof/Machine/Flags.lean ====
section
/-! DEFINITION. The coded values of chapter 12 and the flag computations: statuses, reasons, classes, states, the reconcile
flags of R129 and the audit state of R130. -/

namespace Sys2Proof.Machine

/-- Status codes (12.5). -/
def Status.code : Status → Nat
  | .good => 0 | .busyRetry => 1 | .refused => 2 | .storeError => 3 | .expired => 4 | .unavailable => 5
  | .aborted => 6 | .halted => 7

/-- Reason codes (12.5). -/
def Reason.code : Reason → Nat
  | .badRequest => 1 | .crossesWindow => 2 | .appendOnly => 3 | .notAVolume => 4 | .duplicateVolume => 5
  | .openLimit => 6 | .volumeClosed => 7 | .windowBusy => 8 | .journalReadOnly => 9 | .directiveCheck => 16
  | .unknownDirective => 17 | .badField => 18 | .noSuchVolume => 19 | .wrongState => 20 | .bankInUse => 21
  | .holdExists => 22 | .holdTableFull => 23 | .noSuchHold => 24 | .queueFull => 25 | .tooLate => 26
  | .calendarBackward => 27 | .journalFull => 28

/-- Class codes (R173). -/
def FaultClass.code : FaultClass → Nat
  | .medium => 1 | .check => 2 | .timeout => 3 | .linkDown => 4 | .geometry => 5 | .mismatch => 6 | .lost => 7

/-- Lifecycle state codes (R173); FREE is 0. -/
def LifeState.code : LifeState → Nat
  | .opened => 1 | .suspended => 2 | .closing => 3 | .closed => 4 | .expiring => 5

/-- The lifecycle state of a code; none for FREE and for codes outside the list. -/
def LifeState.ofCode : Nat → Option LifeState
  | 1 => some .opened | 2 => some .suspended | 3 => some .closing | 4 => some .closed | 5 => some .expiring
  | _ => none

/-- Audit state codes (R173). -/
def AuditState.code : AuditState → Nat
  | .pending => 0 | .reconciled => 1 | .discrepant => 2 | .unterminated => 3 | .unparsed => 4 | .damaged => 5
  | .accepted => 6

/-- The audit state of a code; codes outside the list read as PENDING. -/
def AuditState.ofCode : Nat → AuditState
  | 1 => .reconciled | 2 => .discrepant | 3 => .unterminated | 4 => .unparsed | 5 => .damaged | 6 => .accepted
  | _ => .pending

/-- Framer state codes (R173). -/
def FramerState.code : FramerState → Nat
  | .inCalls => 0 | .afterTrailer => 1 | .raw => 2

/-- Map entry kind codes (R173). -/
def SegKind.code : SegKind → Nat
  | .coded => 0 | .raw => 1 | .lost => 2

/-- The kind of a code; none outside the list. -/
def SegKind.ofCode : Nat → Option SegKind
  | 0 => some .coded | 1 => some .raw | 2 => some .lost | _ => none

/-- A Boolean as a number. -/
def bit (b : Bool) : Nat := if b then 1 else 0

/-- Reconcile flags as a number, COUNT_DIFF in bit 0 to FUTURE_DAY in bit 9 (R173). -/
def ReconcileFlags.code (f : ReconcileFlags) : Nat :=
  bit f.countDiff + 2 * bit f.durationDiff + 4 * bit f.unitsDiff + 8 * bit f.volumeDiff + 16 * bit f.seqGaps
    + 32 * bit f.badRecords + 64 * bit f.unrated + 128 * bit f.totalOverflow + 256 * bit f.trailerBad
    + 512 * bit f.futureDay

/-- The flags of a number (R173). -/
def ReconcileFlags.ofCode (n : Nat) : ReconcileFlags where
  countDiff := n.testBit 0
  durationDiff := n.testBit 1
  unitsDiff := n.testBit 2
  volumeDiff := n.testBit 3
  seqGaps := n.testBit 4
  badRecords := n.testBit 5
  unrated := n.testBit 6
  totalOverflow := n.testBit 7
  trailerBad := n.testBit 8
  futureDay := n.testBit 9

/-- Some flag is set. -/
def ReconcileFlags.any (f : ReconcileFlags) : Bool :=
  f.countDiff || f.durationDiff || f.unitsDiff || f.volumeDiff || f.seqGaps || f.badRecords || f.unrated
    || f.totalOverflow || f.trailerBad || f.futureDay

/-- The reconcile flags of a closing volume (R129): its trailer, counts, overflow mark, header day and opened-on day. -/
def reconcileFlags (t : Option TrailerTotals) (c : Counts) (overflow : Bool) (day openedOn : Nat) : ReconcileFlags :=
  let differs (f : TrailerTotals → Nat) (own : Nat) : Bool :=
    match t with
    | some t => t.crcGood && f t != own
    | none => false
  { countDiff := differs (·.count) c.calls
    durationDiff := differs (·.duration) c.duration
    unitsDiff := differs (·.units) c.units
    volumeDiff := differs (·.volume) c.volume
    seqGaps := 0 < c.gaps || 0 < c.disorder
    badRecords := 0 < c.bad
    unrated := 0 < c.unrated
    totalOverflow := overflow
    trailerBad := match t with
      | some t => !t.crcGood
      | none => false
    futureDay := openedOn + 1 < day }

/-- The audit state that a close gives, the first case that holds (R130). -/
def closeVerdictState (damaged raw trailerSeen anyFlag : Bool) : AuditState :=
  if damaged then .damaged
  else if raw then .unparsed
  else if !trailerSeen then .unterminated
  else if anyFlag then .discrepant
  else .reconciled

/-- The largest count and the largest total (4.2 of 00_scope.md, R46, R54). -/
def maxCount : Nat := 4294967295
def maxTotal : Nat := 281474976710655

/-- A count raised, saturating (R46). -/
def addCount (a b : Nat) : Nat := min (a + b) maxCount

/-- A total raised, saturating (R54). -/
def addTotal (a b : Nat) : Nat := min (a + b) maxTotal

/-- Some total stands at its limit (R40, R54). -/
def Counts.atLimit (c : Counts) : Bool := c.duration == maxTotal || c.units == maxTotal || c.volume == maxTotal

/-! ### Levels of the attention items (11.3) -/

/-- The twelve attention items, in the order of their bits (R172). -/
inductive Item where
  | spaceLow | spaceExhausted | mapFull | journalHigh | journalFull | storeLinkDown | volumeStalled | discrepantClose
  | damageFound | storeFault | expiryBlocked | halted
  deriving DecidableEq, Repr

/-- All items, bit 0 first (R172). -/
def Item.all : List Item :=
  [.spaceLow, .spaceExhausted, .mapFull, .journalHigh, .journalFull, .storeLinkDown, .volumeStalled, .discrepantClose,
    .damageFound, .storeFault, .expiryBlocked, .halted]

/-- The level of an item (11.3). -/
def Item.level : Item → Nat
  | .spaceLow => 1 | .spaceExhausted => 3 | .mapFull => 3 | .journalHigh => 1 | .journalFull => 3
  | .storeLinkDown => 2 | .volumeStalled => 1 | .discrepantClose => 2 | .damageFound => 3 | .storeFault => 2
  | .expiryBlocked => 1 | .halted => 4

end Sys2Proof.Machine
end

