-- ==== Sys2Proof/Machine/Formats.lean ====
section
/-! DEFINITION. The formats the server sees (chapter 12): records, journal entries and journal blocks. -/

namespace Sys2Proof.Machine

/-! ### Records (12.1) -/

/-- The kind bytes 'H', 'C' and 'T' (12.1). -/
def kindH : Byte := 0x48
def kindC : Byte := 0x43
def kindT : Byte := 0x54

/-- The kind byte of a record. -/
def recKind (r : List Byte) : Byte := r.headD 0

/-- A record's CRC-16 over bytes 0 to 37 matches bytes 38 and 39 (R44). -/
def recCrcGood (r : List Byte) : Bool := (crc16 (r.take 38)).toNat == fld r 38 2

/-- Call record fields (12.1). -/
def callTariff (r : List Byte) : Nat := fld r 1 1
def callService (r : List Byte) : Nat := fld r 2 1
def callCause (r : List Byte) : Nat := fld r 3 1
def callSeq (r : List Byte) : Nat := fld r 4 4
def callStart (r : List Byte) : Nat := fld r 8 3
def callDuration (r : List Byte) : Nat := fld r 11 3
def callCalling (r : List Byte) : List Byte := slice r 14 8
def callCalled (r : List Byte) : List Byte := slice r 22 8
def callRoute (r : List Byte) : Nat := fld r 30 2
def callCell (r : List Byte) : Nat := fld r 32 4
def callVolume (r : List Byte) : Nat := fld r 36 2

/-- Header fields (12.1). -/
def headerSource (r : List Byte) : Nat := fld r 2 2
def headerDay (r : List Byte) : Nat := fld r 4 2
def headerGen (r : List Byte) : Nat := fld r 6 1
def headerClass (r : List Byte) : Nat := fld r 7 1

/-- The first 40 bytes of block 0 are a valid header (R5). -/
def validHeader (r : List Byte) : Bool :=
  r.length == 40 && recCrcGood r && recKind r == kindH && fld r 1 1 == 1 && headerClass r ≤ 7
    && (slice r 8 30).all (· == 0)

/-- What a trailer record declares (R56, 12.1). -/
def trailerTotals (r : List Byte) : TrailerTotals where
  count := fld r 1 4
  duration := fld r 5 6
  units := fld r 11 6
  volume := fld r 17 6
  crcGood := recCrcGood r

/-! ### Entry bodies (12.4) -/

/-- Identity: source id, day number, generation (R173). -/
def identityBytes (v : Volume) : List Byte := be 2 v.source ++ be 2 v.day ++ be 1 v.gen

/-- A chain link: index and value (R173). -/
def linkBytes (l : ChainLink) : List Byte := be 8 l.index ++ be 8 l.value.toNat

/-- The link of a closed volume; the formatted link when absent. -/
def chainOf (v : Volume) : ChainLink := v.chain.getD {}

/-- The digest of a closed volume. -/
def digestOf (v : Volume) : BitVec 64 := v.digest.getD 0

/-- Trailer totals in an entry: declared count, three totals, CRC good (12.4, CLOSE). -/
def trailerBytes (t : TrailerTotals) : List Byte :=
  be 4 t.count ++ be 6 t.duration ++ be 6 t.units ++ be 6 t.volume ++ [boolByte t.crcGood]

/-- Five counts and three totals (12.4, CLOSE). -/
def countsBytes (c : Counts) : List Byte :=
  be 4 c.calls ++ be 4 c.gaps ++ be 4 c.disorder ++ be 4 c.bad ++ be 4 c.unrated
    ++ be 6 c.duration ++ be 6 c.units ++ be 6 c.volume

/-- START (0x0001). -/
def startBody (formatted rebuilt cut : Bool) (head : ChainLink) (free resumed suspended abandoned : Nat) : List Byte :=
  be 1 (bit formatted + 2 * bit rebuilt + 4 * bit cut) ++ linkBytes head ++ be 4 free ++ be 2 resumed ++ be 2 suspended
    ++ be 2 abandoned

/-- OPEN (0x0002). -/
def openBody (v : Volume) : List Byte :=
  be 2 v.window ++ be 4 v.serial ++ identityBytes v ++ be 1 v.cls ++ be 1 v.bank ++ be 2 v.openedOn

/-- CLOSE (0x0003): the volume as closed, the flags found, the blocks discarded, the reference. -/
def closeBody (v : Volume) (c : Closing) : List Byte :=
  be 2 v.window ++ be 4 v.serial ++ identityBytes v ++ be 1 v.audit.code ++ be 2 c.flags.code
    ++ optBytes 23 (v.trailer.map trailerBytes) ++ countsBytes v.counts ++ be 4 v.ingest ++ be 4 v.segments
    ++ be 4 c.discarded ++ be 8 (digestOf v).toNat ++ linkBytes (chainOf v) ++ optBytes 4 (c.ref.map (be 4))

/-- SUPERSEDE (0x0004): the superseded volume `v` and the superseding serial and generation. -/
def supersedeBody (v : Volume) (serial gen : Nat) : List Byte :=
  be 2 v.window ++ be 4 v.serial ++ be 1 v.gen ++ be 4 serial ++ be 1 gen ++ be 2 (v.supersededOn.getD 0)
    ++ be 3 (v.expiry.getD 0)

/-- STALL (0x0005). -/
def stallBody (window serial ingest committed : Nat) : List Byte :=
  be 2 window ++ be 4 serial ++ be 4 ingest ++ be 4 committed

/-- SWEEP (0x0006). -/
def sweepBody (w : Sweep) : List Byte :=
  be 2 w.day ++ be 4 w.ref ++ be 2 w.queued ++ be 2 w.held ++ be 2 w.blocked ++ be 2 w.verifying

/-- PURGE (0x0007). -/
def purgeBody (v : Volume) : List Byte :=
  be 2 v.window ++ be 4 v.serial ++ identityBytes v ++ be 8 (digestOf v).toNat ++ linkBytes (chainOf v)

/-- The fields of a hold: id, any-source, source id, first day, last day, placed-on day (12.4; the source id of ANY is 0,
entry 17). -/
def holdFields (h : Hold) : List Byte :=
  be 2 h.id ++ [boolByte h.source.isNone] ++ be 2 (h.source.getD 0) ++ be 2 h.first ++ be 2 h.last ++ be 2 h.placedOn

/-- HOLD (0x0008): volumes returned, and window and serial of the volume too late. -/
def holdBody (ref : Nat) (h : Hold) (returned : Nat) (late : Option (Nat × Nat)) : List Byte :=
  be 4 ref ++ holdFields h ++ be 2 returned ++ optBytes 6 (late.map fun p => be 2 p.1 ++ be 4 p.2)

/-- RELEASE (0x0009). -/
def releaseBody (ref : Nat) (h : Hold) : List Byte := be 4 ref ++ holdFields h

/-- ACCEPT (0x000A): the audit state replaced and the flags discarded. The flags are 0 where the state replaced was not DISCREPANT:
R131 gives them only when it was, and 12.4 does not mark the field optional (DESIGN CHOICE, entry 56). -/
def acceptBody (ref : Nat) (v : Volume) : List Byte :=
  be 4 ref ++ be 2 v.window ++ be 4 v.serial ++ be 1 v.audit.code
    ++ be 2 (match v.flags with | some f => f.code | none => 0)

/-- Verdicts of a verification (R137). -/
inductive Verdict where
  | verified | damaged | mismatch | lost | incomplete
  deriving DecidableEq, Repr

/-- Verdict codes (12.4). -/
def Verdict.code : Verdict → Nat
  | .verified => 0 | .damaged => 1 | .mismatch => 2 | .lost => 3 | .incomplete => 4

/-- VERIFY (0x000B): originator and reference (none for PATROL), verdict, segments clean, failing segment and class, audit
state after. -/
def verifyBody (window serial : Nat) (queueRef : Option Nat) (verdict : Verdict) (clean : Nat)
    (failing : Option (Nat × FaultClass)) (after : AuditState) : List Byte :=
  be 2 window ++ be 4 serial ++ [boolByte queueRef.isSome] ++ be 4 (queueRef.getD 0) ++ be 1 verdict.code ++ be 4 clean
    ++ optBytes 5 (failing.map fun p => be 4 p.1 ++ be 1 p.2.code) ++ be 1 after.code

/-- Subtypes of a FAULT entry (12.4). -/
inductive FaultKind where
  | writeRecovered | segmentLost | readRecovered | readDamage | double | rebuiltLoss
  deriving DecidableEq, Repr

/-- Subtype codes (12.4). -/
def FaultKind.code : FaultKind → Nat
  | .writeRecovered => 0 | .segmentLost => 1 | .readRecovered => 2 | .readDamage => 3 | .double => 4 | .rebuiltLoss => 5

/-- Kinds of a failed write (12.4). -/
inductive WriteKind where
  | settings | catalogue | journal | lostMarker
  deriving DecidableEq, Repr

/-- Failed write kind codes (12.4). -/
def WriteKind.code : WriteKind → Nat
  | .settings => 0 | .catalogue => 1 | .journal => 2 | .lostMarker => 3

/-- States of a captured segment (R77). -/
inductive CaptureState where
  | committed | lost | pending
  deriving DecidableEq, Repr

/-- Capture state codes (12.4). -/
def CaptureState.code : CaptureState → Nat
  | .committed => 0 | .lost => 1 | .pending => 2

/-- The contents of a FAULT entry (12.4). -/
structure FaultInfo where
  kind : FaultKind
  cls : FaultClass
  vol : Option (Nat × Nat) := none
  seg : Option (Nat × Nat × Nat) := none
  place : Option (Nat × Nat) := none
  retry : Option (Nat × Nat) := none
  captures : List (Nat × Nat × Nat × CaptureState) := []
  write : Option (WriteKind × Nat) := none

/-- FAULT (0x000C). The captures fill the first of the 3 slots and the slots left over are zeros: 12.4 gives a count and 3 slots and
does not say what an unused one holds (DESIGN CHOICE, entry 55). -/
def faultBody (f : FaultInfo) : List Byte :=
  let cap (c : Nat × Nat × Nat × CaptureState) : List Byte :=
    be 4 c.1 ++ be 4 c.2.1 ++ be 4 c.2.2.1 ++ be 1 c.2.2.2.code
  let caps := f.captures.take 3
  be 1 f.kind.code ++ be 1 f.cls.code ++ optBytes 6 (f.vol.map fun p => be 2 p.1 ++ be 4 p.2)
    ++ optBytes 12 (f.seg.map fun p => be 4 p.1 ++ be 4 p.2.1 ++ be 4 p.2.2)
    ++ optBytes 6 (f.place.map fun p => be 4 p.1 ++ be 2 p.2) ++ optBytes 6 (f.retry.map fun p => be 4 p.1 ++ be 2 p.2)
    ++ be 1 caps.length ++ padTo 39 (caps.flatMap cap)
    ++ optBytes 5 (f.write.map fun p => be 1 p.1.code ++ be 4 p.2)

/-- RESUMED (0x000D). -/
def resumedBody (ref : Option Nat) (window serial ingest : Nat) : List Byte :=
  optBytes 4 (ref.map (be 4)) ++ be 2 window ++ be 4 serial ++ be 4 ingest

/-- SUSPENDED (0x000E). -/
def suspendedBody (window serial ingest : Nat) : List Byte := be 2 window ++ be 4 serial ++ be 4 ingest

/-- Setting codes (R172). -/
def CompletionMode.code : CompletionMode → Nat
  | .posted => 0 | .committed => 1
def ResumePolicy.code : ResumePolicy → Nat
  | .abandon => 0 | .resume => 1 | .preserve => 2 | .byClass => 3
def IdleUnit.code : IdleUnit → Nat
  | .seconds => 0 | .minutes => 1
def LinkLoss.code : LinkLoss → Nat
  | .hold => 0 | .fail => 1
def Choice.code : Choice → Nat
  | .resume => 0 | .abandon => 1

/-- The eleven settings in CONFIGURE slot order, 12 bytes (12.4, SNAPSHOT). -/
def settingsBytes (x : Settings) : List Byte :=
  be 1 x.mode.code ++ be 1 x.policy.code ++ be 1 x.idleLimit ++ be 1 x.idleUnit.code ++ be 1 x.storeTimeout
    ++ be 1 x.linkLoss.code ++ be 2 x.spaceLow ++ be 1 x.journalHigh ++ be 1 x.maskLevel ++ be 1 x.patrolRate
    ++ be 1 (bit x.readAhead)

/-- The body of CONFIGURE as received, 14 bytes (12.2). -/
def configureBytes (b : ConfigureBody) : List Byte :=
  be 2 b.mask.toNat ++ [b.mode, b.policy, b.idleLimit, b.idleUnit, b.storeTimeout, b.linkLoss] ++ be 2 b.spaceLow.toNat
    ++ [b.journalHigh, b.maskLevel, b.patrolRate, b.readAhead]

/-- SETTINGS (0x0011): reference, directive code, the values changed. -/
def settingsBody (ref cause : Nat) (rest : List Byte) : List Byte := be 4 ref ++ be 1 cause ++ rest

/-- One listed map entry of a VOLUME entry (12.4). A LOST entry that start-up made for a short CLOSED volume can cover more than
65,535 blocks; its two-byte count then holds the lower 16 bits (DESIGN CHOICE, entry 44). -/
def listedBytes (i : Nat) (e : MapEntry) : List Byte := be 4 i ++ be 4 e.first ++ be 2 e.count ++ be 1 e.kind.code

/-- Map entries listed with their indices, from `i` on. -/
def listEntries : Nat → List MapEntry → List Byte
  | _, [] => []
  | i, e :: es => listedBytes i e ++ listEntries (i + 1) es

/-- VOLUME (0x0010) of a window that is not FREE: `counts` are those R158 reports, `ctx` the context's part (framer state,
carry length, committed point, pending segments). -/
def volumeBody (ref : Nat) (v : Volume) (counts : Counts) (ctx : Option (FramerState × Nat × Nat × Nat)) (first : Nat) :
    List Byte :=
  let listed := (v.map.drop first).take 16
  be 4 ref ++ be 2 v.window ++ be 1 v.state.code ++ be 4 v.serial ++ identityBytes v ++ be 1 v.cls ++ be 2 v.openedOn
    ++ be 1 v.bank ++ be 1 v.audit.code ++ optBytes 2 (v.flags.map fun f => be 2 f.code)
    ++ optBytes 23 (v.trailer.map trailerBytes) ++ countsBytes counts ++ be 4 v.ingest ++ be 4 v.segments
    ++ optBytes 8 (v.digest.map fun d => be 8 d.toNat) ++ optBytes 16 (v.chain.map linkBytes)
    ++ optBytes 2 (v.supersededOn.map (be 2)) ++ optBytes 3 (v.expiry.map (be 3))
    ++ be 1 (bit v.stalled + 2 * bit v.verifyQueued + 4 * bit v.verifying + 8 * bit v.reclaimBegun)
    ++ optBytes 7 (ctx.map fun c => be 1 c.1.code ++ be 1 c.2.1 ++ be 4 c.2.2.1 ++ be 1 c.2.2.2)
    ++ be 4 v.map.length ++ be 1 listed.length ++ listEntries first listed

/-- VOLUME (0x0010) of a FREE window: the state and nothing more (R158). -/
def volumeFreeBody (ref window : Nat) : List Byte := be 4 ref ++ be 2 window ++ be 1 0

/-! ### Entries and journal blocks (R145, R173, 12.3) -/

/-- The length of an entry in bytes: header, body and padding to a multiple of 8 (R173). -/
def entryLen (body : List Byte) : Nat := 8 * ceilDiv (16 + body.length) 8

/-- The bytes of an entry (12.3, R173). -/
def entryBytes (code seq day : Nat) (body : List Byte) : List Byte :=
  padTo (entryLen body)
    (be 2 code ++ be 2 (entryLen body / 8) ++ be 8 seq ++ be 2 day ++ be 2 0 ++ body)

/-- A FILLER of `n` bytes (R173). -/
def fillerBytes (n day : Nat) : List Byte :=
  padTo n (be 2 0x00FF ++ be 2 (n / 8) ++ be 8 0 ++ be 2 day ++ be 2 0)

/-- Bytes used of the journal buffer, header included (R145). -/
def JournalBuffer.used (b : JournalBuffer) : Nat := 32 + b.body.length

/-- A journal block's header up to its CRC (12.3). -/
def journalHeader (seq firstSeq count used : Nat) : List Byte :=
  be 8 seq ++ be 8 firstSeq ++ be 4 count ++ be 2 used ++ zeros 6

/-- CRC-32 of a journal block: over the whole block with the CRC field taken as zero (R145). -/
def journalCrc (b : Block) : BitVec 32 := crc32 (b.take 28 ++ zeros 4 ++ b.drop 32)

/-- The journal buffer as a block (R145). -/
def renderJournal (head : Nat) (b : JournalBuffer) : Block :=
  match b.asRead with
  | some raw => raw
  | none =>
    let hdr := journalHeader head b.firstSeq b.count b.used
    let rest := padTo 4064 b.body
    hdr ++ be 4 (crc32 (hdr ++ zeros 4 ++ rest)).toNat ++ rest

end Sys2Proof.Machine
end

