-- ==== Sys2Proof/Machine/Layouts.lean ====
section
/-! DEFINITION. The stored formats that only the part sees (4.5 of 00_scope.md: described by content, not by layout): segment
header (R72), catalogue record (R16), settings block (R159). Their contents are the spec's; where each byte lies is this
model's choice (DESIGN CHOICE, entries 7 and 8) and the two markers are free values of Config. -/

namespace Sys2Proof.Machine

/-! ### Segment header and stored segment (R72, R73) -/

/-- Stored length of a segment (R73). -/
def storedLen (kind : SegKind) (count payloadLen : Nat) : Nat :=
  match kind with
  | .coded => ceilDiv (128 + payloadLen) 4096
  | .raw => 1 + count
  | .lost => 1

/-- Stored length of a segment by its header (R73). -/
def SegHeader.len (h : SegHeader) : Nat := storedLen h.kind h.count h.payloadLen

/-- Bytes 0 to 123 of a header: all but its CRC (R72). R93 speaks of a header rebuilt with the new zone offset, and R72 lists no
zone offset among its contents: this header holds none (DESIGN CHOICE, entry 7). -/
def headerBytes (h : SegHeader) : List Byte :=
  padTo 124 (be 8 Config.segmentMarker.toNat ++ be 2 h.window ++ be 4 h.serial ++ be 4 h.index ++ be 4 h.first ++ be 4 h.count
    ++ be 1 h.kind.code ++ be 1 h.lead ++ be 2 h.tail ++ be 4 h.recs ++ be 4 h.payloadLen ++ be 8 h.stamp
    ++ optBytes 4 (h.run.lastSeq.map (be 4)) ++ countsBytes h.run.counts ++ be 1 (bit h.run.trailerSeen)
    ++ be 8 h.run.digest.toNat ++ be 1 h.run.bank)

/-- The segment CRC-32: the header's other bytes and the payload (R72). -/
def segmentCrc (hdr payload : List Byte) : BitVec 32 := crc32 (hdr ++ payload)

/-- A segment as it lies in the store: CODED, the header and payload at once, then zeros; RAW, the header's block and the
covered blocks; LOST, the header's block (R73). -/
def segmentBlocks (h : SegHeader) (payload : List Byte) : List Block :=
  let hdr := headerBytes h
  let full := hdr ++ be 4 (segmentCrc hdr payload).toNat
  match h.kind with
  | .coded => toBlocks h.len (padTo (4096 * h.len) (full ++ payload))
  | .raw => padTo 4096 full :: toBlocks h.count payload
  | .lost => [padTo 4096 full]

/-- Five counts and three totals read back from 38 bytes (12.4 order). -/
def countsOf (b : List Byte) : Counts where
  calls := fld b 0 4
  gaps := fld b 4 4
  disorder := fld b 8 4
  bad := fld b 12 4
  unrated := fld b 16 4
  duration := fld b 20 6
  units := fld b 26 6
  volume := fld b 32 6

/-- The header that a block's first 128 bytes spell; none for a kind code outside the list. The marker and the CRC are not
looked at here. -/
def parseHeader (b : List Byte) : Option SegHeader :=
  (SegKind.ofCode (fld b 26 1)).map fun kind =>
    { window := fld b 8 2
      serial := fld b 10 4
      index := fld b 14 4
      first := fld b 18 4
      count := fld b 22 4
      kind := kind
      lead := fld b 27 1
      tail := fld b 28 2
      recs := fld b 30 4
      payloadLen := fld b 34 4
      stamp := fld b 38 8
      run :=
        { lastSeq := if fld b 46 1 == 1 then some (fld b 47 4) else none
          counts := countsOf (slice b 51 38)
          trailerSeen := fld b 89 1 == 1
          digest := BitVec.ofNat 64 (fld b 90 8)
          bank := fld b 98 1 } }

/-- The payload of a stored segment of the given kind and payload length, from its bytes (R73). -/
def storedPayload (kind : SegKind) (payloadLen : Nat) (bytes : List Byte) : List Byte :=
  match kind with
  | .coded => slice bytes 128 payloadLen
  | .raw => slice bytes 4096 payloadLen
  | .lost => []

/-- A stored segment's header and payload, when its CRC-32 matches and it begins with the segment marker (R64, R167). -/
def parseSegment (bytes : List Byte) : Option (SegHeader × List Byte) :=
  match parseHeader bytes with
  | none => none
  | some h =>
    let payload := storedPayload h.kind h.payloadLen bytes
    if (segmentCrc (bytes.take 124) payload).toNat == fld bytes 124 4 && fld bytes 0 8 == Config.segmentMarker.toNat then
      some (h, payload)
    else none

/-! ### Catalogue record (R16) -/

/-- The catalogue record of a window that holds volume `v`, or of a FREE window: 252 bytes and their CRC-32 (R16). -/
def catRecordBytes (o : Option Volume) : List Byte :=
  let body := padTo 252 (match o with
    | none => []
    | some v =>
      be 1 v.state.code ++ be 2 v.window ++ be 4 v.serial ++ identityBytes v ++ be 1 v.cls ++ be 2 v.openedOn ++ be 1 v.bank
        ++ be 1 v.audit.code ++ optBytes 2 (v.flags.map fun f => be 2 f.code) ++ optBytes 23 (v.trailer.map trailerBytes)
        ++ countsBytes v.counts ++ be 4 v.ingest ++ be 4 v.segments ++ optBytes 8 (v.digest.map fun d => be 8 d.toNat)
        ++ optBytes 16 (v.chain.map linkBytes) ++ optBytes 2 (v.supersededOn.map (be 2)) ++ optBytes 3 (v.expiry.map (be 3)))
  body ++ be 4 (crc32 body).toNat

/-- An optional field behind its presence byte at `at`. -/
def optField (b : List Byte) (start len : Nat) (f : List Byte → α) : Option α :=
  if fld b start 1 == 1 then some (f (slice b (start + 1) len)) else none

/-- The volume record that a catalogue record of window `w` restores: none for a FREE record and for one whose CRC does not
match (R2, R16). -/
def parseCatRecord (w : Nat) (b : List Byte) : Option Volume :=
  if (crc32 (b.take 252)).toNat != fld b 252 4 then none
  else
    (LifeState.ofCode (fld b 0 1)).map fun st =>
      { window := w
        serial := fld b 3 4
        state := st
        source := fld b 7 2
        day := fld b 9 2
        gen := fld b 11 1
        cls := fld b 12 1
        openedOn := fld b 13 2
        bank := fld b 15 1
        audit := AuditState.ofCode (fld b 16 1)
        flags := optField b 17 2 fun x => ReconcileFlags.ofCode (ofBE x)
        trailer := optField b 20 23 fun x =>
          { count := fld x 0 4, duration := fld x 4 6, units := fld x 10 6, volume := fld x 16 6, crcGood := fld x 22 1 == 1 }
        counts := countsOf (slice b 44 38)
        ingest := fld b 82 4
        segments := fld b 86 4
        digest := optField b 90 8 fun x => BitVec.ofNat 64 (ofBE x)
        chain := optField b 99 16 fun x => { index := fld x 0 8, value := BitVec.ofNat 64 (fld x 8 8) }
        supersededOn := optField b 116 2 ofBE
        expiry := optField b 119 3 ofBE }

/-! ### Settings block (R159) -/

/-- Everything the settings block holds but its marker and CRC (R159). -/
structure Stored where
  settings : Settings := {}
  marker : BitVec 128 := freshMarker
  day : Nat := 0
  table : List RetentionEntry := List.replicate 8 {}
  bank0 : List TariffEntry := List.replicate 64 ⟨0, 0, 0, 0⟩
  bank1 : List TariffEntry := List.replicate 64 ⟨0, 0, 0, 0⟩
  active : Nat := 0
  holds : List Hold := []
  floor : ChainLink := {}
  serial : Nat := 1
  j : Nat := 2
  readPtr : Nat := 0
  deriving DecidableEq, Repr

/-- One retention entry: days, grace, resume choice. -/
def retentionBytes (r : RetentionEntry) : List Byte := be 2 r.days ++ be 2 r.grace ++ be 1 r.choice.code

/-- One tariff entry: G, I, S, rate. -/
def tariffBytes (e : TariffEntry) : List Byte :=
  be 1 e.grace.toNat ++ be 2 e.initial.toNat ++ be 2 e.step.toNat ++ be 2 e.rate.toNat

/-- Bytes 0 to 4091 of the settings block (R159). -/
def storedBody (x : Stored) : List Byte :=
  padTo 4092 (be 8 Config.settingsMarker.toNat ++ settingsBytes x.settings ++ be 16 x.marker.toNat ++ be 2 x.day
    ++ padTo 40 (x.table.flatMap retentionBytes) ++ padTo 448 (x.bank0.flatMap tariffBytes)
    ++ padTo 448 (x.bank1.flatMap tariffBytes) ++ be 1 x.active ++ be 1 x.holds.length
    ++ padTo 704 (x.holds.flatMap holdFields) ++ linkBytes x.floor ++ be 4 x.serial ++ be 1 x.j ++ be 8 x.readPtr)

/-- The settings block (R159). -/
def storedBlock (x : Stored) : Block := storedBody x ++ be 4 (crc32 (storedBody x)).toNat

/-- The settings of 12 bytes (R172 codes). -/
def settingsOf (b : List Byte) : Settings where
  mode := if fld b 0 1 == 1 then .committed else .posted
  policy := match fld b 1 1 with
    | 0 => .abandon
    | 1 => .resume
    | 2 => .preserve
    | _ => .byClass
  idleLimit := fld b 2 1
  idleUnit := if fld b 3 1 == 1 then .minutes else .seconds
  storeTimeout := fld b 4 1
  linkLoss := if fld b 5 1 == 1 then .fail else .hold
  spaceLow := fld b 6 2
  journalHigh := fld b 8 1
  maskLevel := fld b 9 1
  patrolRate := fld b 10 1
  readAhead := fld b 11 1 == 1

/-- The retention entry of 5 bytes. -/
def retentionOf (b : List Byte) : RetentionEntry :=
  { days := fld b 0 2, grace := fld b 2 2, choice := if fld b 4 1 == 1 then .abandon else .resume }

/-- The tariff entry of 7 bytes. -/
def tariffOf (b : List Byte) : TariffEntry :=
  { grace := BitVec.ofNat 8 (fld b 0 1), initial := BitVec.ofNat 16 (fld b 1 2), step := BitVec.ofNat 16 (fld b 3 2),
    rate := BitVec.ofNat 16 (fld b 5 2) }

/-- The hold of 11 bytes. -/
def holdOf (b : List Byte) : Hold :=
  { id := fld b 0 2, source := if fld b 2 1 == 1 then none else some (fld b 3 2), first := fld b 5 2, last := fld b 7 2,
    placedOn := fld b 9 2 }

/-- `n` items of `len` bytes each. -/
def itemsOf (f : List Byte → α) (len : Nat) : Nat → List Byte → List α
  | 0, _ => []
  | n + 1, bs => f (bs.take len) :: itemsOf f len n (bs.drop len)

/-- What a settings block holds; none when its CRC-32 or its settings marker is wrong (R159, R166). -/
def parseStored (b : Block) : Option Stored :=
  if (crc32 (b.take 4092)).toNat == fld b 4092 4 && fld b 0 8 == Config.settingsMarker.toNat then
    some
      { settings := settingsOf (slice b 8 12)
        marker := BitVec.ofNat 128 (fld b 20 16)
        day := fld b 36 2
        table := itemsOf retentionOf 5 8 (slice b 38 40)
        bank0 := itemsOf tariffOf 7 64 (slice b 78 448)
        bank1 := itemsOf tariffOf 7 64 (slice b 526 448)
        active := fld b 974 1
        holds := itemsOf holdOf 11 (min (fld b 975 1) 64) (slice b 976 704)
        floor := { index := fld b 1680 8, value := BitVec.ofNat 64 (fld b 1688 8) }
        serial := fld b 1696 4
        j := fld b 1700 1
        readPtr := fld b 1701 8 }
  else none

end Sys2Proof.Machine
end

