-- ==== Sys2Proof/Machine/Coding.lean ====
section
/-! DEFINITION. The record coder and the decoder (chapter 4). The fields, forms and lengths of a coded record are the spec's
(R62, R63); which bit of the 2-byte mask each flag takes is this model's choice (entry 9). -/

namespace Sys2Proof.Machine

/-- The zero record (R61). -/
def zeroRecord : List Byte := kindC :: zeros 13 ++ List.replicate 16 0xFF ++ zeros 10

/-! ### Phone numbers as nibbles (12.1, R63) -/

/-- The nibbles of bytes, high half first. -/
def nibbles (bs : List Byte) : List Nat := bs.flatMap fun b => [b.toNat / 16, b.toNat % 16]

/-- Two nibbles a byte, an odd last one padded with 0xF. -/
def packNibbles : List Nat → List Byte
  | [] => []
  | [h] => [BitVec.ofNat 8 (h * 16 + 15)]
  | h :: l :: rest => BitVec.ofNat 8 (h * 16 + l) :: packNibbles rest

/-- How many leading members two lists share. -/
def commonPrefix : List Nat → List Nat → Nat
  | x :: xs, y :: ys => if x == y then commonPrefix xs ys + 1 else 0
  | _, _ => 0

/-- A phone number against the reference's: nothing when all 16 nibbles agree; else the count of leading equal nibbles and the
others (R63). -/
def codeNumber (ref num : List Byte) : List Byte :=
  let n := commonPrefix (nibbles ref) (nibbles num)
  if 16 ≤ n then [] else BitVec.ofNat 8 n :: packNibbles ((nibbles num).drop n)

/-- A base-128 field, least significant group first, in at most `fuel` groups (R63). -/
def base128 : Nat → Nat → List Byte
  | 0, _ => []
  | fuel + 1, v => if v < 128 then [BitVec.ofNat 8 v] else BitVec.ofNat 8 (v % 128 + 128) :: base128 fuel (v / 128)

/-! ### The mask (4.3) -/

/-- The eleven flags of an entry's mask (4.3). -/
structure Mask where
  v : Bool := false
  q : Bool := false
  s1 : Bool := false
  s2 : Bool := false
  t : Bool := false
  e : Bool := false
  u : Bool := false
  a : Bool := false
  b : Bool := false
  r : Bool := false
  l : Bool := false
  deriving DecidableEq, Repr

/-- The mask as a number: V in bit 0, then in the order of 4.3's table to L in bit 10 (entry 9). -/
def Mask.code (m : Mask) : Nat :=
  bit m.v + 2 * bit m.q + 4 * bit m.s1 + 8 * bit m.s2 + 16 * bit m.t + 32 * bit m.e + 64 * bit m.u + 128 * bit m.a
    + 256 * bit m.b + 512 * bit m.r + 1024 * bit m.l

/-- The mask of a number; none when an unused bit is set, V stands with any other flag, or S1 stands with S2 (R64). -/
def Mask.ofCode (n : Nat) : Option Mask :=
  if 2048 ≤ n then none
  else if n.testBit 0 && n != 1 then none
  else if n.testBit 2 && n.testBit 3 then none
  else some
    { v := n.testBit 0, q := n.testBit 1, s1 := n.testBit 2, s2 := n.testBit 3, t := n.testBit 4, e := n.testBit 5,
      u := n.testBit 6, a := n.testBit 7, b := n.testBit 8, r := n.testBit 9, l := n.testBit 10 }

/-! ### Coding a record (R62, R63) -/

/-- Which fields of a record are present against its reference (R63). -/
def codeMask (ref r : List Byte) : Mask :=
  let diff := callStart r - callStart ref
  let near := 1 ≤ diff && diff ≤ 255
  { q := callSeq r != (callSeq ref + 1) % 4294967296
    s1 := callStart r != callStart ref && near
    s2 := callStart r != callStart ref && !near
    t := callTariff r != callTariff ref
    e := callService r != callService ref
    u := callCause r != callCause ref
    a := callCalling r != callCalling ref
    b := callCalled r != callCalled ref
    r := callRoute r != callRoute ref
    l := callCell r != callCell ref }

/-- Bytes when a flag is set. -/
def when (f : Bool) (bs : List Byte) : List Byte := if f then bs else []

/-- The body of a coded record, the fields in R63's order. -/
def codeFields (m : Mask) (ref r : List Byte) : List Byte :=
  when m.q (be 4 (callSeq r))
    ++ when m.s1 (be 1 (callStart r - callStart ref)) ++ when m.s2 (be 3 (callStart r))
    ++ when m.t (be 1 (callTariff r)) ++ when m.e (be 1 (callService r)) ++ when m.u (be 1 (callCause r))
    ++ base128 4 (callDuration r)
    ++ when m.a (codeNumber (callCalling ref) (callCalling r)) ++ when m.b (codeNumber (callCalled ref) (callCalled r))
    ++ when m.r (be 2 (callRoute r)) ++ when m.l (be 4 (callCell r))
    ++ base128 3 (callVolume r)

/-- A coded entry: mask and body (R62). -/
def codedEntry (ref r : List Byte) : List Byte := be 2 (codeMask ref r).code ++ codeFields (codeMask ref r) ref r

/-- A verbatim entry: the mask with V alone, and the record (R62). -/
def verbatimEntry (r : List Byte) : List Byte := be 2 1 ++ r

/-- The entry of a record: coded when its verdict is CALL_GOOD and its coded length is at most 42, else verbatim (R62). -/
def recordEntry (good : Bool) (ref r : List Byte) : List Byte :=
  if good && (codedEntry ref r).length ≤ 42 then codedEntry ref r else verbatimEntry r

/-! ### Decoding (R64) -/

/-- The first `n` bytes and the rest; none when there are fewer. -/
def takeN (n : Nat) (bs : List Byte) : Option (List Byte × List Byte) :=
  if n ≤ bs.length then some (bs.take n, bs.drop n) else none

/-- A field of `n` bytes when its flag is set, else the default. -/
def readField (f : Bool) (n : Nat) (dflt : Nat) (bs : List Byte) : Option (Nat × List Byte) :=
  if f then (takeN n bs).map fun p => (ofBE p.1, p.2) else some (dflt, bs)

/-- A base-128 field of at most `fuel` groups, in its fewest groups (R64). -/
def unbase128 : Nat → List Byte → Option (Nat × List Byte)
  | 0, _ => none
  | _ + 1, [] => none
  | fuel + 1, b :: bs =>
    if b.toNat < 128 then some (b.toNat, bs)
    else match unbase128 fuel bs with
      | none => none
      | some (v, rest) => if v == 0 then none else some (b.toNat - 128 + 128 * v, rest)

/-- A phone number: the reference's when its flag is clear; none for n above 15 or a pad nibble other than 0xF (R64). -/
def readNumber (f : Bool) (ref : List Byte) (bs : List Byte) : Option (List Byte × List Byte) :=
  if !f then some (ref, bs)
  else match bs with
    | [] => none
    | n :: bs =>
      if 15 < n.toNat then none
      else match takeN (ceilDiv (16 - n.toNat) 2) bs with
        | none => none
        | some (packed, rest) =>
          if n.toNat % 2 == 1 && (nibbles packed).getLast? != some 15 then none
          else some (packNibbles (((nibbles ref).take n.toNat) ++ (nibbles packed).take (16 - n.toNat)), rest)

/-- A call record from its fields, its CRC recomputed (R64). -/
def buildCall (tariff service cause seq start duration : Nat) (calling called : List Byte) (route cell vol : Nat) :
    List Byte :=
  let body := kindC :: be 1 tariff ++ be 1 service ++ be 1 cause ++ be 4 seq ++ be 3 start ++ be 3 duration ++ calling
    ++ called ++ be 2 route ++ be 4 cell ++ be 2 vol
  body ++ be 2 (crc16 body).toNat

/-- The record that a coded entry's body gives, and the bytes after it (R63, R64). -/
def decodeFields (m : Mask) (ref bs : List Byte) : Option (List Byte × List Byte) := do
  let (seq, bs) ← readField m.q 4 ((callSeq ref + 1) % 4294967296) bs
  let (near, bs) ← readField m.s1 1 0 bs
  let (start, bs) ← readField m.s2 3 (callStart ref + near) bs
  let (tariff, bs) ← readField m.t 1 (callTariff ref) bs
  let (service, bs) ← readField m.e 1 (callService ref) bs
  let (cause, bs) ← readField m.u 1 (callCause ref) bs
  let (duration, bs) ← unbase128 4 bs
  let (calling, bs) ← readNumber m.a (callCalling ref) bs
  let (called, bs) ← readNumber m.b (callCalled ref) bs
  let (route, bs) ← readField m.r 2 (callRoute ref) bs
  let (cell, bs) ← readField m.l 4 (callCell ref) bs
  let (vol, bs) ← unbase128 3 bs
  if 16777215 < duration then none
  else some (buildCall tariff service cause seq start duration calling called route cell vol, bs)

/-- The record of one entry, and the bytes after it (R64). -/
def decodeEntry (ref bs : List Byte) : Option (List Byte × List Byte) :=
  match takeN 2 bs with
  | none => none
  | some (mb, rest) =>
    match Mask.ofCode (ofBE mb) with
    | none => none
    | some m => if m.v then takeN 40 rest else decodeFields m ref rest

/-- `n` entries; none when one fails or bytes are left over (R64). -/
def decodeEntries : Nat → List Byte → List Byte → Option (List Byte)
  | 0, _, bs => if bs.isEmpty then some [] else none
  | n + 1, ref, bs =>
    match decodeEntry ref bs with
    | none => none
    | some (r, rest) => (decodeEntries n r rest).map (r ++ ·)

/-- The bytes that a CODED payload holds: lead bytes, records, tail bytes (R64, R65). -/
def decodeCoded (lead recs tail : Nat) (payload : List Byte) : Option (List Byte) :=
  if payload.length < lead + tail then none
  else
    let mid := slice payload lead (payload.length - lead - tail)
    (decodeEntries recs zeroRecord mid).map fun out => payload.take lead ++ out ++ payload.drop (payload.length - tail)

/-- The host blocks that a segment's payload holds (R64); none for a failure, and for a LOST segment. -/
def decodePayload (h : SegHeader) (payload : List Byte) : Option (List Block) :=
  match h.kind with
  | .coded =>
    if h.lead + 40 * h.recs + h.tail != 4096 * h.count then none
    else (decodeCoded h.lead h.recs h.tail payload).map (toBlocks h.count)
  | .raw => if payload.length != 4096 * h.count then none else some (toBlocks h.count payload)
  | .lost => none

/-- A stored segment checked against the volume and map entry it was fetched for, and decoded (R64); none is a failure of class
CHECK. -/
def decodeStored (window serial index : Nat) (e : MapEntry) (blocks : List Block) : Option (SegHeader × List Block) :=
  match parseSegment blocks.flatten with
  | none => none
  | some (h, payload) =>
    if h.window == window && h.serial == serial && h.index == index && h.first == e.first && h.count == e.count
        && h.kind == e.kind && h.payloadLen == payload.length then
      (decodePayload h payload).map fun bs => (h, bs)
    else none

end Sys2Proof.Machine
end

