-- ==== Sys2Proof/Machine/Framing.lean ====
section
/-! DEFINITION. The framer's work on one block (chapter 3): locating records, checking, counting and rating them, the running
totals and digest, and handing them to the coder. -/

namespace Sys2Proof.Machine

/-! ### Locating records (R42, R43) -/

/-- Whether some record start of the stream (carry and block) holds a kind other than 'C' or 'T' before the first 'T'
(R43). `skip` leaves out the first record: the carried one, or the header. -/
def lossScan : Nat → Bool → List Byte → Bool
  | 0, _, _ => false
  | _ + 1, _, [] => false
  | fuel + 1, skip, k :: bs =>
    if k == kindT then false
    else if skip || k == kindC then lossScan fuel false (bs.drop 39)
    else true

/-- The records that a stream completes, up to the trailer; then the bytes left, and whether a trailer was completed (R42,
R56). -/
def splitRecords : Nat → List Byte → List (List Byte) × List Byte × Bool
  | 0, bs => ([], bs, false)
  | fuel + 1, bs =>
    if bs.length < 40 then ([], bs, false)
    else if recKind bs == kindT then ([bs.take 40], bs.drop 40, true)
    else
      let r := splitRecords fuel (bs.drop 40)
      (bs.take 40 :: r.1, r.2.1, r.2.2)

/-! ### Rating (R51, R52) -/

/-- A tariff bank (R48). -/
def TariffUnit.bank (t : TariffUnit) (b : Nat) : List TariffEntry := if b == 0 then t.bank0 else t.bank1

/-- Charged seconds, the first case that applies (R52). -/
def chargedSeconds (g i s d : Nat) : Nat :=
  if d ≤ g then 0
  else if 0 < i then if d ≤ i then i else i + ceilDiv (d - i) s * s
  else ceilDiv d s * s

/-- The units of a rated record: ceil (cs * rate / 60) (R52). -/
def chargedUnits (e : TariffEntry) (d : Nat) : Nat :=
  ceilDiv (chargedSeconds e.grace.toNat e.initial.toNat e.step.toNat d * e.rate.toNat) 60

/-- The units of a good call record, none when it is left unrated: its class is above 63 or its entry's step is 0 (R51). -/
def rateRecord (bank : List TariffEntry) (cls d : Nat) : Option Nat :=
  match bank[cls]? with
  | none => none
  | some e => if 64 ≤ cls || e.step == 0 then none else some (chargedUnits e d)

/-! ### Checking and counting (R44 to R46, R53, R54) -/

/-- A good call record goes through sequence accounting (R45), rating and totals (R51 to R54). -/
def countGood (bank : List TariffEntry) (r : List Byte) (c : Ctx) : Ctx :=
  let q := callSeq r
  let k := { c.counts with calls := addCount c.counts.calls 1 }
  let (last, k) : Nat × Counts := match c.lastSeq with
    | none => (q, k)
    | some l =>
      if q ≤ l then (l, { k with disorder := addCount k.disorder 1 })
      else (q, { k with gaps := addCount k.gaps (q - l - 1) })
  let rated := rateRecord bank (callTariff r) (callDuration r)
  let k := { k with
    unrated := if rated.isNone then addCount k.unrated 1 else k.unrated
    duration := addTotal k.duration (callDuration r)
    units := addTotal k.units (rated.getD 0)
    volume := addTotal k.volume (callVolume r) }
  { c with lastSeq := some last, counts := k, overflow := c.overflow || k.atLimit }

/-- A completed call record is counted and checked (R44). -/
def countCall (bank : List TariffEntry) (r : List Byte) (c : Ctx) : Ctx :=
  if recCrcGood r then countGood bank r c
  else { c with counts := { c.counts with calls := addCount c.counts.calls 1, bad := addCount c.counts.bad 1 } }

/-! ### Handing records to the coder (R58, R62, R65) -/

/-- A record entry joins the open segment and the record becomes the reference (R61, R62). -/
def codeRecord (good : Bool) (r : List Byte) (c : Ctx) : Ctx :=
  { c with
    seg := { c.seg with payload := c.seg.payload ++ recordEntry good c.reference r, recs := c.seg.recs + 1 }
    reference := r }

/-- The lead bytes that complete a record begun before the segment are stored raw (R65). -/
def storeLead (lead : List Byte) (c : Ctx) : Ctx :=
  { c with seg := { c.seg with payload := c.seg.payload ++ lead, lead := lead.length } }

/-- A completed record with its verdict: the header is neither checked, counted nor rated (R42); a trailer sets the trailer
totals (R56); a call record is counted (R44). -/
def frameRecord (bank : List TariffEntry) (header : Bool) (r : List Byte) (c : Ctx) : Ctx :=
  if header then c
  else if recKind r == kindT then { c with trailer := some (trailerTotals r), framer := .afterTrailer }
  else countCall bank r c

/-- The record may be coded: its verdict is CALL_GOOD (R58). -/
def mayCode (header : Bool) (r : List Byte) : Bool := !header && recKind r != kindT && recCrcGood r

/-- All records of a block but the split one, in stream order. -/
def frameRecords (bank : List TariffEntry) : List (List Byte) → Ctx → Ctx
  | [], c => c
  | r :: rs, c => frameRecords bank rs (codeRecord (mayCode false r) r (frameRecord bank false r c))

/-- A block in IN_CALLS that is no framing-loss block: records located, checked, counted, rated and coded, the carry replaced,
the digest run, the open segment one block longer (R41, R42, R55, R58). Records are placed behind the carry, which is R42's place in
the stream but behind a RAW segment that was lost (entry 57). -/
def takeCalls (bank : List TariffEntry) (block : Block) (c : Ctx) : Ctx :=
  let header := !c.headerTaken
  let p := splitRecords 104 (c.carry ++ block)
  let c1 := match p.1 with
    | [] => c
    | r :: rs =>
      let c0 := frameRecord bank header r c
      let c0 := if c.seg.blocks == 0 && !c.carry.isEmpty then storeLead (block.take (40 - c.carry.length)) c0
        else codeRecord (mayCode header r) r c0
      frameRecords bank rs c0
  { c1 with
    headerTaken := true
    carry := if p.2.2 then [] else p.2.1
    afterTrailer := if p.2.2 then p.2.1 else []
    digest := crc64Run c.digest block
    seg := { c1.seg with blocks := c1.seg.blocks + 1 } }

/-- A block taken in RAW joins the digest and goes whole into the RAW segment (R47). -/
def takeRaw (block : Block) (c : Ctx) : Ctx :=
  { c with
    headerTaken := true
    digest := crc64Run c.digest block
    seg := { c.seg with payload := c.seg.payload ++ block, blocks := c.seg.blocks + 1 } }

/-- Framing is lost: the framer becomes RAW, the carry empty, and the open segment, which covers no block, RAW (R47). -/
def loseFraming (c : Ctx) : Ctx := { c with framer := .raw, carry := [], seg := { c.seg with kind := .raw } }

/-- Block 0's header is that of the volume (R5, R170: identity and retention class). -/
def headerFits (v : Volume) (block : Block) : Bool :=
  let r := block.take 40
  validHeader r && headerSource r == v.source && headerDay r == v.day && headerGen r == v.gen && headerClass r == v.cls

/-- The block at the ingest point is a framing-loss block (R43), or a block 0 without the volume's header (R170). -/
def isLossBlock (v : Volume) (c : Ctx) (block : Block) : Bool :=
  if c.headerTaken then lossScan 104 (!c.carry.isEmpty) (c.carry ++ block)
  else !headerFits v block || lossScan 104 true block

/-! ### The open segment (R65 to R67, R72) -/

/-- The fill of the open segment: its payload, and the carry when the carried record began within it (R67). -/
def Ctx.fill (c : Ctx) : Nat := c.seg.payload.length + (if c.seg.blocks == 0 then 0 else c.carry.length)

/-- The tail bytes that a close takes (R65): the carry, or the bytes after the trailer. -/
def Ctx.tailBytes (c : Ctx) : List Byte :=
  match c.seg.kind with
  | .coded => if c.framer == .afterTrailer then c.afterTrailer else c.carry
  | _ => []

/-- The payload as a close seals it (R65, R66). -/
def Ctx.sealedPayload (c : Ctx) : List Byte := c.seg.payload ++ c.tailBytes

/-- The stored length that the open segment would take if closed now (R73). -/
def Ctx.sealLen (c : Ctx) : Nat := storedLen c.seg.kind c.seg.blocks c.sealedPayload.length

/-- The running state for a header (R72). -/
def Ctx.run (c : Ctx) : RunState :=
  { lastSeq := c.lastSeq, counts := c.counts, trailerSeen := c.framer == .afterTrailer, digest := c.digest, bank := c.bank }

/-- The blocks that the open segment may cover at most (R68). -/
def OpenSeg.limit (g : OpenSeg) : Nat :=
  match g.kind with
  | .raw => 15
  | _ => 256

/-- The block admission reserve calls for a close before the next block (R67: 65,408 and 4,326). -/
def Ctx.reserveShort (c : Ctx) : Bool := c.seg.kind == .coded && 65408 < c.fill + 4326

/-- The block-limit close is due (R68). -/
def Ctx.atBlockLimit (c : Ctx) : Bool := c.seg.limit ≤ c.seg.blocks

/-- The blocks of an open segment, rebuilt from its buffer (R99). -/
def Ctx.openBlocks (c : Ctx) : List Block :=
  match c.seg.kind with
  | .coded =>
    toBlocks c.seg.blocks ((decodeCoded c.seg.lead c.seg.recs c.tailBytes.length c.sealedPayload).getD [])
  | _ => toBlocks c.seg.blocks c.seg.payload

/-- A fresh open segment (R60, R71). -/
def freshSeg (index first : Nat) (f : FramerState) : OpenSeg :=
  { index, first, kind := if f == .raw then .raw else .coded }

end Sys2Proof.Machine
end

