-- ==== Sys2Proof/Machine/Ops.lean ====
section
/-! DEFINITION. The named operations over the state that every family of commands uses: looking records up, changing one
record, sending a message, completing a client request. -/

namespace Sys2Proof.Machine

/-! ### Lookups -/

/-- The record of a window; none for a FREE window (R1). -/
def State.vol (s : State) (w : Nat) : Option Volume := s.vols.find? (·.window == w)

/-- The volume that carries a serial (R3: no two do). -/
def State.volOf (s : State) (serial : Nat) : Option Volume := s.vols.find? (·.serial == serial)

/-- The ingest context of a window's volume (R39). -/
def State.ctx (s : State) (w : Nat) : Option Ctx := s.ctxs.find? (·.window == w)

/-- The tag table entry of a tag (2.3). -/
def State.tag (s : State) (t : Nat) : Option TagEntry := s.client.tags.find? (·.tag == t)

/-- The pending list of the volume with a serial, in index order (R74). -/
def State.pendOf (s : State) (serial : Nat) : List PendSeg := s.pend.filter (·.hdr.serial == serial)

/-- The pending segment of a serial and index (R74). -/
def State.pendSeg (s : State) (serial index : Nat) : Option PendSeg :=
  s.pend.find? fun p => p.hdr.serial == serial && p.hdr.index == index

/-- The store request table entry of a store tag (R90). -/
def State.entry (s : State) (t : Nat) : Option StoreEntry := s.port.table.find? (·.tag == t)

/-- Start-up runs (11.5). -/
def State.starting (s : State) : Bool := s.startup.isSome

/-- HALTED (R161). -/
def State.isHalted (s : State) : Bool := s.halted.isSome

/-- Neither HALTED nor running start-up. -/
def State.running (s : State) : Bool := !s.isHalted && !s.starting

/-- The store link is DOWN and the working link-loss mode is FAIL (R36). -/
def State.lossFail (s : State) : Bool := !s.port.up && s.set.work.linkLoss == .fail

/-! ### Changes of one record -/

/-- Change the record of a window. -/
def State.modVol (w : Nat) (f : Volume → Volume) (s : State) : State :=
  { s with vols := s.vols.map fun v => if v.window == w then f v else v }

/-- Insert by a key, keeping ascending order. -/
def insertBy (key : α → Nat) (x : α) : List α → List α
  | [] => [x]
  | y :: ys => if key x < key y then x :: y :: ys else y :: insertBy key x ys

/-- Give a FREE window a record. -/
def State.addVol (v : Volume) (s : State) : State := { s with vols := insertBy (·.window) v s.vols }

/-- Make a window FREE: its fields are gone (R1, R126 step 7). -/
def State.dropVol (w : Nat) (s : State) : State := { s with vols := s.vols.filter (·.window != w) }

/-- Change the ingest context of a window's volume. -/
def State.modCtx (w : Nat) (f : Ctx → Ctx) (s : State) : State :=
  { s with ctxs := s.ctxs.map fun c => if c.window == w then f c else c }

/-- Release the ingest context of a window's volume (R12, R39). -/
def State.dropCtx (w : Nat) (s : State) : State := { s with ctxs := s.ctxs.filter (·.window != w) }

/-- Change the tag table entry of a tag. -/
def State.modTag (t : Nat) (f : TagEntry → TagEntry) (s : State) : State :=
  { s with client := { s.client with tags := s.client.tags.map fun e => if e.tag == t then f e else e } }

/-- Create a tag table entry (R23). -/
def State.addTag (e : TagEntry) (s : State) : State :=
  { s with client := { s.client with tags := insertBy (·.tag) e s.client.tags } }

/-- Change the pending segment of a serial and index. -/
def State.modPend (serial index : Nat) (f : PendSeg → PendSeg) (s : State) : State :=
  { s with pend := s.pend.map fun p => if p.hdr.serial == serial && p.hdr.index == index then f p else p }

/-- Remove the pending segment of a serial and index. -/
def State.dropPend (serial index : Nat) (s : State) : State :=
  { s with pend := s.pend.filter fun p => !(p.hdr.serial == serial && p.hdr.index == index) }

/-! ### Messages and completions -/

/-- Send a message (2.1). -/
def State.send (m : Msg) (s : State) : State := { s with sent := s.sent ++ [m] }

/-- Ask the store port for a request: it joins the tail of its class queue (R91). -/
def State.enqueue (r : StoreReq) (s : State) : State := { s with port := { s.port with queue := s.port.queue ++ [r] } }

/-- Take queued requests back (R91). -/
def State.withdraw (p : StoreUser → Bool) (s : State) : State :=
  { s with port := { s.port with queue := s.port.queue.filter fun r => !p r.user } }

/-- Mark issued requests so that their completions are discarded (R86, R109). -/
def State.disown (p : StoreUser → Bool) (s : State) : State :=
  { s with port := { s.port with table := s.port.table.map fun (e : StoreEntry) => if p e.req.user then { e with discard := true } else e } }

/-- A read leaves the waiters of a cache entry (R109). -/
def FetchState.without (t : Nat) : FetchState → FetchState
  | .fetching a f ws => .fetching a f (ws.filter (· != t))
  | st => st

/-- The journal read of a tag. -/
def isJournalReadOf (t : Nat) : StoreUser → Bool
  | .journalRead t' _ => t' == t
  | _ => false

/-- A SYNC leaves the waiters of a journal block write (R35, R147). -/
def JournalWrite.without (t : Nat) (w : JournalWrite) : JournalWrite :=
  { w with
    waiters := w.waiters.filter (· != .sync t)
    gathered := w.gathered.map fun g => (g.1, g.2.filter (· != .sync t)) }

/-- A client request ends: its entry goes (R23), DATA waiting on the link for it is discarded (R21), its RESERVED slots become
FREE (R28), it leaves the waiters of every fetch (R109) and journal write (R35), and its own journal read is withdrawn or
disowned (R91). -/
def State.dropTag (t : Nat) (s : State) : State :=
  let s := { s with
    jr := { s.jr with writes := s.jr.writes.map (JournalWrite.without t) }
    client := { s.client with
      tags := s.client.tags.filter (·.tag != t)
      linkData := s.client.linkData.filter (·.tag != t)
      slots := s.client.slots.filter fun x => !(x.tag == t && x.data.isNone) }
    rd := { s.rd with
      cache := s.rd.cache.map (fun (e : CacheEntry) => { e with st := e.st.without t })
      roomWait := s.rd.roomWait.filter (· != t) } }
  (s.withdraw (isJournalReadOf t)).disown (isJournalReadOf t)

/-- Complete a client request: its entry is removed and the completion sent (R23). -/
def State.complete (t : Nat) (st : Status) (r : Option Reason) (field : Nat) (s : State) : State :=
  (s.dropTag t).send (.completion t st r field)

/-- Complete a client request that has no reason and no block field. -/
def State.finish (t : Nat) (st : Status) (s : State) : State := s.complete t st none 0

/-- Complete a client request REFUSED. -/
def State.refuse (t : Nat) (r : Reason) (s : State) : State := s.complete t .refused (some r) 0

/-- Answer a directive while a completion is owed; after a loss of the client link none is sent (R22, R153). A command that no
dispatch put there is answered at its tag and touches no other request's entry (entry 5). -/
def State.answer (o : Option Nat) (st : Status) (r : Option Reason) (s : State) : State :=
  match o with
  | none => s
  | some t => if (s.tag t).any (·.phase == .directive) then s.complete t st r 0 else s.send (.completion t st r 0)

/-- A settings waiter whose directive gets no completion any more (R22, R36, R161). -/
def SetWaiter.mute : SetWaiter → SetWaiter
  | .directive _ => .directive none
  | .calendar _ r => .calendar none r
  | w => w

/-- A catalogue waiter whose directive gets no completion any more (R22, R36, R161). -/
def CatWaiter.mute : CatWaiter → CatWaiter
  | .resume _ => .resume none
  | w => w

/-- No directive that waits on a settings or catalogue write is owed a completion any more (R36). -/
def State.muteWaiters (s : State) : State :=
  { s with set := { s.set with
      write := s.set.write.map fun (w : SettingsWrite) => { w with waiters := w.waiters.map SetWaiter.mute }
      gathered := s.set.gathered.map fun ws => ws.map SetWaiter.mute
      catWrites := s.set.catWrites.map fun (c : CatWrite) =>
        { c with
          waiters := c.waiters.map CatWaiter.mute
          gathered := c.gathered.map fun ws => ws.map CatWaiter.mute } } }

/-- No directive, dispatched or waiting, is owed a completion any more (R22, R161). -/
def State.muteDirectives (s : State) : State :=
  let s := s.muteWaiters
  { s with client := { s.client with
      dispatched := s.client.dispatched.map fun (d : Dispatched) => { d with owed := false } } }

/-- Apply `f` for each member of a list, first to last. -/
def each (f : α → State → State) : List α → State → State
  | [], s => s
  | x :: xs, s => each f xs (f x s)

/-! ### Latched attention items (R163) -/

/-- VOLUME_STALLED is set (R10). -/
def State.setStalled (s : State) : State := { s with latched := { s.latched with volumeStalled := true } }

/-- DISCREPANT_CLOSE is set (R130). -/
def State.setDiscrepant (s : State) : State := { s with latched := { s.latched with discrepantClose := true } }

/-- DAMAGE_FOUND is set (R77, R105, R137). -/
def State.setDamage (s : State) : State := { s with latched := { s.latched with damageFound := true } }

/-- STORE_FAULT is set (R93, R104, R136). -/
def State.setStoreFault (s : State) : State := { s with latched := { s.latched with storeFault := true } }

/-- EXPIRY_BLOCKED is set (R119). -/
def State.setBlocked (s : State) : State := { s with latched := { s.latched with expiryBlocked := true } }

end Sys2Proof.Machine
end

