-- ==== Sys2Proof/Machine/Journal.lean ====
section
/-! DEFINITION. The journal unit (chapter 9): the free count and JOURNAL_FULL, appending an entry, handing over block writes,
the wait list and the read pointer. Taking an entry onto the journal is one operation, `State.append`. -/

namespace Sys2Proof.Machine

/-- N, the ring's length in blocks (9.1). -/
def State.ringLen (s : State) : Nat := s.alloc.j * 4096

/-- The free count N - (H - R + 1) (R150). -/
def State.journalFree (s : State) : Nat := s.ringLen + s.jr.readPtr - (s.jr.head + 1)

/-- JOURNAL_FULL holds (R150); it is judged once phase 7 has set the journal unit (R163). -/
def State.journalFull (s : State) : Bool := s.jr.ready && s.journalFree == 0

/-- JOURNAL_HIGH holds (R150). -/
def State.journalIsHigh (s : State) : Bool := s.jr.ready && s.journalFree < s.set.work.journalHigh

/-- The ring position of the block in the journal buffer (R145). -/
def State.headRing (s : State) : Nat := s.jr.head % s.ringLen

/-- The store request of a journal block write (R147). -/
def journalReq (ring : Nat) (content : Block) : StoreReq :=
  { cls := 1, user := .journal ring, op := .write, block := 4096 + ring, count := 1, data := [content] }

/-- A journal block write is called for: handed over, or gathered behind the outstanding write of the same ring block (R147).
No journal write is handed over while the part is HALTED (R148). -/
def State.callJournal (ring : Nat) (content : Block) (ws : List JournalWaiter) (s : State) : State :=
  if s.isHalted then s
  else if s.jr.writes.any (·.ring == ring) then
    { s with jr := { s.jr with writes := s.jr.writes.map fun w =>
        if w.ring == ring then
          { w with gathered := some (content, (match w.gathered with | some (_, old) => old | none => []) ++ ws) }
        else w } }
  else
    State.enqueue (journalReq ring content)
      { s with jr := { s.jr with writes := s.jr.writes ++ [{ ring, content, waiters := ws }] } }

/-- The newest content that a ring block's write record holds: that of the write gathered behind it, when there is one (R147,
R148). -/
def JournalWrite.newest (w : JournalWrite) : Block :=
  match w.gathered with
  | none => w.content
  | some g => g.1

/-- The write of a ring block will not go out: the part is HALTED and its request still waits for a slot (R91, R148). -/
def State.heldBack (ring : Nat) (s : State) : Bool := s.isHalted && s.port.queue.any fun r => r.user == .journal ring

/-- A read that waits for the write of a ring block that will not go out waits no longer: its next SERVE_BLOCK is served from the
journal unit (R148, R162). -/
def State.wakeHeldBack (s : State) : State :=
  { s with client := { s.client with tags := s.client.tags.map fun (e : TagEntry) =>
      match e.wait with
      | .journalWrite ring => if s.heldBack ring then { e with wait := .idle } else e
      | _ => e } }

/-- The buffer passes to the next block (R146 step 1): a FILLER where 16 bytes or more remain, the write of the block unless it
was already complete, a fresh block. -/
def State.passBlock (s : State) : State :=
  let b := s.jr.buf
  let rest := 4096 - b.used
  let b' := if 16 ≤ rest then { b with body := b.body ++ fillerBytes rest s.ret.day } else b
  let s := if b.complete then s else s.callJournal s.headRing (renderJournal s.jr.head b') []
  { s with jr := { s.jr with head := s.jr.head + 1, buf := { firstSeq := s.jr.nextSeq } } }

/-- The entry fits in the block that the buffer holds (R146). -/
def State.fits (a : Append) (s : State) : Bool :=
  !s.jr.buf.complete && s.jr.buf.used + entryLen a.body ≤ 4096

/-- The entry takes the next entry sequence and the archive day and is placed at the bytes used (R146 step 2). -/
def State.placeEntry (a : Append) (s : State) : State :=
  let b := s.jr.buf
  { s with jr := { s.jr with
      buf := { b with count := b.count + 1, body := b.body ++ entryBytes a.code s.jr.nextSeq s.ret.day a.body }
      nextSeq := s.jr.nextSeq + 1 } }

/-- A sweep begins with the given sweep day and CALENDAR reference (R117). -/
def State.beginSweep (day ref : Nat) (s : State) : State := { s with ret := { s.ret with sweep := some { day, ref } } }

/-- A sweep ends; the waiting request begins its sweep (R117, R119). -/
def State.endSweep (s : State) : State :=
  match s.ret.sweepNext with
  | none => { s with ret := { s.ret with sweep := none } }
  | some (day, ref) => ({ s with ret := { s.ret with sweepNext := none } }).beginSweep day ref

/-- What the appender of an entry does at the moment of the append (R149): a close ends (R12), a sweep ends (R119), a
verification ends (R139, R142). -/
def State.release (who : Appender) (s : State) : State :=
  match who with
  | .nobody => s
  | .purge => s
  | .supersede _ _ => s
  | .close w _ => (s.modVol w fun v => { v with state := .closed }).dropCtx w
  | .sweep => s.endSweep
  | .patrol => { s with audit := { s.audit with patrol := { s.audit.patrol with entryWaits := false } } }
  | .verification =>
    let s' := { s with audit := { s.audit with current := none } }
    match s.audit.current with
    | none => s'
    | some c => s'.modVol c.window fun v => if v.serial == c.serial then { v with verifying := false } else v

/-- What waits for the forced write of an entry: step 6 of the reclaim waits for its PURGE entry's (R126, R147). -/
def Append.waiters (a : Append) : List JournalWaiter := if a.who == .purge then [.purge] else []

/-- An entry is appended at once (R146), with its forced write (R147) and the release of its appender (R149). -/
def State.appendNow (a : Append) (s : State) : State :=
  let s := if s.fits a then s else s.passBlock
  let s := s.placeEntry a
  let s := if a.forced then s.callJournal s.headRing (renderJournal s.jr.head s.jr.buf) a.waiters else s
  s.release a.who

/-- An entry can be appended now: JOURNAL_FULL does not hold, and while the part is HALTED no block has to be written for it (R146,
R148). It fits in the block; or the buffer still holds the complete block that start-up loaded, from which it passes on without a write
(R151): R148 keeps back only an entry that does not fit (DEDUCED, entry 45). -/
def State.canAppend (a : Append) (s : State) : Bool := !s.journalFull && (!s.isHalted || s.jr.buf.complete || s.fits a)

/-- An append: at once, or at the tail of the wait list (R146). -/
def State.append (a : Append) (s : State) : State :=
  if s.jr.waitList.isEmpty && s.canAppend a then s.appendNow a
  else { s with jr := { s.jr with waitList := s.jr.waitList ++ [a] } }

/-- The wait list is worked from its head until it is empty or its head cannot be appended (R149). -/
def State.drainList : List Append → State → State
  | [], s => s
  | a :: rest, s =>
    if s.canAppend a then drainList rest (State.appendNow a { s with jr := { s.jr with waitList := rest } })
    else { s with jr := { s.jr with waitList := a :: rest } }

/-- JOURNAL_FULL may have ceased: the wait list is worked (R149). -/
def State.drain (s : State) : State := State.drainList s.jr.waitList s

/-- A ring block is served to a read of window 4095: at the read pointer, the pointer advances by one (R150). -/
def State.advancePointer (ring : Nat) (s : State) : State :=
  if s.jr.readPtr ≤ s.jr.head && s.jr.readPtr % s.ringLen == ring then
    State.drain { s with jr := { s.jr with readPtr := s.jr.readPtr + 1 } }
  else s

/-- A FAULT entry is appended with a forced write (R77, R93, R104, R105, R136). -/
def State.appendFault (f : FaultInfo) (s : State) : State :=
  s.append { code := 0x000C, body := faultBody f, forced := true }

end Sys2Proof.Machine
end

