-- ==== Sys2Proof/Machine/Writes.lean ====
section
/-! DEFINITION. Calling for the fixed-place writes of the settings block (R160) and of catalogue blocks (R17): one outstanding
write each, calls made meanwhile gathered into one further write. -/

namespace Sys2Proof.Machine

/-! ### The settings block -/

/-- What the settings block holds if its write is handed over now (R159). -/
def State.stored (s : State) : Stored :=
  { settings := s.set.image, marker := s.set.imageMarker, day := s.ret.day, table := s.ret.table, bank0 := s.tariff.bank0,
    bank1 := s.tariff.bank1, active := s.tariff.active, holds := s.ret.holds, floor := s.audit.floor,
    serial := s.serialCounter, j := s.alloc.j, readPtr := s.jr.readPtr }

/-- The store request of a settings block write (R160). -/
def settingsReq (bytes : Block) : StoreReq :=
  { cls := 1, user := .settings, op := .write, block := 0, count := 1, data := [bytes] }

/-- A settings block write is handed over, carrying the block as it now stands and answering `ws` (R159, R160). -/
def State.handSettings (ws : List SetWaiter) (s : State) : State :=
  let bytes := storedBlock s.stored
  State.enqueue (settingsReq bytes)
    { s with set := { s.set with
        write := some { settings := s.set.image, marker := s.set.imageMarker, day := s.ret.day, bytes, waiters := ws }
        gathered := none } }

/-- A settings block write is called for (R160): handed over, or gathered behind the outstanding one; while the part is HALTED
none is handed over and the call is only gathered. -/
def State.callSettings (w : SetWaiter) (s : State) : State :=
  if s.set.write.isSome || s.isHalted then
    { s with set := { s.set with gathered := some ((s.set.gathered.getD []) ++ [w]) } }
  else s.handSettings [w]

/-! ### The catalogue -/

/-- The catalogue block that holds a window's record: 1 + floor (w / 16) (1.8). -/
def catBlockOf (w : Nat) : Nat := 1 + w / 16

/-- The record of a CLOSING volume before step 3 of its close as a catalogue write stores it: the audit state, the flags, the
totals, the digest and the chain link of step 2 reach the store with the write of step 3, so that no link given out stands in
the store before it (R16, R130, R133; entry 38). -/
def unclosedImage (v : Volume) : Volume := { v with audit := .pending, flags := none, counts := {}, digest := none, chain := none }

/-- The record that the catalogue copy holds for a window: the volume table's (R16), but CLOSED from step 3 of a close on
(R12, R13) and without step 2's verdict before it, and FREE from step 6 of a reclaim on (R126). -/
def State.catImage (s : State) (w : Nat) : Option Volume :=
  match s.vol w with
  | none => none
  | some v =>
    if s.ret.reclaim.any (fun r => r.window == w && r.freeIssued) then none
    else if (s.ctx w).any (fun c => c.close.any fun k => k.stage == .writing || k.stage == .journal) then
      some { v with state := .closed }
    else if v.state == .closing then some (unclosedImage v)
    else some v

/-- The records of `n` consecutive windows from `w`; the slot of window 4095 is zeros (1.8). -/
def State.catRecords (s : State) : Nat → Nat → List Byte
  | 0, _ => []
  | n + 1, w => (if w == 4095 then zeros 256 else catRecordBytes (s.catImage w)) ++ s.catRecords n (w + 1)

/-- A catalogue block, 1 to 256, as it now stands (1.8, R17). -/
def State.catBlock (s : State) (block : Nat) : Block := s.catRecords 16 (16 * (block - 1))

/-- The store request of a catalogue block write (R17). -/
def catReq (block : Nat) (bytes : Block) : StoreReq :=
  { cls := 1, user := .catalogue block, op := .write, block := block, count := 1, data := [bytes] }

/-- A catalogue block write is handed over with the block as it now stands (R17). -/
def State.handCatalogue (block : Nat) (ws : List CatWaiter) (s : State) : State :=
  let bytes := s.catBlock block
  State.enqueue (catReq block bytes)
    { s with set := { s.set with catWrites := s.set.catWrites ++ [{ block, bytes, waiters := ws }] } }

/-- A window's catalogue record is rewritten (R17): its block's write is handed over, or the change is gathered behind the
outstanding write of that block. -/
def State.callCatalogue (w : Nat) (ws : List CatWaiter) (s : State) : State :=
  let block := catBlockOf w
  if s.set.catWrites.any (·.block == block) then
    { s with set := { s.set with catWrites := s.set.catWrites.map fun (c : CatWrite) =>
        if c.block == block then { c with gathered := some ((c.gathered.getD []) ++ ws) } else c } }
  else s.handCatalogue block ws

/-- The record changes and its catalogue record is rewritten (R17). -/
def State.rewriteVol (w : Nat) (f : Volume → Volume) (ws : List CatWaiter) (s : State) : State :=
  (s.modVol w f).callCatalogue w ws

/-- The wait for an EXPIRING record of a volume that left the reclaim queue is over (R121, R106). -/
def dropExpiring (w serial : Nat) (xs : List CatWaiter) : List CatWaiter := xs.filter (· != .expiring w serial)

/-- A volume leaves the reclaim queue and returns to CLOSED, its catalogue record rewritten (R106, R121, R123). -/
def State.unexpire (w serial : Nat) (f : Volume → Volume) (s : State) : State :=
  let s := { s with
    ret := { s.ret with queue := s.ret.queue.filter fun q => !(q.window == w && q.serial == serial) }
    set := { s.set with catWrites := s.set.catWrites.map fun (c : CatWrite) =>
      { c with waiters := dropExpiring w serial c.waiters, gathered := c.gathered.map (dropExpiring w serial) } } }
  s.rewriteVol w (fun v => { f v with state := .closed }) []

end Sys2Proof.Machine
end

