-- ==== Sys2Proof/Machine/Halt.lean ====
section
/-! DEFINITION. The double fault and the HALTED state (R161, R162, R37). -/

namespace Sys2Proof.Machine

/-- The halt answers this entry (R37, R161): every write, SYNC and directive, and a read of an OPEN, SUSPENDED or CLOSING
volume. -/
def State.haltAnswers (e : TagEntry) (s : State) : Bool :=
  match e.phase with
  | .serving =>
    match e.serial with
    | none => false
    | some n => (s.volOf n).any fun v => v.state == .opened || v.state == .suspended || v.state == .closing
  | _ => true

/-- One outstanding client request at the halt (R37). -/
def haltEntry (e : TagEntry) (s : State) : State := if s.haltAnswers e then s.finish e.tag .halted else s

/-- Start-up has not yet built the segment map (R162). -/
def StartPhase.early : StartPhase → Bool
  | .capacity => true
  | .settings => true
  | .format => true
  | .catalogue => true
  | .scan => true
  | .journal => false
  | .finish => false

/-- The operation that waits for this entry stops at a halt and its entry is never appended: a close (R13), a sweep (R119), the
verification in progress (R144), a reclaim at step 5 (R127); and the SUPERSEDE entries that would follow a CLOSE entry not appended
(R12). The patrol's VERIFY entry stays on the list, and may still be appended: its verdict was reached before the halt, R144 stops the
verification in progress and R162 the patrol's turns, and neither speaks of this entry (DESIGN CHOICE, entry 64). -/
def stopsAtHalt (waiting : List Append) (a : Append) : Bool :=
  match a.who with
  | .close _ _ => true
  | .supersede w serial => waiting.any (·.who == .close w serial)
  | .sweep => true
  | .verification => true
  | .purge => true
  | .patrol => false
  | .nobody => false

/-- The part becomes HALTED with a fault reason (R161, R162): the image takes the working values again (R155), a running
start-up goes no further, closes, sweeps, the verification in progress and reclaims stop with the entries they wait for (R13, R119,
R127, R144; entry 24; the patrol's entry stays, entry 64), reads of the journal go on (R148), outstanding requests are answered (R37). A verification read that waits in its
queue stays there, and a STORE_GRANT still issues it, though R144 says that the audit unit makes none; its outcome is dropped (DESIGN
CHOICE, entry 59). A start-up fault before phase 6, of another class than GEOMETRY too, leaves the part without a FILLING zone: the zone
table is not built and R162 ends start-up there, though R81 excepts only a running start-up and GEOMETRY (DESIGN CHOICE, entry 60). -/
def State.enterHalted (cls : FaultClass) (s : State) : State :=
  let s := { s with
    halted := some cls
    haltedEarly := s.startup.any fun (u : Startup) => u.phase.early
    startup := none
    set := { s.set with image := s.set.work, imageMarker := s.set.workMarker }
    ret := { s.ret with sweep := none, sweepNext := none }
    jr := { s.jr with waitList := s.jr.waitList.filter fun a => !stopsAtHalt s.jr.waitList a } }
  let s := s.wakeHeldBack
  (each haltEntry s.client.tags s).muteDirectives

/-- A double fault (R161): the part becomes HALTED and a FAULT entry DOUBLE is appended without a forced write. `vol` and `seg`
name the segment of a LOST marker. -/
def State.doubleFault (cls : FaultClass) (kind : WriteKind) (block : Nat) (vol : Option (Nat × Nat))
    (seg : Option (Nat × Nat × Nat)) (s : State) : State :=
  if s.isHalted then s
  else
    (s.enterHalted cls).append
      { code := 0x000C, body := faultBody { kind := .double, cls, vol, seg, write := some (kind, block) } }

end Sys2Proof.Machine
end

