-- ==== Sys2Proof/Machine/Zones.lean ====
section
/-! DEFINITION. The zone allocator (chapter 5): placing a segment in the filling zone, ending a zone, settling placements,
freeing a zone, and the waiting list's conditions. -/

namespace Sys2Proof.Machine

/-- The FILLING zone (R81). -/
def Alloc.filling (a : Alloc) : Option Zone := a.zones.find? (·.filling)

/-- A FILLING or FULL zone by its number. -/
def Alloc.zone (a : Alloc) (n : Nat) : Option Zone := a.zones.find? (·.zone == n)

/-- Change the table entry of a zone. -/
def Alloc.modZone (n : Nat) (f : Zone → Zone) (a : Alloc) : Alloc :=
  { a with zones := a.zones.map fun (z : Zone) => if z.zone == n then f z else z }

/-- A zone that holds nothing: live count 0 and an empty placement list (R87). -/
def Zone.idle (z : Zone) : Bool := z.live == 0 && z.list.isEmpty

/-- A FULL zone becomes FREE and joins the tail of the FIFO (R87). -/
def Alloc.freeZone (n : Nat) (a : Alloc) : Alloc :=
  { a with zones := a.zones.filter (·.zone != n), fifo := a.fifo ++ [n] }

/-- A placement of stored length `len` fits in the filling zone, or in the zone at the head of the FIFO (R84). -/
def Alloc.fits (len : Nat) (a : Alloc) : Bool := !a.fifo.isEmpty || a.filling.any fun z => z.fill + len ≤ 4096

/-- A placement of stored length `len` can be made (R84): it fits, or the filling zone holds nothing. -/
def Alloc.canPlace (len : Nat) (a : Alloc) : Bool := a.filling.isSome && (a.fits len || a.filling.any (·.idle))

/-- The filling zone is given room for a placement of stored length `len` (R84): it fits; or the zone becomes FULL and the head
of the FIFO becomes FILLING; or a zone that holds nothing returns its fill point to 0. None when the placement must wait.

A FILLING zone that a failure has ended (R86 step 4) and that then holds nothing is such a zone: with an empty FIFO, R84 and R87
place the retry at offset 0 of the zone that failed, where R86 says that a fresh placement never goes to it and waits (DESIGN
CHOICE, entry 13). -/
def Alloc.makeRoom (len : Nat) (a : Alloc) : Option Alloc :=
  match a.filling with
  | none => none
  | some z =>
    if z.fill + len ≤ 4096 then some a
    else match a.fifo with
      | n :: rest =>
        let a := { a with fifo := rest }
        let a := if z.idle then a.freeZone z.zone else a.modZone z.zone fun z => { z with filling := false }
        some { a with zones := insertBy (·.zone) { zone := n, filling := true } a.zones }
      | [] => if z.idle then some (a.modZone z.zone fun z => { z with fill := 0 }) else none

/-- A zone has joined the FIFO between two states of the allocator (R88). -/
def Alloc.zoneJoined (old new : Alloc) : Bool := new.fifo.any fun n => !old.fifo.contains n

/-- A placement for an owner (R84): the filling zone's fill point and the next write stamp, an ISSUED entry at the end of the
zone's placement list. The stamp counter is an unbounded number whose low 8 bytes go into the header: R83 does not say what a
64-bit counter does past its end (DESIGN CHOICE, entry 54). -/
def Alloc.takePlace (window serial index len : Nat) (a : Alloc) : Option (Place × Alloc) :=
  match a.makeRoom len with
  | none => none
  | some a =>
    match a.filling with
    | none => none
    | some z =>
      let p : Place := { zone := z.zone, off := z.fill, len, stamp := a.stamp }
      let a := a.modZone z.zone fun z =>
        { z with fill := z.fill + len, list := z.list ++ [{ window, serial, index, off := p.off, len, stamp := p.stamp }] }
      some (p, { a with stamp := a.stamp + 1 })

/-- The zone whose placement list holds a write stamp (R83: a stamp is given once). -/
def Alloc.zoneOfStamp (stamp : Nat) (a : Alloc) : Option Zone := a.zones.find? fun z => z.list.any (·.stamp == stamp)

/-- The LANDED placements at the head of a list (R85), and what is left. -/
def settled : List Placement → List Placement × List Placement
  | [] => ([], [])
  | p :: ps =>
    if p.status == .landed then
      let r := settled ps
      (p :: r.1, r.2)
    else ([], p :: ps)

/-- A list cut at a write stamp: what stands before it, it, and what stands after it (R86). -/
def splitAtStamp (stamp : Nat) : List Placement → List Placement × Option Placement × List Placement
  | [] => ([], none, [])
  | p :: ps =>
    if p.stamp == stamp then ([], some p, ps)
    else
      let r := splitAtStamp stamp ps
      (p :: r.1, r.2.1, r.2.2)

/-- The live count of a zone rises (R87). Where the zone was freed before a WRITTEN segment in it commits (entry 48), R82 keeps the
live count of a FREE zone at 0 and nothing rises (DESIGN CHOICE, entry 48). -/
def Alloc.addLive (n len : Nat) (a : Alloc) : Alloc := a.modZone n fun z => { z with live := z.live + len }

/-- The live count of a zone falls, down to 0 at most (R87). The length of a segment that committed after its zone had become FREE
was never added (entry 48), and it is subtracted all the same from the count that the zone has by then: R87 subtracts the stored length of
each entry from its zone and does not speak of such a one (DESIGN CHOICE, entry 48). -/
def Alloc.subLive (n len : Nat) (a : Alloc) : Alloc := a.modZone n fun z => { z with live := z.live - len }

end Sys2Proof.Machine
end

