-- ==== Sys2Proof/Machine/Segments.lean ====
section
/-! DEFINITION. Sealing, placing, settling and committing segments, LOST markers, and the steps of a volume's close up to the
end of step 1 (chapters 2 to 5: R29, R31, R33, R59, R68 to R78, R84 to R88, R93). -/

namespace Sys2Proof.Machine

/-! ### Placing (R84, R88) -/

/-- The store block of a placement. -/
def Place.block (p : Place) : Nat := p.zone * 4096 + p.off

/-- The store request of a placed segment's write (R71, R93). -/
def segmentReq (p : PendSeg) (at_ : Place) : StoreReq :=
  { cls := 3, user := .segment p.hdr.serial p.hdr.index at_.stamp, op := .write, block := at_.block, count := at_.len,
    data := segmentBlocks p.hdr p.payload }

/-- A placement is made for a pending segment and its write requested (R84); none when it must wait. -/
def State.tryPlace (serial index : Nat) (s : State) : Option State :=
  match s.pendSeg serial index with
  | none => none
  | some p =>
    match s.alloc.takePlace p.hdr.window serial index p.hdr.len with
    | none => none
    | some (at_, a) =>
      let p' : PendSeg := { p with place := some at_, hdr := { p.hdr with stamp := at_.stamp } }
      some (({ s with alloc := a }.modPend serial index fun _ => p').enqueue (segmentReq p' at_))

/-- An item joins the tail of the waiting list, which holds no owner twice (R88). -/
def State.joinWaiting (i : WaitItem) (s : State) : State :=
  if s.alloc.waiting.contains i then s else { s with alloc := { s.alloc with waiting := s.alloc.waiting ++ [i] } }

/-- An item leaves the waiting list (R88). -/
def State.leaveWaiting (i : WaitItem) (s : State) : State :=
  { s with alloc := { s.alloc with waiting := s.alloc.waiting.filter (· != i) } }

/-- A placement is made or waits (R84, R88); none is made while the part is HALTED (R84). -/
def State.placeOnce (serial index : Nat) (s : State) : State :=
  if s.isHalted then s
  else
    match s.tryPlace serial index with
    | some s' => s'
    | none => s.joinWaiting (.place serial index)

/-! ### Sealing (R70, R71) -/

/-- The open's writes have both completed, so that segments are placed as they are sealed (R8). -/
def Ctx.opened (c : Ctx) : Bool := c.openCatalogue && c.openSettings

/-- The header that sealing gives the open segment; the write stamp follows with its placement (R71, R72). -/
def Ctx.header (c : Ctx) : SegHeader :=
  { window := c.window, serial := c.serial, index := c.next, first := c.seg.first, count := c.seg.blocks, kind := c.seg.kind,
    lead := c.seg.lead, tail := c.tailBytes.length, recs := c.seg.recs, payloadLen := c.sealedPayload.length, stamp := 0,
    run := c.run }

/-- A seal that must place its segment can do so: the part is HALTED or the open is not complete, so that no placement is
made now (R8, R79), or the zone allocator can place it (R70). So a seal that was on the waiting list for want of a placement when the
part became HALTED waits for none any more: R88 only says that the list is not gone through then (DESIGN CHOICE, entry 58). -/
def State.sealPlaces (c : Ctx) (s : State) : Bool := s.isHalted || !c.opened || s.alloc.canPlace c.sealLen

/-- The three conditions of R70. -/
def State.canClose (c : Ctx) (s : State) : Bool :=
  (s.pendOf c.serial).length < 3 && 0 < s.alloc.mapFree && s.sealPlaces c

/-- The open segment is sealed and a new one begins (R71); nothing is placed or written while the part is HALTED (R79) or the
open's writes are out (R8). -/
def State.sealOnce (w : Nat) (s : State) : State :=
  match s.ctx w with
  | none => s
  | some c =>
    let p : PendSeg := { hdr := c.header, payload := c.sealedPayload, status := if s.isHalted then .unwritten else .writing }
    let s := { s with
      pend := s.pend ++ [p]
      alloc := { s.alloc with mapFree := s.alloc.mapFree - 1 } }
    let s := s.modCtx w fun (c : Ctx) =>
      { c with next := c.next + 1, seg := freshSeg (c.next + 1) (c.seg.first + c.seg.blocks) c.framer, reference := zeroRecord }
    let s := s.leaveWaiting (.seal w c.serial)
    if c.opened then s.placeOnce c.serial c.next else s

/-! ### The waiting list (R88) -/

/-- An entry of the waiting list proceeds when it now can. -/
def State.proceed (i : WaitItem) (s : State) : State :=
  match i with
  | .seal w serial =>
    match s.ctx w with
    | none => s.leaveWaiting i
    | some c =>
      if c.serial != serial || c.seg.held.isNone then s.leaveWaiting i
      else if s.canClose c then s.sealOnce w
      else s
  | .place serial index =>
    match s.pendSeg serial index with
    | none => s.leaveWaiting i
    | some _ =>
      match s.tryPlace serial index with
      | none => s
      | some s' => s'.leaveWaiting i

/-- The waiting list is gone through from its head, and again while a zone has joined the FIFO meanwhile (R88). Each entry that
proceeds leaves the list, so `n` above its length is enough. -/
def State.passAgain : Nat → State → State
  | 0, s => s
  | n + 1, s =>
    let t := each State.proceed s.alloc.waiting s
    if s.alloc.zoneJoined t.alloc then State.passAgain n t else t

/-- The waiting list is gone through; not while the part is HALTED (R88). -/
def State.passWaiting (s : State) : State := if s.isHalted then s else State.passAgain (s.alloc.waiting.length + 1) s

/-- A placement has just been made from the allocator `old`: when it returned a zone to the FIFO, the waiting list is gone
through (R88). -/
def State.passIfJoined (old : Alloc) (s : State) : State := if old.zoneJoined s.alloc then s.passWaiting else s

/-- A placement is made or waits (R84, R88), and what a zone that it returned to the FIFO lets proceed proceeds. -/
def State.placeOrWait (serial index : Nat) (s : State) : State := (s.placeOnce serial index).passIfJoined s.alloc

/-- The open segment is sealed (R71), and what a zone that its placement returned to the FIFO lets proceed proceeds (R88). -/
def State.seal (w : Nat) (s : State) : State := (s.sealOnce w).passIfJoined s.alloc

/-- An entry of the waiting list waits for a placement (R88): a segment without one, or a seal that cannot be placed, whether
or not it lacks a map entry too. While the part is HALTED a seal waits for none (entry 58). -/
def State.waitsForPlace (i : WaitItem) (s : State) : Bool :=
  match i with
  | .seal w _ => (s.ctx w).any fun c => !s.sealPlaces c
  | .place _ _ => true

/-- An entry of the waiting list waits for a map entry (R88, R89). -/
def State.waitsForMap (i : WaitItem) (s : State) : Bool :=
  match i with
  | .seal _ _ => s.alloc.mapFree == 0
  | .place _ _ => false

/-- An entry of the waiting list has waited for a placement until its FILLING zone came to hold nothing (R87): a segment without
one, or a seal that fits neither in the filling zone nor in a FREE one. -/
def State.needsRoom (i : WaitItem) (s : State) : Bool :=
  match i with
  | .seal w _ => !s.isHalted && (s.ctx w).any fun c => c.opened && !s.alloc.fits c.sealLen
  | .place _ _ => true

/-- A zone's live count or placement list has become empty (R87): a FULL zone that holds nothing becomes FREE; the FILLING zone
returns its fill point to 0 while something waits for a placement; the waiting list is gone through. The test is R87's to the letter:
a segment that is WRITTEN and waits for a lower index to commit is in no list and not yet live, and does not keep its zone (DESIGN
CHOICE, entry 48). -/
def State.zoneTest (n : Nat) (s : State) : State :=
  match s.alloc.zone n with
  | none => s
  | some z =>
    if !z.idle then s
    else if !z.filling then State.passWaiting { s with alloc := s.alloc.freeZone n }
    else if s.alloc.waiting.any (fun i => s.needsRoom i) then
      State.passWaiting { s with alloc := s.alloc.modZone n fun z => { z with fill := 0 } }
    else s

/-! ### Closes that come due (R68, R70) -/

/-- A close is held (R70): the open segment records the condition, and the seal joins the waiting list when a map entry or a
placement is what it lacks (R88, R89). One held for three pending segments alone does not join, and where it comes to lack the one or
the other later it joins at its next HELD_CLOSE (DESIGN CHOICE, entry 62). -/
def State.holdClose (cond : CloseCond) (w : Nat) (c : Ctx) (s : State) : State :=
  let s := s.modCtx w fun (c : Ctx) => { c with seg := { c.seg with held := some cond } }
  if s.alloc.mapFree == 0 || !s.sealPlaces c then s.joinWaiting (.seal w c.serial) else s

/-- A close is due (R68): nothing on a segment that covers no block; no second close while one is held; else made or held
(R70). -/
def State.closeDue (cond : CloseCond) (w : Nat) (s : State) : State :=
  match s.ctx w with
  | none => s
  | some c =>
    if c.seg.blocks == 0 || c.seg.held.isSome then s
    else if s.canClose c then s.seal w
    else s.holdClose cond w c

/-! ### LOST entries of a map -/

/-- The first block from `lo` to `hi - 1` that a LOST map entry covers. -/
def firstLost : List MapEntry → Nat → Nat → Option Nat
  | [], _, _ => none
  | e :: es, lo, hi =>
    if e.kind == .lost && lo < e.first + e.count && e.first < hi then some (max lo e.first) else firstLost es lo hi

/-- The map holds a LOST entry (R130). -/
def hasLost (m : List MapEntry) : Bool := m.any (·.kind == .lost)

/-! ### Answers that a commit gives (R31, R33) -/

/-- A waiting COMMITTED-mode write of the volume whose blocks are all committed or lost completes (R31). -/
def answerWrite (v : Volume) (e : TagEntry) (s : State) : State :=
  match firstLost v.map e.offset (e.offset + e.count) with
  | some b => s.complete e.tag .storeError none (b - e.offset)
  | none => s.finish e.tag .good

/-- The writes of a volume that its committed point completes, by last block (R31). -/
def writesDone (serial committed : Nat) (tags : List TagEntry) : List TagEntry :=
  (tags.filter fun e => e.phase == .waitingCommit && e.serial == some serial && e.offset + e.count ≤ committed).foldl
    (fun acc e => insertBy (fun (e : TagEntry) => e.offset + e.count) e acc) []

/-- A SYNC completes: STORE_ERROR at the first lost block below `hi`, else GOOD (R33). -/
def answerSync (v : Volume) (hi : Nat) (e : TagEntry) (s : State) : State :=
  match firstLost v.map 0 hi with
  | some b => s.complete e.tag .storeError none b
  | none => s.finish e.tag .good

/-- The SYNCs of an OPEN volume whose target the committed point has reached (R33). -/
def syncsDone (serial committed : Nat) (tags : List TagEntry) : List TagEntry :=
  tags.filter fun e => e.phase == .syncing && e.serial == some serial && e.target.any (· ≤ committed)

/-- The SYNCs of a volume. -/
def syncsOf (serial : Nat) (tags : List TagEntry) : List TagEntry :=
  tags.filter fun e => e.phase == .syncing && e.serial == some serial

/-- Answer the SYNCs of an OPEN volume that have reached their target (R33). -/
def State.answerOpenSyncs (w : Nat) (s : State) : State :=
  match s.vol w, s.ctx w with
  | some v, some c =>
    if v.state == .opened then
      each (fun e => answerSync v (e.target.getD 0) e) (syncsDone v.serial c.committed s.client.tags) s
    else s
  | _, _ => s

/-- Step 1 of the close sequence ends (R12): every segment of the volume has completed, and the close joins those that wait for
their verdict. SYNCs of the CLOSING volume complete
(R33). -/
def State.endStep1 (w : Nat) (s : State) : State :=
  match s.vol w, s.ctx w with
  | some v, some c =>
    match c.close with
    | none => s
    | some k =>
      if k.stage == .segments && (s.pendOf c.serial).isEmpty && c.seg.blocks == 0 then
        let s := s.modCtx w fun (c : Ctx) => { c with close := some { k with stage := .verdict } }
        let s := { s with audit := { s.audit with closes := s.audit.closes ++ [w] } }
        each (answerSync v 16777216) (syncsOf v.serial s.client.tags) s
      else s
  | _, _ => s

/-- What follows a chain of commits of a window's volume (R75): the writes that the new committed point completes are answered, in the
order of their last blocks, and after all of them the SYNCs, in ascending order of tag. R31, R33 and R75 give no order between the
writes and the SYNCs of one commit (DESIGN CHOICE, entry 10). -/
def State.afterCommit (w : Nat) (s : State) : State :=
  match s.vol w, s.ctx w with
  | some v, some c =>
    let s := each (answerWrite v) (writesDone v.serial c.committed s.client.tags) s
    (s.answerOpenSyncs w).endStep1 w
  | _, _ => s

/-! ### Commit (R75) -/

/-- The map entry of a pending segment with its placement (R75, R78). -/
def mapEntryOf (h : SegHeader) (p : Place) : MapEntry :=
  { first := h.first, count := h.count, zone := p.zone, off := p.off, len := p.len, kind := h.kind, lead := h.lead,
    tail := h.tail, recs := h.recs }

/-- A pending segment commits (R75). -/
def State.commitOne (p : PendSeg) (at_ : Place) (s : State) : State :=
  let s := s.modVol p.hdr.window fun v => { v with map := v.map ++ [mapEntryOf p.hdr at_], segments := v.segments + 1 }
  let s := { s with alloc := s.alloc.addLive at_.zone at_.len }
  let s := s.modCtx p.hdr.window fun c => { c with committed := p.hdr.first + p.hdr.count }
  s.dropPend p.hdr.serial p.hdr.index

/-- The pending list's head commits while it is WRITTEN, at most `n` times (R75). -/
def State.commitChain : Nat → Nat → State → State
  | 0, _, s => s
  | n + 1, serial, s =>
    match s.pendOf serial with
    | [] => s
    | p :: _ =>
      match p.status, p.place with
      | .written, some at_ => State.commitChain n serial (s.commitOne p at_)
      | _, _ => s

/-- Window and serial of a pending segment. -/
def PendSeg.volName (p : PendSeg) : Nat × Nat := (p.hdr.window, p.hdr.serial)

/-- Index, first block and block count of a pending segment. -/
def PendSeg.range (p : PendSeg) : Nat × Nat × Nat := (p.hdr.index, p.hdr.first, p.hdr.count)

/-- A write whose first attempt failed has succeeded on its retry and settled (R93): STORE_FAULT, FAULT entry RECOVERED. -/
def State.writeRecovered (p : PendSeg) (s : State) : State :=
  match p.failure with
  | none => s
  | some (cls, old) =>
    s.setStoreFault.appendFault
      { kind := .writeRecovered, cls, vol := some p.volName, seg := some p.range, place := some (old.zone, old.off),
        retry := p.place.map fun q => (q.zone, q.off) }

/-- The owner of a settled placement receives GOOD (R74, R78, R85, R93). -/
def ownerGood (q : Placement) (s : State) : State :=
  match s.pendSeg q.serial q.index with
  | none => s
  | some p =>
    if p.place.any (·.stamp == q.stamp) then
      let s := s.modPend q.serial q.index fun p => { p with status := .written }
      ((State.commitChain 4 q.serial s).writeRecovered p).afterCommit q.window
    else s

/-- A segment write completes GOOD (R85): its placement is LANDED, the LANDED placements at the head of the zone's list leave it
in order, and the zone is tested (R87). -/
def State.segmentGood (stamp : Nat) (s : State) : State :=
  match s.alloc.zoneOfStamp stamp with
  | none => s
  | some z =>
    let marked := z.list.map fun (q : Placement) => if q.stamp == stamp then { q with status := .landed } else q
    let cut := settled marked
    let s := { s with alloc := s.alloc.modZone z.zone fun z => { z with list := cut.2 } }
    (each ownerGood cut.1 s).zoneTest z.zone

/-! ### Failure (R77, R78, R86, R93) -/

/-- State of a pending segment in the captures of a FAULT entry (R77); `lost` is the index of the lost segment. -/
def captureState (lost : Nat) (p : PendSeg) : CaptureState :=
  if p.hdr.index == lost || p.status == .marking then .lost
  else if p.status == .written then .committed
  else .pending

/-- A pending segment is lost (R77): it becomes MARKING with its header turned into the LOST marker's (R78), the FAULT entry is
appended, DAMAGE_FOUND set, the volume marked, and the marker placed. -/
def State.segmentLost (cls : FaultClass) (p : PendSeg) (s : State) : State :=
  let caps := (s.pendOf p.hdr.serial).map fun q => (q.hdr.index, q.hdr.first, q.hdr.count, captureState p.hdr.index q)
  let s := s.modPend p.hdr.serial p.hdr.index fun p =>
    { p with
      status := .marking, payload := [], retryUsed := false, failure := none, place := none
      hdr := { p.hdr with kind := .lost, recs := 0, payloadLen := 0 } }
  let s := s.appendFault { kind := .segmentLost, cls, vol := some p.volName, captures := caps }
  let s := s.setDamage.modVol p.hdr.window fun v => if v.serial == p.hdr.serial then { v with markDamaged := true } else v
  s.placeOrWait p.hdr.serial p.hdr.index

/-- The owner of a failed placement is told (R74, R78, R93): retry at a fresh placement; a lost segment; or the double fault of
a LOST marker. Nothing while the part is HALTED (R79, R161). -/
def State.ownerFailed (cls : FaultClass) (q : Placement) (s : State) : State :=
  match s.pendSeg q.serial q.index with
  | none => s
  | some p =>
    match p.place with
    | none => s
    | some at_ =>
      if s.isHalted || at_.stamp != q.stamp then s
      else if !p.retryUsed then
        (s.modPend q.serial q.index fun p =>
          { p with retryUsed := true, failure := some (cls, at_), place := none }).placeOrWait q.serial q.index
      else if p.status == .marking then
        s.doubleFault cls .lostMarker at_.block (some p.volName) (some p.range)
      else s.segmentLost cls p

/-- A stranded placement's owner is given a fresh placement (R86). -/
def replaceStranded (q : Placement) (s : State) : State :=
  match s.pendSeg q.serial q.index with
  | none => s
  | some p =>
    if p.place.any (·.stamp == q.stamp) then
      (s.modPend q.serial q.index fun p => { p with place := none }).placeOrWait q.serial q.index
    else s

/-- The store request of a placement among those stranded. -/
def isStranded (qs : List Placement) : StoreUser → Bool
  | .segment _ _ stamp => qs.any (·.stamp == stamp)
  | _ => false

/-- A segment write fails with MEDIUM or TIMEOUT (R86): its placement leaves the list, or stays ABANDONED; every later one that
is not ABANDONED is stranded; a FILLING zone is ended; the zone is tested (R87); the owner is told, and the stranded are placed
afresh. The test comes before the fresh placements (DEDUCED, entry 13). The write of a stranded placement that no slot has been granted
yet is withdrawn from its queue; R86 speaks only of writes that are outstanding (DESIGN CHOICE, entry 49). It is withdrawn in a HALTED
part too, though R91 keeps the writes that wait in the queues of such a part there until a reset (DESIGN CHOICE, entry 49). -/
def State.segmentFailed (cls : FaultClass) (stamp : Nat) (abandoned : Bool) (s : State) : State :=
  match s.alloc.zoneOfStamp stamp with
  | none => s
  | some z =>
    let cut := splitAtStamp stamp z.list
    match cut.2.1 with
    | none => s
    | some q =>
      let stranded := cut.2.2.filter (·.status != .abandoned)
      let kept := cut.2.2.filter (·.status == .abandoned)
      let own : List Placement := if abandoned then [{ q with status := .abandoned }] else []
      let s := { s with alloc := s.alloc.modZone z.zone fun z =>
        { z with list := cut.1 ++ own ++ kept, fill := if z.filling then 4096 else z.fill } }
      let s := (s.withdraw (isStranded stranded)).disown (isStranded stranded)
      each replaceStranded stranded ((s.zoneTest z.zone).ownerFailed cls q)

/-- The request slot of an ABANDONED segment write is free: its placement leaves the list (R86, R92, R95). -/
def State.dropAbandoned (stamp : Nat) (s : State) : State :=
  match s.alloc.zoneOfStamp stamp with
  | none => s
  | some z =>
    State.zoneTest z.zone { s with alloc := s.alloc.modZone z.zone fun z =>
      { z with list := z.list.filter fun q => !(q.stamp == stamp && q.status == .abandoned) } }

/-! ### Entering CLOSING and step 1 (R11, R29, R59) -/

/-- A volume enters CLOSING (R11). -/
def State.enterClosing (w : Nat) (stage : CloseStage) (ref : Option Nat) (s : State) : State :=
  let s := s.modCtx w fun c => { c with idle := none, close := some { stage, ref } }
  s.rewriteVol w (fun v => { v with state := .closing, stalled := false }) []

/-- A write that R29 answers: one still RECEIVING, or one WAITING_COMMIT that owned a discarded block. -/
def closingRefuses (serial : Nat) (gone : List Nat) (e : TagEntry) : Bool :=
  e.serial == some serial
    && (e.phase == .receiving
      || (e.phase == .waitingCommit && gone.any fun b => e.offset ≤ b && b < e.offset + e.count))

/-- The slots of a closing volume are dealt with after the contiguous taking (R29). -/
def State.closingDiscard (w : Nat) (s : State) : State :=
  match s.ctx w with
  | none => s
  | some c =>
    let mine := s.client.slots.filter (·.serial == c.serial)
    let gone := (mine.filter (·.data.isSome)).map (·.offset)
    let s := { s with client := { s.client with slots := s.client.slots.filter (·.serial != c.serial) } }
    let s := s.modCtx w fun c => { c with close := c.close.map fun k => { k with discarded := k.discarded + gone.length } }
    each (fun (e : TagEntry) => State.refuse e.tag .volumeClosed) (s.client.tags.filter (closingRefuses c.serial gone)) s

/-- The framer stops and step 1 of the close begins (R59, R12, R29). -/
def State.framerStop (w : Nat) (s : State) : State :=
  let s := s.closingDiscard w
  let s := s.modCtx w fun c => { c with close := c.close.map fun k => { k with stage := .segments } }
  (s.closeDue .volumeClose w).endStep1 w

/-- The slot that carries a volume's offset (R28). -/
def State.slot (serial offset : Nat) (s : State) : Option Slot :=
  s.client.slots.find? fun x => x.serial == serial && x.offset == offset

/-- The block HELD at an offset of a volume. -/
def State.heldAt (serial offset : Nat) (s : State) : Option Block := (s.slot serial offset).bind (·.data)

/-- The contiguous taking of a CLOSING volume ends when the slot at the ingest point is not HELD (R59). A block whose DATA arrives
for a RESERVED slot while the taking goes on extends it when it is contiguous by then: the spec speaks only of the blocks staged
(DESIGN CHOICE, entry 39). In a HALTED part the taking goes on and ends in the same way, with the blocks HELD beyond a gap discarded,
though R37 keeps the HELD slots until a reset and R13 stops the close where it stands (DESIGN CHOICE, entry 52). -/
def State.endTaking (w : Nat) (s : State) : State :=
  match s.vol w, s.ctx w with
  | some v, some c =>
    if c.close.any (·.stage == .taking) && (s.heldAt v.serial v.ingest).isNone then s.framerStop w else s
  | _, _ => s

end Sys2Proof.Machine
end

