-- ==== Sys2Proof/Machine/Attention.lean ====
section
/-! DEFINITION. The attention unit (11.3, R163): the attention set and the two output pins, worked out from the state. -/

namespace Sys2Proof.Machine

/-- An attention item is set (R88, R95, R150, R161, R163): a condition item while its condition holds, a latched item while it
is latched. A condition is judged once its owner is set up (entry 26). -/
def State.itemSet (s : State) : Item → Bool
  | .spaceLow => s.alloc.ready && s.alloc.fifo.length < s.set.work.spaceLow
  | .spaceExhausted => s.alloc.fifo.isEmpty && s.alloc.waiting.any fun i => s.waitsForPlace i
  | .mapFull => s.alloc.waiting.any fun i => s.waitsForMap i
  | .journalHigh => s.journalIsHigh
  | .journalFull => s.journalFull
  | .storeLinkDown => s.port.reported && !s.port.up
  | .volumeStalled => s.latched.volumeStalled
  | .discrepantClose => s.latched.discrepantClose
  | .damageFound => s.latched.damageFound
  | .storeFault => s.latched.storeFault
  | .expiryBlocked => s.latched.expiryBlocked
  | .halted => s.isHalted

/-- The attention set, bit 0 SPACE_LOW to bit 11 HALTED (R172); empty while RESET_N is held (R163). -/
def State.attention (s : State) : Nat :=
  if s.resetHeld then 0
  else (Item.all.zipIdx.map fun p => if s.itemSet p.1 then 2 ^ p.2 else 0).sum

/-- ATTN_N is asserted: a set item's level exceeds the working mask level (R163). It is asserted for HALTED and STORE_LINK_DOWN also
before start-up has set up the owners of the conditions (DESIGN CHOICE, entry 26). -/
def State.attnAsserted (s : State) : Bool :=
  !s.resetHeld && Item.all.any fun i => s.itemSet i && s.set.work.maskLevel < i.level

/-- HALT_N is asserted exactly while the part is HALTED (R163), also when it was halted before start-up had set up the owners of the
conditions, until when R163 releases both pins (DESIGN CHOICE, entry 26). -/
def State.haltAsserted (s : State) : Bool := !s.resetHeld && s.isHalted

end Sys2Proof.Machine
end

