-- ==== Sys2Proof/Machine/Volumes.lean ====
section
/-! DEFINITION. Arithmetic and tests over volume records that several families share: the expiry day (R115, R116), hold matching
(R120), the idle timer's load (R9), damage (R106, R137). -/

namespace Sys2Proof.Machine

/-- The smaller of an expiry day that may be absent and a bound (R14, R115). -/
def boundedBy (e : Option Nat) (bound : Nat) : Nat :=
  match e with
  | none => bound
  | some x => min x bound

/-- The retention table's entry of a class (R113). -/
def State.classEntry (s : State) (cls : Nat) : RetentionEntry := s.ret.table.getD cls {}

/-- The expiry day that a day number and retention days give (R115). -/
def expiryOf (day days : Nat) : Option Nat := if days == 0 then none else some (day + days)

/-- The expiry day of a volume of a class whose entry was replaced (R116). -/
def recomputeExpiry (v : Volume) (e : RetentionEntry) : Option Nat :=
  match v.supersededOn with
  | none => expiryOf v.day e.days
  | some d =>
    let x := boundedBy v.expiry (d + e.grace)
    some (match expiryOf v.day e.days with
      | none => x
      | some y => min x y)

/-- A hold matches a volume (R120). -/
def Hold.covers (h : Hold) (v : Volume) : Bool :=
  (match h.source with
    | none => true
    | some n => n == v.source) && h.first ≤ v.day && v.day ≤ h.last

/-- Some entry of the hold list matches a volume (R118). -/
def State.isHeld (s : State) (v : Volume) : Bool := s.ret.holds.any (·.covers v)

/-- The load of an idle timer: stopped when the idle limit is 0 (R9). -/
def Settings.idleLoad (x : Settings) : Option (Nat × IdleUnit) :=
  if x.idleLimit == 0 then none else some (x.idleLimit, x.idleUnit)

/-- The idle timer of a window's volume is loaded (R9). -/
def State.loadIdle (w : Nat) (s : State) : State := s.modCtx w fun c => { c with idle := s.set.work.idleLoad }

/-- Same source id and day number (R14, R15). -/
def sameSwitchDay (a b : Volume) : Bool := a.source == b.source && a.day == b.day

/-- The record of a closed volume that is found damaged (R4, R106, R137). -/
def damagedRecord (v : Volume) : Volume := { v with audit := .damaged, flags := none }

/-- A client read of the volume is in SERVING (R124). -/
def State.beingRead (s : State) (serial : Nat) : Bool :=
  s.client.tags.any fun e => e.phase == .serving && e.serial == some serial

end Sys2Proof.Machine
end

