-- ==== Sys2Proof/Machine/Directives.lean ====
section
/-! DEFINITION. The directives at their owners: CONFIGURE, SIGNATURE, REPORT, INQUIRE (R154 to R158), CLOSE and RESOLVE (R18,
R19), the tariff directives (R49, R50), CLEAR_ATTENTION (R164). -/

namespace Sys2Proof.Machine

/-! ### Taking a directive up (R153) -/

/-- The first member that is equal to `x` is taken out. -/
def takeOut [DecidableEq α] (x : α) : List α → List α
  | [] => []
  | y :: ys => if y = x then ys else y :: takeOut x ys

/-- A directive reaches its owner: the tag that is owed its completion, none after a loss of the client link or a halt (R22,
R153, R161). Of two equal directives, an older one whose completion is no longer owed and a later one that is owed it, the one that is
owed it is taken up first (DESIGN CHOICE, entry 5). -/
def State.takeUp (tag : Byte) (c : Instr) (s : State) : Option Nat × State :=
  let waiting := s.client.dispatched
  if waiting.contains { owed := true, command := c } then
    (some tag.toNat, { s with client := { s.client with dispatched := takeOut { owed := true, command := c } waiting } })
  else if waiting.contains { owed := false, command := c } then
    (none, { s with client := { s.client with dispatched := takeOut { owed := false, command := c } waiting } })
  else (some tag.toNat, s)

/-- The first case of every owning rule: HALTED, or BUSY_RETRY while start-up runs (R153, R154). -/
def State.directiveGate (s : State) : Option Status :=
  if s.isHalted then some .halted else if s.starting then some .busyRetry else none

/-- A directive at its owner: the first case, then `body`. Nothing while RESET_N is held. -/
def State.own (tag : Byte) (c : Instr) (body : Option Nat → State → State) (s : State) : State :=
  if s.resetHeld then s
  else
    let p := s.takeUp tag c
    match s.directiveGate with
    | some st => p.2.answer p.1 st none
    | none => body p.1 p.2

/-- A directive is refused with a reason. -/
def State.deny (o : Option Nat) (r : Reason) (s : State) : State := s.answer o .refused (some r)

/-- The cases that a directive with a settings write shares: JOURNAL_FULL, then UNAVAILABLE (R154 cases 3 and 4). -/
def State.ifJournal (o : Option Nat) (s : State) (taken : State → State) : State :=
  if s.journalFull then s.deny o .journalFull else taken s

/-- UNAVAILABLE while the store link is DOWN in FAIL mode (R36). -/
def State.ifStore (o : Option Nat) (s : State) (taken : State → State) : State :=
  if s.lossFail then s.answer o .unavailable none else taken s

/-- A SETTINGS entry is appended (9.5). -/
def State.appendSettings (ref : BitVec 32) (cause : Nat) (rest : List Byte) (s : State) : State :=
  s.append { code := 0x0011, body := settingsBody ref.toNat cause rest }

/-! ### CONFIGURE (R154, R172) -/

/-- Setting number `i` of the mask is present. -/
def settingPresent (b : ConfigureBody) (i : Nat) : Bool := b.mask.getLsbD i

/-- A present value lies in its range; an absent one is not looked at (R172). -/
def configureValid (b : ConfigureBody) : Bool :=
  let ok (i : Nat) (good : Bool) : Bool := !settingPresent b i || good
  b.mask.toNat < 2048 && ok 0 (b.mode.toNat ≤ 1) && ok 1 (b.policy.toNat ≤ 3) && ok 3 (b.idleUnit.toNat ≤ 1)
    && ok 5 (b.linkLoss.toNat ≤ 1) && ok 6 (1 ≤ b.spaceLow.toNat && b.spaceLow.toNat ≤ 1024)
    && ok 7 (1 ≤ b.journalHigh.toNat) && ok 8 (b.maskLevel.toNat ≤ 3) && ok 10 (b.readAhead.toNat ≤ 1)

/-- The resume policy of a code (R172). -/
def policyOf (n : Nat) : ResumePolicy :=
  match n with
  | 0 => .abandon
  | 1 => .resume
  | 2 => .preserve
  | _ => .byClass

/-- Settings with the present values of a CONFIGURE in their places (R154). -/
def applyConfigure (b : ConfigureBody) (x : Settings) : Settings where
  mode := if settingPresent b 0 then (if b.mode.toNat == 0 then .posted else .committed) else x.mode
  policy := if settingPresent b 1 then policyOf b.policy.toNat else x.policy
  idleLimit := if settingPresent b 2 then b.idleLimit.toNat else x.idleLimit
  idleUnit := if settingPresent b 3 then (if b.idleUnit.toNat == 0 then .seconds else .minutes) else x.idleUnit
  storeTimeout := if settingPresent b 4 then b.storeTimeout.toNat else x.storeTimeout
  linkLoss := if settingPresent b 5 then (if b.linkLoss.toNat == 0 then .hold else .fail) else x.linkLoss
  spaceLow := if settingPresent b 6 then b.spaceLow.toNat else x.spaceLow
  journalHigh := if settingPresent b 7 then b.journalHigh.toNat else x.journalHigh
  maskLevel := if settingPresent b 8 then b.maskLevel.toNat else x.maskLevel
  patrolRate := if settingPresent b 9 then b.patrolRate.toNat else x.patrolRate
  readAhead := if settingPresent b 10 then b.readAhead.toNat == 1 else x.readAhead

/-- A CONFIGURE that is taken (R154). -/
def State.configureTaken (ref : BitVec 32) (b : ConfigureBody) (o : Option Nat) (s : State) : State :=
  let s := { s with set := { s.set with image := applyConfigure b s.set.image } }
  (s.callSettings (.directive o)).appendSettings ref 1 (configureBytes b)

/-- CONFIGURE (R154). -/
def execConfigure (tag : Byte) (ref : BitVec 32) (body : ConfigureBody) (s : State) : Result :=
  .next (s.own tag (.configure tag ref body) fun o s =>
    if !configureValid body then s.deny o .badField
    else s.ifJournal o fun s => s.ifStore o (State.configureTaken ref body o))

/-! ### SIGNATURE (R156) -/

/-- A SIGNATURE that is taken (R156). -/
def State.signatureTaken (ref : BitVec 32) (marker : BitVec 128) (o : Option Nat) (s : State) : State :=
  let s := { s with set := { s.set with imageMarker := marker } }
  (s.callSettings (.directive o)).appendSettings ref 2 []

/-- SIGNATURE (R156). -/
def execSignature (tag : Byte) (ref : BitVec 32) (marker : BitVec 128) (s : State) : Result :=
  .next (s.own tag (.signature tag ref marker) fun o s =>
    if marker == 0 || marker == BitVec.allOnes 128 then s.deny o .badField
    else s.ifJournal o fun s => s.ifStore o (State.signatureTaken ref marker o))

/-! ### REPORT (R157) -/

/-- SNAPSHOT (12.4): the values as they stand (R157). -/
def State.snapshotBody (ref : BitVec 32) (s : State) : List Byte :=
  let fill : Nat × Nat := match s.alloc.filling with
    | some z => (z.zone, z.fill)
    | none => (0, 0)
  be 4 ref.toNat ++ be 2 s.ret.day ++ be 4 s.alloc.fifo.length ++ be 4 fill.1 ++ be 2 fill.2 ++ be 1 s.ctxs.length
    ++ be 2 s.client.slots.length ++ be 8 s.jr.head ++ be 8 s.jr.readPtr ++ be 2 s.attention ++ be 1 s.set.work.maskLevel
    ++ linkBytes s.audit.head ++ be 2 s.audit.patrol.window ++ be 4 s.audit.patrol.index ++ be 1 s.audit.queue.length
    ++ be 1 s.ret.holds.length ++ settingsBytes s.set.work

/-- A SNAPSHOT is appended with the values that stand when it is placed, after the buffer has passed on if it must (R146, R157,
entry 32). -/
def State.appendSnapshot (ref : BitVec 32) (s : State) : State :=
  let a : Append := { code := 0x000F, body := s.snapshotBody ref }
  if s.jr.waitList.isEmpty && s.canAppend a then
    let s := if s.fits a then s else s.passBlock
    s.appendNow { code := 0x000F, body := s.snapshotBody ref }
  else s.append a

/-- REPORT (R157). -/
def execReport (tag : Byte) (ref : BitVec 32) (s : State) : Result :=
  .next (s.own tag (.report tag ref) fun o s =>
    s.ifJournal o fun s => (s.appendSnapshot ref).answer o .good none)

/-! ### INQUIRE (R158) -/

/-- The body of the VOLUME entry of a window (R158, 12.4). -/
def State.inquireBody (ref : BitVec 32) (w first : Nat) (s : State) : List Byte :=
  match s.vol w with
  | none => volumeFreeBody ref.toNat w
  | some v =>
    match s.ctx w with
    | none => volumeBody ref.toNat v v.counts none first
    | some c =>
      volumeBody ref.toNat v c.counts
        (some (c.framer, c.carry.length, c.committed, (s.pendOf c.serial).length)) first

/-- INQUIRE (R158). -/
def execInquire (tag : Byte) (ref : BitVec 32) (window : BitVec 16) (first : BitVec 32) (s : State) : Result :=
  .next (s.own tag (.inquire tag ref window first) fun o s =>
    if 4095 ≤ window.toNat then s.deny o .badField
    else s.ifJournal o fun s =>
      (s.append { code := 0x0010, body := s.inquireBody ref window.toNat first.toNat }).answer o .good none)

/-! ### CLOSE and RESOLVE (R18, R19) -/

/-- The cases that a directive naming a volume shares (1.9): BAD_FIELD for a window that is no volume window, NO_SUCH_VOLUME for
a FREE window or another serial. -/
def State.named (o : Option Nat) (window : BitVec 16) (serial : BitVec 32) (s : State) (body : Volume → State) : State :=
  if 4095 ≤ window.toNat then s.deny o .badField
  else
    match s.vol window.toNat with
    | none => s.deny o .noSuchVolume
    | some v => if v.serial == serial.toNat then body v else s.deny o .noSuchVolume

/-- A SUSPENDED volume enters CLOSING with its restored running state (R18, R19, R59). -/
def State.closeSuspended (w : Nat) (ref : BitVec 32) (o : Option Nat) (s : State) : State :=
  ((s.answer o .good none).enterClosing w .segments (some ref.toNat)).framerStop w

/-- CLOSE (R18). -/
def execClose (tag : Byte) (ref : BitVec 32) (window : BitVec 16) (serial : BitVec 32) (s : State) : Result :=
  .next (s.own tag (.close tag ref window serial) fun o s =>
    s.named o window serial fun v =>
      match v.state with
      | .opened => ((s.answer o .good none).enterClosing v.window .taking (some ref.toNat)).endTaking v.window
      | .suspended => s.closeSuspended v.window ref o
      | _ => s.deny o .wrongState)

/-- RESOLVE RESUME of a SUSPENDED volume that is taken (R19). -/
def State.resumeTaken (ref : BitVec 32) (v : Volume) (o : Option Nat) (s : State) : State :=
  let s := (s.loadIdle v.window).rewriteVol v.window (fun v => { v with state := .opened }) [.resume o]
  s.append { code := 0x000D, body := resumedBody (some ref.toNat) v.window v.serial v.ingest }

/-- RESOLVE with choice RESUME (R19). -/
def execResolveResume (tag : Byte) (ref : BitVec 32) (window : BitVec 16) (serial : BitVec 32) (s : State) : Result :=
  .next (s.own tag (.resolveResume tag ref window serial) fun o s =>
    s.named o window serial fun v =>
      if v.state == .suspended then s.ifJournal o fun s => s.ifStore o (State.resumeTaken ref v o)
      else s.deny o .wrongState)

/-- RESOLVE with choice ABANDON (R19). -/
def execResolveAbandon (tag : Byte) (ref : BitVec 32) (window : BitVec 16) (serial : BitVec 32) (s : State) : Result :=
  .next (s.own tag (.resolveAbandon tag ref window serial) fun o s =>
    s.named o window serial fun v =>
      if v.state == .suspended then s.closeSuspended v.window ref o else s.deny o .wrongState)

/-! ### Tariff directives (R48 to R50) -/

/-- A bank is in use: active, or the bank of an OPEN, SUSPENDED or CLOSING volume (R48). -/
def State.bankInUse (b : Nat) (s : State) : Bool :=
  s.tariff.active == b
    || s.vols.any fun v => v.bank == b && (v.state == .opened || v.state == .suspended || v.state == .closing)

/-- An entry's values lie in their ranges (3.7). -/
def tariffEntryValid (e : TariffEntry) : Bool := e.initial.toNat ≤ 3600 && e.step.toNat ≤ 3600

/-- A run of entries replaces those from `first` on (R49). -/
def replaceRun (first : Nat) (es bank : List TariffEntry) : List TariffEntry :=
  bank.take first ++ es ++ bank.drop (first + es.length)

/-- The bank's entries are replaced (R49). -/
def TariffUnit.load (b first : Nat) (es : List TariffEntry) (t : TariffUnit) : TariffUnit :=
  if b == 0 then { t with bank0 := replaceRun first es t.bank0 } else { t with bank1 := replaceRun first es t.bank1 }

/-- A TARIFF_LOAD that is taken (R49). -/
def State.tariffLoadTaken (ref : BitVec 32) (bank first : Byte) (es : List TariffEntry) (o : Option Nat) (s : State) : State :=
  let s := { s with tariff := s.tariff.load bank.toNat first.toNat es }
  (s.callSettings (.directive o)).appendSettings ref 7 ([bank, first] ++ be 1 es.length)

/-- TARIFF_LOAD's fields lie in their ranges (R49 case 2). -/
def tariffLoadValid (bank first : Byte) (es : List TariffEntry) : Bool :=
  bank.toNat ≤ 1 && first.toNat ≤ 63 && !es.isEmpty && first.toNat + es.length ≤ 64 && es.all tariffEntryValid

/-- TARIFF_LOAD (R49). -/
def execTariffLoad (tag : Byte) (ref : BitVec 32) (bank first : Byte) (es : List TariffEntry) (s : State) : Result :=
  .next (s.own tag (.tariffLoad tag ref bank first es) fun o s =>
    if !tariffLoadValid bank first es then s.deny o .badField
    else if s.bankInUse bank.toNat then s.deny o .bankInUse
    else s.ifJournal o fun s => s.ifStore o (State.tariffLoadTaken ref bank first es o))

/-- A TARIFF_SELECT that is taken (R50). -/
def State.tariffSelectTaken (ref : BitVec 32) (bank : Byte) (o : Option Nat) (s : State) : State :=
  let s := { s with tariff := { s.tariff with active := bank.toNat } }
  (s.callSettings (.directive o)).appendSettings ref 8 [bank]

/-- TARIFF_SELECT (R50). A bank that is not 0 or 1 is refused before JOURNAL_FULL and the store link are looked at: R50 gives BAD_FIELD
no place among the cases it takes from R49 (DESIGN CHOICE, entry 47). -/
def execTariffSelect (tag : Byte) (ref : BitVec 32) (bank : Byte) (s : State) : Result :=
  .next (s.own tag (.tariffSelect tag ref bank) fun o s =>
    if 1 < bank.toNat then s.deny o .badField
    else s.ifJournal o fun s => s.ifStore o (State.tariffSelectTaken ref bank o))

/-! ### CLEAR_ATTENTION (R164) -/

/-- The latched items without those of an item set: bits 6 to 10 (R164, R172). -/
def Latched.clear (items : BitVec 16) (l : Latched) : Latched where
  volumeStalled := l.volumeStalled && !items.getLsbD 6
  discrepantClose := l.discrepantClose && !items.getLsbD 7
  damageFound := l.damageFound && !items.getLsbD 8
  storeFault := l.storeFault && !items.getLsbD 9
  expiryBlocked := l.expiryBlocked && !items.getLsbD 10

/-- The item set names at least one item and only latched ones, bits 6 to 10 (R164, R172). -/
def clearValid (items : BitVec 16) : Bool := items != 0 && items &&& 0xF83F == 0

/-- CLEAR_ATTENTION (R164). -/
def execClearAttention (tag : Byte) (ref : BitVec 32) (items : BitVec 16) (s : State) : Result :=
  .next (s.own tag (.clearAttention tag ref items) fun o s =>
    if !clearValid items then s.deny o .badField
    else State.answer o .good none { s with latched := s.latched.clear items })

end Sys2Proof.Machine
end

