-- ==== Sys2Proof/Machine/Audit.lean ====
section
/-! DEFINITION. The audit unit's directives and verifications (chapter 8): ACCEPT (R131), VERIFY and REVOKE (R141, R143), the
verification of a segment (R135 to R137), the patrol (R138 to R140) and the verify queue (R142). -/

namespace Sys2Proof.Machine

/-! ### ACCEPT (R131) -/

/-- An ACCEPT that changes the audit state (R131). -/
def State.acceptTaken (ref : BitVec 32) (v : Volume) (o : Option Nat) (s : State) : State :=
  let s := s.rewriteVol v.window (fun v => { v with audit := .accepted, flags := none }) []
  (s.append { code := 0x000A, body := acceptBody ref.toNat v }).answer o .good none

/-- ACCEPT (R131). -/
def execAccept (tag : Byte) (ref : BitVec 32) (window : BitVec 16) (serial : BitVec 32) (s : State) : Result :=
  .next (s.own tag (.accept tag ref window serial) fun o s =>
    s.named o window serial fun v =>
      if v.state != .closed || v.audit == .reconciled then s.deny o .wrongState
      else if v.audit == .accepted then s.answer o .good none
      else s.ifJournal o (State.acceptTaken ref v o))

/-! ### VERIFY and REVOKE (R141, R143) -/

/-- A volume joins the verify queue (R141). -/
def State.queueVerify (ref : BitVec 32) (v : Volume) (s : State) : State :=
  let s := s.modVol v.window fun v => { v with verifyQueued := true }
  { s with audit := { s.audit with queue := s.audit.queue ++ [{ window := v.window, serial := v.serial, ref := ref.toNat }] } }

/-- VERIFY (R141). -/
def execVerify (tag : Byte) (ref : BitVec 32) (window : BitVec 16) (serial : BitVec 32) (s : State) : Result :=
  .next (s.own tag (.verify tag ref window serial) fun o s =>
    s.named o window serial fun v =>
      if v.state != .closed then s.deny o .wrongState
      else if v.verifyQueued || v.verifying then s.answer o .good none
      else if 16 ≤ s.audit.queue.length then s.deny o .queueFull
      else (s.queueVerify ref v).answer o .good none)

/-- A volume leaves the verify queue (R143). -/
def State.unqueueVerify (v : Volume) (s : State) : State :=
  let s := s.modVol v.window fun v => { v with verifyQueued := false }
  { s with audit := { s.audit with
    queue := s.audit.queue.filter fun q => !(q.window == v.window && q.serial == v.serial) } }

/-- REVOKE (R143). -/
def execRevoke (tag : Byte) (ref : BitVec 32) (window : BitVec 16) (serial : BitVec 32) (s : State) : Result :=
  .next (s.own tag (.revoke tag ref window serial) fun o s =>
    s.named o window serial fun v =>
      if v.verifying then s.deny o .tooLate
      else if !v.verifyQueued then s.deny o .noSuchVolume
      else (s.unqueueVerify v).answer o .good none)

/-! ### Verifying a segment (R135, R136) -/

/-- Steps 3 to 6 of R135 on the blocks read: the register after the segment, or the failure. -/
def checkSegment (v : Volume) (index : Nat) (e : MapEntry) (reg : BitVec 64) (blocks : List Block) :
    Except FaultClass (BitVec 64) :=
  match decodeStored v.window v.serial index e blocks with
  | none => .error .check
  | some (h, bs) =>
    let r := crc64Run reg bs.flatten
    if r != h.run.digest then .error .mismatch
    else if index + 1 == v.map.length && ~~~r != digestOf v then .error .mismatch
    else .ok r

/-- The outcome of a verification read: the blocks checked (R135), or the failure of the read. -/
def readOutcome (v : Volume) (index : Nat) (e : MapEntry) (reg : BitVec 64) (out : Except FaultClass (List Block)) :
    Except FaultClass (BitVec 64) :=
  match out with
  | .error cls => .error cls
  | .ok bs => checkSegment v index e reg bs

/-- What an attempt's outcome leads to (R136). -/
inductive Attempt where
  | clean (reg : BitVec 64)
  | again (cls : FaultClass)
  | verdict (v : Verdict) (cls : FaultClass)

/-- R136's two tables; `first` is the class of a first failure. -/
def judge (first : Option FaultClass) (out : Except FaultClass (BitVec 64)) : Attempt :=
  match out with
  | .ok r => .clean r
  | .error .mismatch => .verdict .mismatch .mismatch
  | .error .lost => .verdict .lost .lost
  | .error .linkDown => .verdict .incomplete .linkDown
  | .error cls =>
    if first.isNone then .again cls
    else if cls == .timeout then .verdict .incomplete cls
    else .verdict .damaged cls

/-- A clean second attempt after MEDIUM or CHECK (R136): STORE_FAULT and FAULT entry RECOVERED. -/
def State.readRecovered (v : Volume) (index : Nat) (e : MapEntry) (first : Option FaultClass) (s : State) : State :=
  match first with
  | none => s
  | some cls =>
    if cls == .medium || cls == .check then
      s.setStoreFault.appendFault
        { kind := .readRecovered, cls, vol := some (v.window, v.serial), seg := some (index, e.first, e.count) }
    else s

/-- A verdict is recorded in the volume table (R137). -/
def State.recordVerdict (w serial : Nat) (d : Verdict) (s : State) : State :=
  if d == .damaged || d == .mismatch then
    match s.vol w with
    | none => s
    | some v =>
      if v.serial == serial && v.state == .closed then
        (if v.audit == .damaged then s else s.rewriteVol w damagedRecord []).setDamage
      else s
  else s

/-- The audit state that the volume holds (R137). -/
def State.auditOf (w serial : Nat) (s : State) : AuditState :=
  match s.vol w with
  | none => .pending
  | some v => if v.serial == serial then v.audit else .pending

/-- A verification ends: the verdict is recorded and its VERIFY entry appended (R137). -/
def State.endVerification (w serial : Nat) (ref : Option Nat) (d : Verdict) (clean : Nat)
    (failing : Option (Nat × FaultClass)) (s : State) : State :=
  let s := s.recordVerdict w serial d
  s.append
    { code := 0x000B, body := verifyBody w serial ref d clean failing (s.auditOf w serial)
      who := if ref.isSome then .verification else .patrol }

/-! ### The patrol (R138 to R140) -/

/-- The store read of a segment's verification (R135). -/
def verifyReq (user : StoreUser) (e : MapEntry) : StoreReq :=
  { cls := 5, user, op := .read, block := e.zone * 4096 + e.off, count := e.len }

/-- Change the patrol. -/
def State.modPatrol (f : Patrol → Patrol) (s : State) : State := { s with audit := { s.audit with patrol := f s.audit.patrol } }

/-- The patrol's verification of a volume ends (R137, R138); after a verdict other than VERIFIED the cursor moves on. -/
def State.endPatrol (w serial : Nat) (d : Verdict) (clean : Nat) (failing : Option (Nat × FaultClass)) (s : State) : State :=
  let s := s.modPatrol fun p =>
    { p with active := none, entryWaits := true, serial := if d == .verified then p.serial else none }
  s.endVerification w serial none d clean failing

/-- The patrol verifies the segment under its cursor (R135, R138): a volume with no segment against digest 0, a LOST entry at
once, else by a store read. -/
def State.patrolSegment (v : Volume) (index : Nat) (s : State) : State :=
  match v.map[index]? with
  | none =>
    if digestOf v == 0 then s.endPatrol v.window v.serial .verified 0 none
    else s.endPatrol v.window v.serial .mismatch 0 (some (0, .mismatch))
  | some e =>
    if e.kind == .lost then s.endPatrol v.window v.serial .lost index (some (index, .lost))
    else
      (s.enqueue (verifyReq (.patrol v.serial index) e)).modPatrol fun p => { p with active := some none }

/-- The volume of the lower window. -/
def lowerWindow (a : Option Volume) (v : Volume) : Option Volume :=
  match a with
  | none => some v
  | some u => if v.window < u.window then some v else some u

/-- The next CLOSED volume after a window, going round; the window itself last (R138). -/
def State.nextClosed (w : Nat) (s : State) : Option Volume :=
  let closed := s.vols.filter (·.state == .closed)
  match (closed.filter fun v => w < v.window).foldl lowerWindow none with
  | some v => some v
  | none => closed.foldl lowerWindow none

/-- The volume under the cursor is still CLOSED with the cursor's serial (R138, R140). -/
def State.underCursor (s : State) : Option Volume :=
  (s.vol s.audit.patrol.window).filter fun v => v.state == .closed && s.audit.patrol.serial == some v.serial

/-- The cursor moves on and the patrol verifies the volume it finds (R138). -/
def State.movePatrol (s : State) : State :=
  match s.nextClosed s.audit.patrol.window with
  | none => s.modPatrol fun p => { p with index := 0, serial := none, reg := crc64Preset }
  | some v =>
    (s.modPatrol fun p => { p with window := v.window, index := 0, serial := some v.serial, reg := crc64Preset }).patrolSegment
      v 0

/-- The patrol may take a turn (R139, R142). -/
def State.patrolReady (s : State) : Bool :=
  let p := s.audit.patrol
  s.running && !s.resetHeld && p.timer && p.active.isNone && !p.entryWaits && s.audit.current.isNone && s.audit.queue.isEmpty

/-- PATROL_TURN (R139): the interval timer has run out. -/
def execPatrolTurn (s : State) : Result :=
  .next (if !s.patrolReady then s
    else match s.underCursor with
      | none => s.movePatrol
      | some v => if s.audit.patrol.index < v.map.length then s.patrolSegment v s.audit.patrol.index else s.movePatrol)

/-- The patrol's outcome for the segment under its cursor (R136, R138). -/
def State.patrolOutcome (v : Volume) (index : Nat) (e : MapEntry) (first : Option FaultClass)
    (out : Except FaultClass (BitVec 64)) (s : State) : State :=
  match judge first out with
  | .again cls => (s.enqueue (verifyReq (.patrol v.serial index) e)).modPatrol fun p => { p with active := some (some cls) }
  | .verdict d cls => s.endPatrol v.window v.serial d index (some (index, cls))
  | .clean r =>
    let s := (s.readRecovered v index e first).modPatrol fun p => { p with active := none, index := index + 1, reg := r }
    if index + 1 == v.map.length then s.endPatrol v.window v.serial .verified (index + 1) none else s

/-- A patrol read ends (R135, R140): discarded when the volume under the cursor has changed, or the part is HALTED (R144). -/
def State.patrolReadEnds (serial index : Nat) (out : Except FaultClass (List Block)) (s : State) : State :=
  let p := s.audit.patrol
  match p.active with
  | none => s
  | some first =>
    if s.isHalted || p.serial != some serial || p.index != index then s
    else
      match s.underCursor with
      | none => s.modPatrol fun p => { p with active := none, serial := none }
      | some v =>
        match v.map[index]? with
        | none => s.modPatrol fun p => { p with active := none, serial := none }
        | some e => s.patrolOutcome v index e first (readOutcome v index e p.reg out)

/-! ### The verify queue (R142) -/

/-- Change the verification in progress. -/
def State.modCurrent (f : Verification → Verification) (s : State) : State :=
  { s with audit := { s.audit with current := s.audit.current.map f } }

/-- The verification in progress ends (R137, R142). -/
def State.endQueued (c : Verification) (d : Verdict) (clean : Nat) (failing : Option (Nat × FaultClass)) (s : State) : State :=
  (s.modCurrent fun c => { c with entryWaits := true }).endVerification c.window c.serial (some c.ref) d clean failing

/-- The verification in progress takes up a segment, or ends after the last (R135, R142). -/
def State.verifySegment (c : Verification) (v : Volume) (index : Nat) (s : State) : State :=
  match v.map[index]? with
  | none =>
    if index == 0 && digestOf v != 0 then s.endQueued c .mismatch 0 (some (0, .mismatch))
    else s.endQueued c .verified index none
  | some e =>
    if e.kind == .lost then s.endQueued c .lost index (some (index, .lost))
    else s.enqueue (verifyReq (.queueVerify c.serial index) e)

/-- QUEUE_VERIFICATION_BEGIN (R142): nothing while one is in progress, the queue is empty, or the part is not running. -/
def execQueueVerificationBegin (s : State) : Result :=
  .next (match s.audit.current, s.audit.queue with
    | none, q :: rest =>
      match s.vol q.window with
      | none => s
      | some v =>
        if s.running && !s.resetHeld && v.serial == q.serial then
          let c : Verification := { window := q.window, serial := q.serial, ref := q.ref }
          let s := s.modVol q.window fun v => { v with verifyQueued := false, verifying := true }
          State.verifySegment c v 0 { s with audit := { s.audit with queue := rest, current := some c } }
        else s
    | _, _ => s)

/-- The outcome of the read of the verification in progress (R136, R142). -/
def State.queueOutcome (c : Verification) (v : Volume) (e : MapEntry) (out : Except FaultClass (BitVec 64)) (s : State) :
    State :=
  match judge c.firstFail out with
  | .again cls =>
    (s.enqueue (verifyReq (.queueVerify c.serial c.index) e)).modCurrent fun c => { c with firstFail := some cls }
  | .verdict d cls => s.endQueued c d c.index (some (c.index, cls))
  | .clean r =>
    let c' := { c with index := c.index + 1, reg := r, firstFail := none }
    ((s.readRecovered v c.index e c.firstFail).modCurrent fun _ => c').verifySegment c' v (c.index + 1)

/-- The read of the verification in progress ends (R135); nothing follows while the part is HALTED (R144). -/
def State.queueReadEnds (serial index : Nat) (out : Except FaultClass (List Block)) (s : State) : State :=
  match s.audit.current with
  | none => s
  | some c =>
    if s.isHalted || c.serial != serial || c.index != index || c.entryWaits then s
    else
      match s.vol c.window with
      | none => s
      | some v =>
        match v.map[index]? with
        | none => s
        | some e => s.queueOutcome c v e (readOutcome v index e c.reg out)

end Sys2Proof.Machine
end

