-- ==== Sys2Proof/Machine/Operands.lean ====
section
/-! DEFINITION. The operand forms: the fields of a client block address (00_scope.md 1.4, 12.5), and the fields of a directive block
(12.2, R153, R172). -/

namespace Sys2Proof.Machine

/-! ### Client addresses (00_scope.md 1.4) -/

/-- The window of a client block address: the upper 12 of its low 36 bits; the bits above are ignored (00_scope.md 1.4, 12.5). -/
def addrWindow (a : BitVec 64) : Nat := a.toNat / 16777216 % 4096

/-- The offset of a client block address: its low 24 bits (00_scope.md 1.4). -/
def addrOffset (a : BitVec 64) : Nat := a.toNat % 16777216

/-! ### Directive blocks (12.2) -/

/-- The 16 bytes that a directive block opens with. -/
def directiveMarker (b : Block) : BitVec 128 := BitVec.ofNat 128 (fld b 0 16)

/-- The CRC-32 of a directive block matches bytes 4092 to 4095 (R152). -/
def directiveCheckGood (b : Block) : Bool := (crc32 (b.take 4092)).toNat == fld b 4092 4

/-- A field of a directive's body as a bit vector. -/
def bodyField (w : Nat) (body : List Byte) (start len : Nat) : BitVec w := BitVec.ofNat w (fld body start len)

/-- The body of CONFIGURE (12.2). -/
def configureOf (b : List Byte) : ConfigureBody where
  mask := bodyField 16 b 0 2
  mode := bodyField 8 b 2 1
  policy := bodyField 8 b 3 1
  idleLimit := bodyField 8 b 4 1
  idleUnit := bodyField 8 b 5 1
  storeTimeout := bodyField 8 b 6 1
  linkLoss := bodyField 8 b 7 1
  spaceLow := bodyField 16 b 8 2
  journalHigh := bodyField 8 b 10 1
  maskLevel := bodyField 8 b 11 1
  patrolRate := bodyField 8 b 12 1
  readAhead := bodyField 8 b 13 1

/-- The entries of a TARIFF_LOAD, G, zero, I, S and rate each; none when a zero byte is not zero (12.2, R172). -/
def tariffEntriesOf : Nat → List Byte → Option (List TariffEntry)
  | 0, _ => some []
  | n + 1, b =>
    if fld b 1 1 != 0 then none
    else (tariffEntriesOf n (b.drop 8)).map fun rest =>
      { grace := bodyField 8 b 0 1, initial := bodyField 16 b 2 2, step := bodyField 16 b 4 2, rate := bodyField 16 b 6 2 }
        :: rest

/-- The length that the body of a directive code must have (12.2); the body itself gives it for TARIFF_LOAD. -/
def bodyLength (code : Nat) (body : List Byte) : Option Nat :=
  match code with
  | 1 => some 14
  | 2 => some 16
  | 3 => some 0
  | 4 => some 6
  | 5 => some 6
  | 6 => some 7
  | 7 => some (3 + 8 * fld body 2 1)
  | 8 => some 1
  | 9 => some 2
  | 10 => some 6
  | 11 => some 9
  | 12 => some 2
  | 13 => some 6
  | 14 => some 6
  | 15 => some 6
  | 16 => some 2
  | _ => none

/-- The command that a directive code and a body of the right length spell; none for a RESOLVE choice outside its list and for
a TARIFF_LOAD zero byte that is not zero (R172). -/
def directiveCommand (t : Byte) (ref : BitVec 32) (code : Nat) (b : List Byte) : Option Instr :=
  match code with
  | 1 => some (.configure t ref (configureOf b))
  | 2 => some (.signature t ref (bodyField 128 b 0 16))
  | 3 => some (.report t ref)
  | 4 => some (.inquire t ref (bodyField 16 b 0 2) (bodyField 32 b 2 4))
  | 5 => some (.close t ref (bodyField 16 b 0 2) (bodyField 32 b 2 4))
  | 6 =>
    match fld b 6 1 with
    | 0 => some (.resolveResume t ref (bodyField 16 b 0 2) (bodyField 32 b 2 4))
    | 1 => some (.resolveAbandon t ref (bodyField 16 b 0 2) (bodyField 32 b 2 4))
    | _ => none
  | 7 =>
    (tariffEntriesOf (fld b 2 1) (b.drop 3)).map fun es => .tariffLoad t ref (bodyField 8 b 0 1) (bodyField 8 b 1 1) es
  | 8 => some (.tariffSelect t ref (bodyField 8 b 0 1))
  | 9 => some (.calendar t ref (bodyField 16 b 0 2))
  | 10 => some (.retention t ref (bodyField 8 b 0 1) (bodyField 16 b 1 2) (bodyField 16 b 3 2) (bodyField 8 b 5 1))
  | 11 => some (.hold t ref (bodyField 16 b 0 2) (bodyField 8 b 2 1) (bodyField 16 b 3 2) (bodyField 16 b 5 2)
      (bodyField 16 b 7 2))
  | 12 => some (.release t ref (bodyField 16 b 0 2))
  | 13 => some (.accept t ref (bodyField 16 b 0 2) (bodyField 32 b 2 4))
  | 14 => some (.verify t ref (bodyField 16 b 0 2) (bodyField 32 b 2 4))
  | 15 => some (.revoke t ref (bodyField 16 b 0 2) (bodyField 32 b 2 4))
  | 16 => some (.clearAttention t ref (bodyField 16 b 0 2))
  | _ => none

/-- The owner's command for a directive block that passed R152, or the reason it is refused with at dispatch (R153, R172). -/
def decodeDirective (t : Byte) (b : Block) : Except Reason Instr :=
  let code := fld b 16 2
  let len := fld b 22 2
  let body := slice b 24 len
  match bodyLength code body with
  | none => .error .unknownDirective
  | some want =>
    if 4068 < len || len != want then .error .badField
    else
      match directiveCommand t (BitVec.ofNat 32 (fld b 18 4)) code body with
      | none => .error .badField
      | some c => .ok c

end Sys2Proof.Machine
end

