-- ==== Sys2Proof/WellFormed.lean ====
section
/-! DEFINITION. Which commands a link or the part itself can produce. `Instr.wf` refuses a DATA message whose block is not
4096 bytes (12.5), a CLIENT_CAPACITY whose operation is READ, WRITE or SYNC (R24), and a TARIFF_LOAD of more entries than
its one-byte entry count can name (12.2). -/

namespace Sys2Proof

/-- A DATA message carries exactly 4096 bytes (2.1, 12.5). -/
def blockWf (b : Block) : Bool := b.length == 4096

/-- The row CLIENT_CAPACITY stands for operation 4 and for every code outside 1 to 4 (R24, 12.5). -/
def capacityOpWf (op : Byte) : Bool := op != 1 && op != 2 && op != 3

/-- TARIFF_LOAD's entry count is one byte (12.2). -/
def tariffListWf (es : List TariffEntry) : Bool := es.length ≤ 255

/-- A command that can occur. -/
def Instr.wf : Instr → Bool
  | .clientData _ _ b => blockWf b
  | .storeData _ _ b => blockWf b
  | .clientCapacity _ op _ _ => capacityOpWf op
  | .tariffLoad _ _ _ _ es => tariffListWf es
  | _ => true

end Sys2Proof
end

