-- ==== Sys2Proof/Machine/Client.lean ====
section
/-! DEFINITION. The client port (chapter 2): requests, DATA, examination, opening, ABORT and the client link's state. -/

namespace Sys2Proof.Machine

/-- Messages of the client link are taken: the link is UP and RESET_N is not held (R22, R165). -/
def State.clientLive (s : State) : Bool := s.client.up && !s.resetHeld

/-! ### The common checks (R24) -/

/-- A request is answered at once by a completion without a table entry (R23, R24). -/
def State.turnAway (tag : Byte) (st : Status) (r : Option Reason) (s : State) : State :=
  s.send (.completion tag.toNat st r 0)

/-- The start-up and halt check of R24, first case. -/
def State.notServing (s : State) : Option Status :=
  if s.haltedEarly then some .halted else if s.starting then some .busyRetry else none

/-- The tag of a request is above 31 or names an entry (R24). -/
def State.badTag (tag : Byte) (s : State) : Bool := 31 < tag.toNat || (s.tag tag.toNat).isSome

/-- The checks of R24 on a READ or a WRITE: none when it passes. -/
def State.checkTransfer (tag : Byte) (addr : BitVec 64) (count : BitVec 16) (s : State) : Option (Status × Option Reason) :=
  match s.notServing with
  | some st => some (st, none)
  | none =>
    if s.badTag tag || count == 0 || 256 < count.toNat then some (.refused, some .badRequest)
    else if 16777215 < addrOffset addr + count.toNat - 1 then some (.refused, some .crossesWindow)
    else none

/-- The checks of R24 on a SYNC: none when it passes. -/
def State.checkSync (tag : Byte) (count : BitVec 16) (s : State) : Option (Status × Option Reason) :=
  match s.notServing with
  | some st => some (st, none)
  | none => if s.badTag tag || count != 0 then some (.refused, some .badRequest) else none

/-! ### READ (R34) -/

/-- A SERVING entry (R23, R34). -/
def servingEntry (tag : Byte) (w off count : Nat) (serial : Option Nat) : TagEntry :=
  { tag := tag.toNat, op := .read, phase := .serving, window := w, offset := off, count, serial }

/-- A READ that passed R24 is routed (R34). -/
def State.routeRead (tag : Byte) (w off count : Nat) (s : State) : State :=
  if w == 4095 then s.addTag (servingEntry tag w off count none)
  else
    match s.vol w with
    | none => s.addTag (servingEntry tag w off count none)
    | some v =>
      match v.state with
      | .expiring => s.turnAway tag .expired none
      | .closed => s.addTag (servingEntry tag w off count (some v.serial))
      | _ => if s.isHalted then s.turnAway tag .halted none else s.addTag (servingEntry tag w off count (some v.serial))

/-- READ (R24, R34). -/
def execRead (tag : Byte) (addr : BitVec 64) (count : BitVec 16) (s : State) : Result :=
  .next (if !s.clientLive then s
    else match s.checkTransfer tag addr count with
      | some (st, r) => s.turnAway tag st r
      | none => s.routeRead tag (addrWindow addr) (addrOffset addr) count.toNat)

/-! ### WRITE: routing and admission (R25, R27) -/

/-- Where R25 sends a write. -/
inductive WriteRoute where
  /-- completed with this status and reason -/
  | done (st : Status) (r : Option Reason)
  /-- put aside until its examined block arrives -/
  | await
  /-- an opening write -/
  | opening
  /-- the staging admission test of the window's volume -/
  | admitted (v : Volume)
  deriving DecidableEq, Repr

/-- R25's cases in order; at the examination the count-1 case is skipped (R26). -/
def State.routeWrite (examined : Bool) (w off count : Nat) (s : State) : WriteRoute :=
  if s.isHalted then .done .halted none
  else if count == 1 && !examined then .await
  else if w == 4095 then .done .refused (some .journalReadOnly)
  else if 64 < count then .done .refused (some .badRequest)
  else
    match s.vol w with
    | none => if off == 0 then .opening else .done .busyRetry none
    | some v =>
      match v.state with
      | .expiring => .done .refused (some .windowBusy)
      | .opened => .admitted v
      | _ => .done .refused (some .volumeClosed)

/-- FREE slots of the staging pool (R27). -/
def State.freeSlots (s : State) : Nat := 256 - s.client.slots.length

/-- The admission test: none when the request is admitted (R27). -/
def State.admission (v : Volume) (off count : Nat) (s : State) : Option (Status × Option Reason) :=
  if off < v.ingest || s.client.slots.any (fun x => x.serial == v.serial && off ≤ x.offset && x.offset < off + count) then
    some (.refused, some .appendOnly)
  else if v.ingest + 63 < off + count - 1 then some (.busyRetry, none)
  else if s.freeSlots < count then some (.busyRetry, none)
  else none

/-- One RESERVED slot per block (R27). -/
def reserveSlots (serial tag off : Nat) : Nat → List Slot
  | 0 => []
  | n + 1 => { serial, offset := off, tag } :: reserveSlots serial tag (off + 1) n

/-- The entry of an admitted write (R23, R27, R32). -/
def admitEntry (serial : Nat) (mode : CompletionMode) (e : TagEntry) : TagEntry :=
  { e with phase := .receiving, serial := some serial, mode := some mode, held := none }

/-- A write is admitted: slots reserved, idle timer loaded, STALLED cleared (R27); its entry is already in the table. -/
def State.admitWrite (t : Nat) (v : Volume) (off count : Nat) (s : State) : State :=
  let s := { s with client := { s.client with slots := s.client.slots ++ reserveSlots v.serial t off count } }
  let s := s.modTag t (admitEntry v.serial s.set.work.mode)
  (s.loadIdle v.window).modVol v.window fun v => { v with stalled := false }

/-- The entry of a write put aside (R23). -/
def awaitEntry (tag : Byte) (w off count : Nat) : TagEntry :=
  { tag := tag.toNat, op := .write, phase := .awaitingBlock, window := w, offset := off, count }

/-- The request is an opening write as it arrives (R25): offset 0 of a FREE window. -/
def State.isOpening (w off : Nat) (s : State) : Bool := w != 4095 && off == 0 && (s.vol w).isNone

/-- A write that is put aside at its REQUEST (R25, R26). -/
def State.putAside (tag : Byte) (w off count : Nat) (s : State) : State :=
  s.addTag { awaitEntry tag w off count with opening := s.isOpening w off }

/-- WRITE (R24, R25, R27). -/
def execWrite (tag : Byte) (addr : BitVec 64) (count : BitVec 16) (s : State) : Result :=
  .next (if !s.clientLive then s
    else match s.checkTransfer tag addr count with
      | some (st, r) => s.turnAway tag st r
      | none =>
        let w := addrWindow addr
        let off := addrOffset addr
        let n := count.toNat
        match s.routeWrite false w off n with
        | .done st r => s.turnAway tag st r
        | .await => s.putAside tag w off n
        | .opening => s.putAside tag w off n
        | .admitted v =>
          match s.admission v off n with
          | some (st, r) => s.turnAway tag st r
          | none => (s.addTag (awaitEntry tag w off n)).admitWrite tag.toNat v off n)

/-! ### SYNC (R33, R147) -/

/-- The offset that the framer would reach by taking every contiguous HELD slot, at most `n` of them (R33). -/
def State.contiguous (serial : Nat) (s : State) : Nat → Nat → Nat
  | 0, i => i
  | n + 1, i => if (s.heldAt serial i).isSome then s.contiguous serial n (i + 1) else i

/-- A SYNCING entry (R23, R33). -/
def syncEntry (tag : Byte) (w : Nat) (serial target : Option Nat) (writes : Nat) : TagEntry :=
  { tag := tag.toNat, op := .sync, phase := .syncing, window := w, offset := 0, count := 0, serial, target,
    journalWrites := writes }

/-- A SYNC that still waits while the store link is DOWN in FAIL mode completes UNAVAILABLE (R36). -/
def State.failSync (t : Nat) (s : State) : State :=
  if s.lossFail && (s.tag t).any (·.phase == .syncing) then s.finish t .unavailable else s

/-- SYNC of an OPEN volume (R33). -/
def State.syncOpen (tag : Byte) (v : Volume) (s : State) : State :=
  let target := s.contiguous v.serial 256 v.ingest
  let s := s.addTag (syncEntry tag v.window (some v.serial) (some target) 0)
  let s := if target == v.ingest then s.closeDue .sync v.window else s
  (s.answerOpenSyncs v.window).failSync tag.toNat

/-- Step 1 of the window's close has ended (R12). -/
def State.step1Ended (w : Nat) (s : State) : Bool :=
  (s.ctx w).all fun c => c.close.all fun k => k.stage != .taking && k.stage != .segments

/-- SYNC of a CLOSING volume (R33): when step 1 has ended already it is answered at once. -/
def State.syncClosing (tag : Byte) (v : Volume) (s : State) : State :=
  let e := syncEntry tag v.window (some v.serial) none 0
  let s' := s.addTag e
  if s.step1Ended v.window then answerSync v 16777216 e s' else s'.failSync tag.toNat

/-- SYNC of window 4095 (R147). -/
def State.syncJournal (tag : Byte) (s : State) : State :=
  let earlier := s.jr.writes.filter (·.ring != s.headRing)
  if s.jr.buf.count == 0 && earlier.isEmpty then s.turnAway tag .good none
  else if s.lossFail then s.turnAway tag .unavailable none
  else
    let s := s.addTag (syncEntry tag 4095 none none (1 + earlier.length))
    let s := { s with jr := { s.jr with writes := s.jr.writes.map fun (w : JournalWrite) =>
      if w.ring != s.headRing then { w with waiters := w.waiters ++ [JournalWaiter.sync tag.toNat] } else w } }
    s.callJournal s.headRing (renderJournal s.jr.head s.jr.buf) [.sync tag.toNat]

/-- A SYNC that passed R24 is routed (R33). -/
def State.routeSync (tag : Byte) (w : Nat) (s : State) : State :=
  if s.isHalted then s.turnAway tag .halted none
  else if w == 4095 then s.syncJournal tag
  else
    match s.vol w with
    | none => s.turnAway tag .good none
    | some v =>
      match v.state with
      | .opened => s.syncOpen tag v
      | .closing => s.syncClosing tag v
      | _ => s.turnAway tag .good none

/-- SYNC (R24, R33). -/
def execSync (tag : Byte) (addr : BitVec 64) (count : BitVec 16) (s : State) : Result :=
  .next (if !s.clientLive then s
    else match s.checkSync tag count with
      | some (st, r) => s.turnAway tag st r
      | none => s.routeSync tag (addrWindow addr))

/-! ### CAPACITY and unknown operations (R24) -/

/-- CLIENT_CAPACITY: BAD_REQUEST, but HALTED or BUSY_RETRY by the first check (R24). -/
def execClientCapacity (tag : Byte) (_op : Byte) (_addr : BitVec 64) (_count : BitVec 16) (s : State) : Result :=
  .next (if !s.clientLive then s
    else match s.notServing with
      | some st => s.turnAway tag st none
      | none => s.turnAway tag .refused (some .badRequest))

/-! ### DATA (R21, R28, R30, R31) -/

/-- A write's last block has been received (R23, R30, R31, R36). -/
def State.received (e : TagEntry) (s : State) : State :=
  match e.mode with
  | some .committed =>
    if s.lossFail then s.finish e.tag .unavailable else s.modTag e.tag fun e => { e with phase := .waitingCommit }
  | _ => s.finish e.tag .good

/-- A RESERVED slot of a tag for an offset of its volume. -/
def Slot.awaits (t serial off : Nat) (x : Slot) : Bool :=
  x.tag == t && x.serial == serial && x.offset == off && x.data.isNone

/-- The RESERVED slot becomes HELD (R28). -/
def Slot.fill (t serial off : Nat) (b : Block) (x : Slot) : Slot :=
  if x.awaits t serial off then { x with data := some b } else x

/-- A DATA block is placed in the slot reserved for it; any other DATA is discarded (R21, R28). -/
def State.placeData (t index : Nat) (b : Block) (s : State) : State :=
  match s.tag t with
  | none => s
  | some e =>
    match e.phase, e.serial with
    | .receiving, some serial =>
      let off := e.offset + index
      if s.client.slots.any (Slot.awaits t serial off) then
        let s := { s with client := { s.client with slots := s.client.slots.map (Slot.fill t serial off b) } }
        let e' := { e with done := e.done + 1 }
        let s := s.modTag t fun _ => e'
        if e'.done == e'.count then s.received e' else s
      else s
    | _, _ => s

/-- The DATA that waited on the link for a tag is taken in order (R21, R26). -/
def State.takeLinkData (t : Nat) (s : State) : State :=
  let mine := s.client.linkData.filter (·.tag == t)
  let s := { s with client := { s.client with linkData := s.client.linkData.filter (·.tag != t) } }
  each (fun (d : LinkData) => State.placeData d.tag d.index d.block) mine s

/-! ### Opening a volume (R5 to R8, R39, R60) -/

/-- The identity of a header equals that of a volume that is not FREE (R6). -/
def State.duplicate (hdr : List Byte) (s : State) : Bool :=
  s.vols.any fun v => v.source == headerSource hdr && v.day == headerDay hdr && v.gen == headerGen hdr

/-- An opening write whose window was opened meanwhile by a volume of the same identity (R6): the write's header is valid, and the
window's volume has its identity. A volume of that identity in another window is not looked for (DESIGN CHOICE, entry 42). -/
def State.overtaken (e : TagEntry) (block : Block) (s : State) : Bool :=
  let hdr := block.take 40
  e.opening && validHeader hdr && (s.vol e.window).any fun v =>
    v.source == headerSource hdr && v.day == headerDay hdr && v.gen == headerGen hdr

/-- The first test of an opening write that fails: R5, R6, then R7 in order. -/
def State.openRefusal (block : Block) (count : Nat) (s : State) : Option (Status × Option Reason) :=
  let hdr := block.take 40
  if !validHeader hdr then some (.refused, some .notAVolume)
  else if s.duplicate hdr then some (.refused, some .duplicateVolume)
  else if 32 ≤ s.ctxs.length then some (.refused, some .openLimit)
  else if s.serialCounter == 0 then some (.refused, some .openLimit)
  else if s.journalFull then some (.busyRetry, none)
  else if s.freeSlots < count then some (.busyRetry, none)
  else none

/-- The lowest-numbered free ingest context (R8, R40). -/
def State.lowestContext (s : State) : Nat :=
  ((List.range 32).find? fun n => s.ctxs.all (·.num != n)).getD 32

/-- The record that an open fills (R8 step 1). -/
def State.openRecord (w : Nat) (hdr : List Byte) (s : State) : Volume :=
  { window := w, serial := s.serialCounter, state := .opened, source := headerSource hdr, day := headerDay hdr,
    gen := headerGen hdr, cls := headerClass hdr, openedOn := s.ret.day, bank := s.tariff.active,
    expiry := expiryOf (headerDay hdr) (s.classEntry (headerClass hdr)).days }

/-- A context initialised for a volume (R39, R60). -/
def freshContext (num w serial bank : Nat) : Ctx :=
  { num, window := w, serial, bank, reference := zeroRecord, seg := freshSeg 0 0 .inCalls }

/-- The serial counter after an assignment (R3). -/
def nextSerial (n : Nat) : Nat := if n == 4294967295 then 0 else n + 1

/-- Steps 1 to 4 of an open (R8). -/
def State.openVolume (w : Nat) (hdr : List Byte) (s : State) : State :=
  let v := s.openRecord w hdr
  let c : Ctx :=
    { freshContext s.lowestContext w v.serial v.bank with
      idle := s.set.work.idleLoad, openCatalogue := false, openSettings := false }
  let s := { s.addVol v with ctxs := s.ctxs ++ [c], serialCounter := nextSerial s.serialCounter }
  (s.callCatalogue w [.opening v.serial]).callSettings (.opening v.serial)

/-! ### Examination (R26, R152, R153) -/

/-- A directive block is dispatched, or refused at dispatch (R153). -/
def State.dispatch (t : Nat) (b : Block) (s : State) : State :=
  match decodeDirective (BitVec.ofNat 8 t) b with
  | .error r => s.refuse t r
  | .ok c =>
    let s := s.modTag t fun e => { e with phase := .directive, held := none }
    { s with client := { s.client with dispatched := s.client.dispatched ++ [{ owed := true, command := c }] } }

/-- An admitted or opening write's held block goes into its slot, and its waiting DATA is taken (R26). -/
def State.stageHeld (t : Nat) (b : Block) (s : State) : State := (s.placeData t 0 b).takeLinkData t

/-- The examination of a write whose held block has arrived (R26). -/
def State.examine (e : TagEntry) (b : Block) (s : State) : State :=
  if s.isHalted then s.finish e.tag .halted
  else if e.count == 1 && directiveMarker b == s.set.workMarker then
    (if directiveCheckGood b then s.dispatch e.tag b else s.refuse e.tag .directiveCheck).takeLinkData e.tag
  else if s.overtaken e b then s.refuse e.tag .duplicateVolume
  else
    match s.routeWrite true e.window e.offset e.count with
    | .done st r => s.complete e.tag st r 0
    | .await => s
    | .opening =>
      match s.openRefusal b e.count with
      | some (st, r) => s.complete e.tag st r 0
      | none =>
        let v := s.openRecord e.window (b.take 40)
        ((s.openVolume e.window (b.take 40)).admitWrite e.tag v e.offset e.count).stageHeld e.tag b
    | .admitted v =>
      match s.admission v e.offset e.count with
      | some (st, r) => s.complete e.tag st r 0
      | none => (s.admitWrite e.tag v e.offset e.count).stageHeld e.tag b

/-- A DATA message of the client link is taken, or waits on the link (R21, R26, R28). -/
def State.takeData (t index : Nat) (b : Block) (s : State) : State :=
  match s.tag t with
  | none => s
  | some e =>
    if e.phase == .awaitingBlock then
      if index == 0 then (s.modTag t fun e => { e with held := some b }).examine e b
      else { s with client := { s.client with linkData := s.client.linkData ++ [{ tag := t, index, block := b }] } }
    else s.placeData t index b

/-- CLIENT_DATA (R28). -/
def execClientData (tag : Byte) (index : BitVec 16) (block : Block) (s : State) : Result :=
  if !blockWf block then .fault .notABlock
  else .next (if !s.clientLive then s else s.takeData tag.toNat index.toNat block)

/-! ### ABORT (R35) and the client link (R22) -/

/-- The block field of an ABORTED completion; none for a phase that ignores ABORT (R35). -/
def abortField (e : TagEntry) : Option Nat :=
  match e.phase with
  | .awaitingBlock => some 0
  | .receiving => some e.done
  | .waitingCommit => some e.count
  | .serving => some e.done
  | .syncing => some 0
  | .directive => none

/-- ABORT (R35). -/
def execAbort (tag : Byte) (s : State) : Result :=
  .next (if !s.clientLive then s
    else match s.tag tag.toNat with
      | none => s
      | some e =>
        match abortField e with
        | none => s
        | some n => s.complete e.tag .aborted none n)

/-- CLIENT_LINK_DOWN (R22): every entry goes without a completion; directives run on unanswered. -/
def execClientLinkDown (s : State) : Result :=
  .next (if s.resetHeld then s
    else
      let s := (each (fun (e : TagEntry) => State.dropTag e.tag) s.client.tags s).muteDirectives
      { s with client := { s.client with up := false, linkData := [] } })

/-- CLIENT_LINK_UP (R22). -/
def execClientLinkUp (s : State) : Result :=
  .next (if s.resetHeld then s else { s with client := { s.client with up := true } })

end Sys2Proof.Machine
end

