-- ==== Sys2Proof/Machine/Closing.lean ====
section
/-! DEFINITION. Steps 2 to 4 of the close sequence (R12): the verdict (R129, R130), the digest (R132), the chain link (R134),
supersedes (R14, R15), the catalogue write and the CLOSE and SUPERSEDE entries. -/

namespace Sys2Proof.Machine

/-! ### The chain (R134) -/

/-- The 25 bytes that a chain value is computed over (R134). -/
def chainInput (head : BitVec 64) (v : Volume) (digest : BitVec 64) : List Byte :=
  be 8 head.toNat ++ be 4 v.serial ++ be 2 v.source ++ be 2 v.day ++ be 1 v.gen ++ be 8 digest.toNat

/-- The next link of the chain (R134). -/
def nextLink (head : ChainLink) (v : Volume) (digest : BitVec 64) : ChainLink :=
  { index := head.index + 1, value := crc64 (chainInput head.value v digest) }

/-! ### Supersedes (R14, R15) -/

/-- A record superseded on an archive day, with the supersede grace of its class (R14, R115). -/
def supersededRecord (day grace : Nat) (v : Volume) : Volume :=
  { v with supersededOn := some day, expiry := some (boundedBy v.expiry (day + grace)) }

/-- The lower generations that a closing volume supersedes (R14): same switch-day, lower generation, no superseded-on day. -/
def lowerGenerations (v : Volume) (vols : List Volume) : List Volume :=
  vols.filter fun u => sameSwitchDay u v && u.gen < v.gen && u.supersededOn.isNone

/-- The volume of the highest higher generation (R15). -/
def highestGeneration (v : Volume) (vols : List Volume) : Option Volume :=
  (vols.filter fun u => sameSwitchDay u v && v.gen < u.gen).foldl
    (fun acc u => match acc with
      | none => some u
      | some b => if b.gen < u.gen then some u else some b) none

/-- One lower generation is superseded and its catalogue record rewritten (R14). -/
def supersedeOne (u : Volume) (s : State) : State :=
  s.rewriteVol u.window (supersededRecord s.ret.day (s.classEntry u.cls).grace) []

/-- The body of the SUPERSEDE entry of a volume as it stands superseded. -/
def supersedeEntry (day grace serial gen : Nat) (u : Volume) : List Byte :=
  supersedeBody (supersededRecord day grace u) serial gen

/-! ### Step 2 (R12, R129, R130, R132, R134) -/

/-- The record of a closing volume after step 2, but for R15. -/
def verdictRecord (v : Volume) (c : Ctx) (flags : ReconcileFlags) (audit : AuditState) (link : ChainLink) : Volume :=
  { v with
    audit, flags := if audit == .discrepant then some flags else none
    trailer := c.trailer, counts := c.counts, digest := some (~~~ c.digest), chain := some link }

/-- The audit state that a close gives (R130). -/
def verdictOf (v : Volume) (c : Ctx) (flags : ReconcileFlags) : AuditState :=
  closeVerdictState (hasLost v.map || v.markDamaged) (c.framer == .raw) (c.framer == .afterTrailer) flags.any

/-- The flags that a close finds (R129). -/
def flagsOf (v : Volume) (c : Ctx) : ReconcileFlags := reconcileFlags c.trailer c.counts c.overflow v.day v.openedOn

/-- The closing volume is itself superseded by a higher generation (R15): the higher generation, and the grace of its class. -/
def State.supersededBy (v : Volume) (s : State) : Option Volume :=
  if v.supersededOn.isSome then none else highestGeneration v s.vols

/-- Step 2 of a close (R12). Where one close both supersedes lower generations (R14) and is itself superseded (R15), the lower
generations' SUPERSEDE entries come first, in window order, and its own last: the spec says only that they follow the CLOSE
entry (DESIGN CHOICE, entry 37). -/
def State.closeVerdict (w : Nat) (v : Volume) (c : Ctx) (k : Closing) (s : State) : State :=
  let flags := flagsOf v c
  let audit := verdictOf v c flags
  let link := nextLink s.audit.head v (~~~ c.digest)
  let lower := lowerGenerations v s.vols
  let higher := s.supersededBy v
  let grace (u : Volume) : Nat := (s.classEntry u.cls).grace
  let bodies := lower.map (fun u => supersedeEntry s.ret.day (grace u) v.serial v.gen u)
    ++ (match higher with
      | none => []
      | some u => [supersedeEntry s.ret.day (grace v) u.serial u.gen v])
  let own (u : Volume) : Volume := if higher.isSome then supersededRecord s.ret.day (grace u) u else u
  let s := if audit == .discrepant then s.setDiscrepant else s
  let s := { s with audit := { s.audit with head := link, closes := s.audit.closes.erase w } }
  let s := s.modVol w fun v => own (verdictRecord v c flags audit link)
  let s := each supersedeOne lower s
  s.modCtx w fun c => { c with close := some { k with stage := .catalogue, flags, supersedes := bodies } }

/-- The audit unit takes this window's close next: it takes closes one at a time, in the order in which they reached step 2
(R12). -/
def State.firstToClose (w : Nat) (s : State) : Bool := s.audit.closes.head? == some w

/-- CLOSE_VERDICT (R12 step 2): nothing when the window's close is not the next at step 2, or the part is HALTED (R13). -/
def execCloseVerdict (window : BitVec 12) (s : State) : Result :=
  let w := window.toNat
  .next (match s.vol w, s.ctx w with
    | some v, some c =>
      match c.close with
      | none => s
      | some k =>
        if k.stage == .verdict && !s.isHalted && !s.resetHeld && s.firstToClose w then s.closeVerdict w v c k else s
    | _, _ => s)

/-! ### Steps 3 and 4 (R12) -/

/-- The close that took the chain index one less is still running (R12). -/
def State.earlierCloseRuns (v : Volume) (s : State) : Bool :=
  s.ctxs.any fun c => c.window != v.window && c.close.isSome
    && (s.vol c.window).any fun u => u.chain.any fun l => l.index + 1 == (chainOf v).index

/-- CLOSE_CATALOGUE (R12 step 3): the catalogue record is written as CLOSED. -/
def execCloseCatalogue (window : BitVec 12) (s : State) : Result :=
  let w := window.toNat
  .next (match s.vol w, s.ctx w with
    | some v, some c =>
      match c.close with
      | none => s
      | some k =>
        if k.stage == .catalogue && !s.isHalted && !s.resetHeld && !s.earlierCloseRuns v then
          (s.modCtx w fun c => { c with close := some { k with stage := .writing } }).callCatalogue w [.closing w v.serial]
        else s
    | _, _ => s)

/-- Step 4 (R12): the CLOSE entry, forced, then the SUPERSEDE entries. -/
def State.closeEntry (w : Nat) (v : Volume) (k : Closing) (s : State) : State :=
  let s := s.modCtx w fun c => { c with close := some { k with stage := .journal } }
  let s := s.append { code := 0x0003, body := closeBody v k, forced := true, who := .close w v.serial }
  each (fun (b : List Byte) => State.append { code := 0x0004, body := b, who := .supersede w v.serial }) k.supersedes s

/-- The catalogue write of step 3 has completed (R12); the close stops here while the part is HALTED (R13). -/
def State.closeWritten (w serial : Nat) (s : State) : State :=
  match s.vol w, s.ctx w with
  | some v, some c =>
    match c.close with
    | none => s
    | some k => if v.serial == serial && k.stage == .writing && !s.isHalted then s.closeEntry w v k else s
  | _, _ => s

end Sys2Proof.Machine
end

