-- ==== Sys2Proof/Machine/Ingest.lean ====
section
/-! DEFINITION. The framer's taking of a block with the coder's closes (R41 to R47, R56 to R59, R67 to R70), the held close
(R70) and the idle timer (R10). -/

namespace Sys2Proof.Machine

/-! ### TAKE_BLOCK (R41) -/

/-- The framer takes blocks of this volume: OPEN, or CLOSING while its contiguous staged blocks are still taken; IN_CALLS or
RAW (R41, R59). -/
def framerTakes (v : Volume) (c : Ctx) : Bool :=
  (v.state == .opened || (v.state == .closing && c.close.any (·.stage == .taking))) && c.framer != .afterTrailer

/-- The block at the ingest point makes the framer RAW (R43, R170). -/
def losesFraming (v : Volume) (c : Ctx) (block : Block) : Bool := c.framer == .inCalls && isLossBlock v c block

/-- The close that the open segment needs before the block is admitted (R47, R67, R68). Where two conditions call for it, R70 does not
say which one a held close records: framing loss comes first, then the block limit (DESIGN CHOICE, entry 53). -/
def closeBefore (c : Ctx) (loss : Bool) : Option CloseCond :=
  if c.seg.blocks == 0 then none
  else if loss then some .framingLoss
  else if c.atBlockLimit then some .blockLimit
  else if c.reserveShort then some .payloadReserve
  else none

/-- The context after it takes a block (R41, R42, R47). -/
def Ctx.take (bank : List TariffEntry) (loss : Bool) (block : Block) (c : Ctx) : Ctx :=
  if c.framer == .raw then takeRaw block c
  else if loss then takeRaw block (loseFraming c)
  else takeCalls bank block c

/-- COMMITTED-mode writes whose last block has just been framed wait on the open segment (R31). -/
def waitOn (serial block index : Nat) (e : TagEntry) : TagEntry :=
  if e.phase == .waitingCommit && e.serial == some serial && e.offset + e.count == block + 1 then
    { e with waitingOn := some index }
  else e

/-- The block at the ingest point is taken: all its effects together (R28, R41). -/
def State.takeBlock (w : Nat) (v : Volume) (loss : Bool) (block : Block) (s : State) : State :=
  match s.ctx w with
  | none => s
  | some c =>
    let c' := c.take (s.tariff.bank c.bank) loss block
    let s := s.modCtx w fun _ => c'
    let s := s.modVol w fun v => { v with ingest := v.ingest + 1 }
    { s with client := { s.client with
      slots := s.client.slots.filter fun x => !(x.serial == v.serial && x.offset == v.ingest)
      tags := s.client.tags.map (waitOn v.serial v.ingest c'.seg.index) } }

/-- Writes waiting on the open segment (R31). -/
def State.waitersOn (c : Ctx) (s : State) : Nat :=
  (s.client.tags.filter fun e => e.serial == some c.serial && e.waitingOn == some c.seg.index).length

/-- The block-limit close after a take (R68). -/
def State.closeAtLimit (w : Nat) (s : State) : State :=
  match s.ctx w with
  | none => s
  | some c => if c.atBlockLimit then s.closeDue .blockLimit w else s

/-- The COMMITTED-mode closes after a take (R69). -/
def State.closeCommitted (w : Nat) (s : State) : State :=
  match s.vol w, s.ctx w with
  | some v, some c =>
    let n := s.waitersOn c
    if 16 ≤ n || (0 < n && (s.heldAt v.serial v.ingest).isNone) then s.closeDue .committed w else s
  | _, _ => s

/-- The close for SYNC when every block below a target has been taken (R33, R68). A SYNC whose volume entered CLOSING before its
target was reached keeps its target and still has this close made when the contiguous taking reaches it: R33 and R68 leave it
open (DESIGN CHOICE, entry 40). -/
def State.closeForSync (w : Nat) (s : State) : State :=
  match s.vol w with
  | none => s
  | some v =>
    if (syncsOf v.serial s.client.tags).any (·.target == some v.ingest) then s.closeDue .sync w else s

/-- A completed trailer gives the record its trailer totals (R1, R11), makes the volume enter CLOSING and stops the framer
(R56, R57, R59). The same in a HALTED part, whose framer still takes blocks: the blocks staged beyond the trailer are discarded
there too, though R37 says that the pool keeps its HELD slots until a reset (DESIGN CHOICE, entry 52). -/
def State.afterTrailer (w : Nat) (s : State) : State :=
  match s.vol w, s.ctx w with
  | some v, some c =>
    if c.framer == .afterTrailer then
      let s := s.modVol w fun v => { v with trailer := c.trailer }
      (if v.state == .opened then s.enterClosing w .segments none else s).framerStop w
    else s.endTaking w
  | _, _ => s

/-- What follows the taking of a block. Where several conditions call for a close then, a held close records the first of block
limit, COMMITTED mode, SYNC and volume close: R70 names no order (DESIGN CHOICE, entry 53). -/
def State.afterTake (w : Nat) (s : State) : State :=
  (((s.closeAtLimit w).closeCommitted w).closeForSync w).afterTrailer w

/-- The block at the ingest point is looked at (R41): taken; taken as the first block of a new segment after a close; or not
taken while a close that it calls for must wait (R70). -/
def State.lookAtBlock (w : Nat) (v : Volume) (c : Ctx) (block : Block) (s : State) : State :=
  let loss := losesFraming v c block
  match closeBefore c loss with
  | none => (s.takeBlock w v loss block).afterTake w
  | some cond =>
    if c.seg.held.isSome then s
    else if s.canClose c then ((s.seal w).takeBlock w v loss block).afterTake w
    else s.holdClose cond w c

/-- TAKE_BLOCK (R41). -/
def execTakeBlock (window : BitVec 12) (s : State) : Result :=
  let w := window.toNat
  .next (if s.starting || s.resetHeld then s
    else match s.vol w, s.ctx w with
      | some v, some c =>
        match s.heldAt v.serial v.ingest with
        | none => s
        | some block => if framerTakes v c then s.lookAtBlock w v c block else s
      | _, _ => s)

/-! ### HELD_CLOSE (R70) -/

/-- HELD_CLOSE (R70): the held close is made when the three conditions hold; else the seal joins the waiting list when it lacks
a map entry or a placement (R88). A close that was held for three pending segments alone and comes to lack one of them afterwards joins
the list here and not before: R88 does not say at which moment it joins (DESIGN CHOICE, entry 62). In a HALTED part that makes a seal
which was on the waiting list for a placement, UNWRITTEN, and takes it off the list (R79; DESIGN CHOICE, entry 58). -/
def execHeldClose (window : BitVec 12) (s : State) : Result :=
  let w := window.toNat
  .next (if s.starting || s.resetHeld then s
    else match s.ctx w with
      | none => s
      | some c =>
        if c.seg.held.isNone then s
        else if s.canClose c then s.seal w
        else if s.alloc.mapFree == 0 || !s.sealPlaces c then s.joinWaiting (.seal w c.serial)
        else s)

/-! ### IDLE_TIMER_EXPIRY (R10) -/

/-- The idle timer of an OPEN volume runs out (R10). -/
def State.idleExpires (w : Nat) (v : Volume) (c : Ctx) (s : State) : State :=
  let s := s.closeDue .idleTimer w
  let s := (s.modVol w fun v => { v with stalled := true }).modCtx w fun c => { c with idle := none }
  (s.append { code := 0x0005, body := stallBody w v.serial v.ingest c.committed }).setStalled

/-- IDLE_TIMER_EXPIRY (R10): nothing happens when the timer does not run. -/
def execIdleTimerExpiry (window : BitVec 12) (s : State) : Result :=
  let w := window.toNat
  .next (if s.resetHeld then s
    else match s.vol w, s.ctx w with
      | some v, some c => if v.state == .opened && c.idle.isSome then s.idleExpires w v c else s
      | _, _ => s)

end Sys2Proof.Machine
end

