-- ==== Sys2Proof/Machine/Reading.lean ====
section
/-! DEFINITION. The read unit (chapter 6): the source of each block, the segment cache, demand fetches and read-ahead, the
journal window, and the damage that a failed demand fetch records. -/

namespace Sys2Proof.Machine

/-! ### The segment cache (R102, R103) -/

/-- An entry is FETCHING. -/
def CacheEntry.isFetching (e : CacheEntry) : Bool :=
  match e.st with
  | .fetching _ _ _ => true
  | _ => false

/-- The cache entry of a key (R102). -/
def State.cached (serial index : Nat) (s : State) : Option CacheEntry :=
  s.rd.cache.find? fun e => e.serial == serial && e.index == index

/-- The cache without a key. -/
def State.uncache (serial index : Nat) (s : State) : State :=
  { s with rd := { s.rd with cache := s.rd.cache.filter fun e => !(e.serial == serial && e.index == index) } }

/-- Change the state of a cache entry. -/
def State.setFetch (serial index : Nat) (st : FetchState) (s : State) : State :=
  { s with rd := { s.rd with cache := s.rd.cache.map fun (e : CacheEntry) =>
      if e.serial == serial && e.index == index then { e with st } else e } }

/-- An entry becomes the most recent (R102). -/
def State.touch (e : CacheEntry) (s : State) : State :=
  let s := s.uncache e.serial e.index
  { s with rd := { s.rd with cache := e :: s.rd.cache } }

/-- The least recent entry that is READY or FAILED leaves (R103); the list is given least recent first. -/
def evictOldest : List CacheEntry → List CacheEntry
  | [] => []
  | e :: es => if e.isFetching then e :: evictOldest es else es

/-- Room for one more entry (R103): none when all eight are FETCHING. -/
def makeCacheRoom (cache : List CacheEntry) : Option (List CacheEntry) :=
  if cache.length < 8 then some cache
  else if cache.all (·.isFetching) then none
  else some (evictOldest cache.reverse).reverse

/-- The store read of a segment (R102). -/
def fetchReq (ahead : Bool) (serial index : Nat) (e : MapEntry) : StoreReq :=
  { cls := if ahead then 4 else 2, user := .fetch serial index, op := .read, block := e.zone * 4096 + e.off, count := e.len }

/-- A fetch is begun (R103, R107); none when there is no room. -/
def State.beginFetch (ahead : Bool) (w serial index : Nat) (e : MapEntry) (waiters : List Nat) (s : State) : Option State :=
  (makeCacheRoom s.rd.cache).map fun cache =>
    let entry : CacheEntry := { window := w, serial, index, entry := e, st := .fetching ahead none waiters }
    ({ s with rd := { s.rd with cache := entry :: cache } } : State).enqueue (fetchReq ahead serial index e)

/-! ### Delivering blocks (R97, R107) -/

/-- What a SERVING read waits on is set. -/
def State.setWait (t : Nat) (w : ReadWait) (s : State) : State := s.modTag t fun e => { e with wait := w }

/-- The read-ahead at a GOOD completion whose last block is the last of map entry `k` (R107). -/
def State.readAhead (v : Volume) (k block : Nat) (s : State) : State :=
  match v.map[k]?, v.map[k + 1]? with
  | some e, some e' =>
    if s.set.work.readAhead && block + 1 == e.first + e.count && e'.kind != .lost && (s.cached v.serial (k + 1)).isNone then
      (s.beginFetch true v.window v.serial (k + 1) e' []).getD s
    else s
  | _, _ => s

/-- A block is served: its DATA is sent, and after the last block the read completes GOOD (R97). -/
def State.deliver (e : TagEntry) (b : Block) (s : State) : State :=
  let s := (s.send (.clientData e.tag e.done b)).modTag e.tag fun e => { e with done := e.done + 1, wait := .idle }
  if e.done + 1 == e.count then s.finish e.tag .good else s

/-- A read completes STORE_ERROR at the block it cannot deliver (R97). -/
def State.readError (e : TagEntry) (s : State) : State := s.complete e.tag .storeError none e.done

/-! ### The map region (R98, R100, R103) -/

/-- The map entry that covers a block, and its index (R76). -/
def findEntry (block : Nat) : Nat → List MapEntry → Option (Nat × MapEntry)
  | _, [] => none
  | k, e :: es => if e.first ≤ block && block < e.first + e.count then some (k, e) else findEntry block (k + 1) es

/-- A demand fetch is begun, waits for room, or ends the read UNAVAILABLE (R103, R104). -/
def State.demand (e : TagEntry) (v : Volume) (k : Nat) (m : MapEntry) (s : State) : State :=
  if s.lossFail then s.finish e.tag .unavailable
  else
    match s.beginFetch false v.window v.serial k m [e.tag] with
    | some s' => s'.setWait e.tag (.fetch v.serial k)
    | none =>
      { s with rd := { s.rd with roomWait := s.rd.roomWait ++ [e.tag] } }.setWait e.tag .room

/-- The request is the store read of a cache entry. -/
def isFetchOf (serial index : Nat) : StoreUser → Bool
  | .fetch n i => n == serial && i == index
  | _ => false

/-- A queued AHEAD read moves to the tail of the demand-read queue (R103). -/
def State.promote (serial index : Nat) (s : State) : State :=
  let mine := s.port.queue.filter fun r => isFetchOf serial index r.user && r.cls == 4
  let rest := s.port.queue.filter fun r => !(isFetchOf serial index r.user && r.cls == 4)
  { s with port := { s.port with queue := rest ++ mine.map fun (r : StoreReq) => { r with cls := 2 } } }

/-- A block of the map region is looked up in the cache (R103). While the store link is DOWN in FAIL mode a read that meets a FETCHING
entry ends UNAVAILABLE at once (R36) and leaves the entry as it is: one that fetches AHEAD stays AHEAD and its read stays in the
read-ahead queue, where R103 would make it a demand fetch for that read; neither rule says which yields (DESIGN CHOICE, entry 63). -/
def State.serveMapped (e : TagEntry) (v : Volume) (block k : Nat) (m : MapEntry) (s : State) : State :=
  match s.cached v.serial k with
  | some c =>
    match c.st with
    | .ready blocks =>
      let s' := (s.touch c).deliver e (blocks.getD (block - m.first) zeroBlock)
      if e.done + 1 == e.count then s'.readAhead v k block else s'
    | .fetching ahead first ws =>
      if s.lossFail then s.finish e.tag .unavailable
      else
        let s := (s.setFetch v.serial k (.fetching false first (ws ++ [e.tag]))).setWait e.tag (.fetch v.serial k)
        if ahead then s.promote v.serial k else s
    | .failed _ => (s.uncache v.serial k).demand e v k m
  | none => if m.kind == .lost then s.readError e else s.demand e v k m

/-! ### Pending, open and staged blocks (R98, R99) -/

/-- The pending segment that covers a block (R98). -/
def State.pendCovering (serial block : Nat) (s : State) : Option PendSeg :=
  (s.pendOf serial).find? fun p => p.hdr.first ≤ block && block < p.hdr.first + p.hdr.count

/-- The blocks of a pending segment's buffer (R99). -/
def PendSeg.blocks (p : PendSeg) : List Block := (decodePayload p.hdr p.payload).getD []

/-- A block of an OPEN, SUSPENDED or CLOSING volume (R98, R99). A lost segment is answered as lost while its marker is being
written and while the landed marker waits to commit: it holds no blocks (R64, R77, R99). -/
def State.serveOpen (e : TagEntry) (v : Volume) (c : Ctx) (block : Nat) (s : State) : State :=
  if block < c.committed then
    match findEntry block 0 v.map with
    | some (k, m) => s.serveMapped e v block k m
    | none => s.deliver e zeroBlock
  else
    match s.pendCovering v.serial block with
    | some p =>
      if p.status == .marking || p.hdr.kind == .lost then s.readError e
      else s.deliver e (p.blocks.getD (block - p.hdr.first) zeroBlock)
    | none =>
      if c.seg.first ≤ block && block < v.ingest then s.deliver e (c.openBlocks.getD (block - c.seg.first) zeroBlock)
      else s.deliver e ((s.heldAt v.serial block).getD zeroBlock)

/-- A block of a CLOSED volume, or of one that became EXPIRING since (R100). Below the final block count a block that no map entry
covers is one that start-up found missing and whose LOST marker has not committed (R167, R162): it is answered as lost (R99). -/
def State.serveClosed (e : TagEntry) (v : Volume) (block : Nat) (s : State) : State :=
  if block < v.ingest then
    match findEntry block 0 v.map with
    | some (k, m) => s.serveMapped e v block k m
    | none => s.readError e
  else s.deliver e zeroBlock

/-! ### The journal window (R101) -/

/-- The store read of a ring block (R101). -/
def journalReadReq (t ring : Nat) : StoreReq :=
  { cls := 2, user := .journalRead t ring, op := .read, block := 4096 + ring, count := 1 }

/-- A ring block is delivered and reported to the journal unit (R101, R150). -/
def State.deliverRing (e : TagEntry) (ring : Nat) (b : Block) (s : State) : State := (s.deliver e b).advancePointer ring

/-- A block of window 4095 (R101). A block whose write has failed for good, or will not go out because the part is HALTED, is
served from its newest content, with every entry appended to it (R148, R162). -/
def State.serveJournal (e : TagEntry) (ring : Nat) (s : State) : State :=
  if s.ringLen ≤ ring then s.deliver e zeroBlock
  else if ring == s.headRing then s.deliverRing e ring (renderJournal s.jr.head s.jr.buf)
  else
    match s.jr.writes.find? (·.ring == ring) with
    | some w =>
      if w.failed || s.heldBack ring then s.deliverRing e ring w.newest
      else if s.lossFail then s.finish e.tag .unavailable
      else s.setWait e.tag (.journalWrite ring)
    | none =>
      if s.lossFail then s.finish e.tag .unavailable
      else (s.enqueue (journalReadReq e.tag ring)).setWait e.tag (.journalRead ring false)

/-! ### SERVE_BLOCK (R97) -/

/-- The next block of a read is served from the region that holds it now, or the read comes to wait (R97, R98, R100, R101). -/
def State.serve (e : TagEntry) (s : State) : State :=
  let block := e.offset + e.done
  match e.serial with
  | none => if e.window == 4095 then s.serveJournal e block else s.deliver e zeroBlock
  | some n =>
    match s.volOf n with
    | none => s.deliver e zeroBlock
    | some v =>
      match s.ctx v.window with
      | some c => if v.state == .closed || v.state == .expiring then s.serveClosed e v block else s.serveOpen e v c block
      | none => s.serveClosed e v block

/-- The next block of the read that holds a tag, when it waits on nothing. -/
def State.serveTag (t : Nat) (s : State) : State :=
  match s.tag t with
  | none => s
  | some e => if e.phase == .serving && e.wait == .idle then s.serve e else s

/-- SERVE_BLOCK (R97). -/
def execServeBlock (tag : Byte) (s : State) : Result :=
  .next (if s.resetHeld then s else s.serveTag tag.toNat)

/-! ### The outcome of a fetch (R104 to R106, R108) -/

/-- A read that waited takes its block up again. -/
def wakeRead (t : Nat) (s : State) : State := (s.setWait t .idle).serveTag t

/-- Entries have left FETCHING: the demand fetches that wait for room begin, in order, while there is room (R103). -/
def State.roomPass (s : State) : State :=
  each wakeRead s.rd.roomWait { s with rd := { s.rd with roomWait := [] } }

/-- Damage found by a demand fetch is recorded on the volume (R106). -/
def State.recordDamage (w serial : Nat) (s : State) : State :=
  match s.vol w with
  | none => s
  | some v =>
    if v.serial != serial then s
    else
      match v.state with
      | .closed => if v.audit == .damaged then s else s.rewriteVol w damagedRecord []
      | .expiring =>
        if s.ret.queue.any (fun q => q.window == w && q.serial == serial) then s.unexpire w serial damagedRecord else s
      | _ => s.modVol w fun v => { v with markDamaged := true }

/-- The FAULT entry of a cache entry's fetch. -/
def fetchFault (c : CacheEntry) (kind : FaultKind) (cls : FaultClass) (place : Option (Nat × Nat)) : FaultInfo :=
  { kind, cls, vol := some (c.window, c.serial), seg := some (c.index, c.entry.first, c.entry.count), place }

/-- A waiter of a failed demand fetch completes STORE_ERROR at the block it waits for (R105). -/
def failWaiter (t : Nat) (s : State) : State :=
  match s.tag t with
  | none => s
  | some e => s.readError e

/-- A waiter completes UNAVAILABLE (R104). -/
def unavailable (t : Nat) (s : State) : State := s.finish t .unavailable

/-- A waiter serves its block from the decoded segment; its next block is then taken up as any other (R104). -/
def serveWaiter (c : CacheEntry) (blocks : List Block) (t : Nat) (s : State) : State :=
  match s.tag t with
  | none => s
  | some e =>
    let block := e.offset + e.done
    let s := if (s.cached c.serial c.index).isSome then s.touch { c with st := .ready blocks } else s
    let s' := s.deliver e (blocks.getD (block - c.entry.first) zeroBlock)
    match s.volOf c.serial with
    | some v => if e.done + 1 == e.count then s'.readAhead v c.index block else s'
    | none => s'

/-- A segment has been fetched and decoded (R104, R108). Its own waiters are served first, with the read-ahead that their
completions begin, and the demand fetches that wait for room after them: R103 gives no order between the two (DESIGN CHOICE,
entry 41). -/
def State.fetchGood (c : CacheEntry) (ahead : Bool) (first : Option FaultClass) (ws : List Nat) (blocks : List Block)
    (s : State) : State :=
  let s := s.setFetch c.serial c.index (.ready blocks)
  let recovered := !ahead && !ws.isEmpty && (first == some .medium || first == some .check)
  let s := if recovered then s.setStoreFault.appendFault (fetchFault c .readRecovered (first.getD .medium) none) else s
  (each (serveWaiter c blocks) ws s).roomPass

/-- The second attempt of a demand fetch with waiters fails (R105). -/
def State.demandFailed (c : CacheEntry) (cls : FaultClass) (ws : List Nat) (s : State) : State :=
  let s := each failWaiter ws (s.uncache c.serial c.index)
  if cls == .timeout then s
  else ((s.recordDamage c.window c.serial).appendFault
    (fetchFault c .readDamage cls (some (c.entry.zone, c.entry.off)))).setDamage

/-- A fetch fails (R104, R105, R108). -/
def State.fetchFailed (c : CacheEntry) (ahead : Bool) (first : Option FaultClass) (ws : List Nat) (cls : FaultClass)
    (s : State) : State :=
  if cls == .linkDown then
    if ahead then (s.uncache c.serial c.index).roomPass
    else if s.set.work.linkLoss == .fail then (each unavailable ws (s.uncache c.serial c.index)).roomPass
    else s.enqueue (fetchReq false c.serial c.index c.entry)
  else if first.isNone then
    (s.setFetch c.serial c.index (.fetching ahead (some cls) ws)).enqueue (fetchReq ahead c.serial c.index c.entry)
  else if ahead || ws.isEmpty then (s.setFetch c.serial c.index (.failed cls)).roomPass
  else (s.demandFailed c cls ws).roomPass

/-- The outcome of the store read of a cache entry: its blocks, or a failure class (R104). -/
def State.fetchEnds (serial index : Nat) (out : Except FaultClass (List Block)) (s : State) : State :=
  match s.cached serial index with
  | none => s
  | some c =>
    match c.st with
    | .fetching ahead first ws =>
      match out with
      | .error cls => s.fetchFailed c ahead first ws cls
      | .ok bs =>
        match decodeStored c.window serial index c.entry bs with
        | some (_, blocks) => s.fetchGood c ahead first ws blocks
        | none => s.fetchFailed c ahead first ws .check
    | _ => s

/-- The ring block is no longer one that R101 serves from the store: it holds the journal buffer, or its write has not been seen
complete. -/
def State.ringTaken (ring : Nat) (s : State) : Bool := ring == s.headRing || s.jr.writes.any (·.ring == ring)

/-- The outcome of the store read of a ring block for a read of window 4095 (R101). A block's source is decided when it is served
(R97): where the journal head or a write has come to that ring block while the store was asked, the block is served from the buffer
or waits for the write, and what the store returned is dropped. A failure of the read is taken as R101 states it whatever the head
has done, and a ring block whose write was both issued and completed meanwhile is served as the store returned it (DESIGN CHOICE,
entry 50). -/
def State.journalReadEnds (t ring : Nat) (out : Except FaultClass (List Block)) (s : State) : State :=
  match s.tag t with
  | none => s
  | some e =>
    match e.wait with
    | .journalRead _ second =>
      match out with
      | .ok bs => if s.ringTaken ring then s.serveJournal e ring else s.deliverRing e ring (bs.headD zeroBlock)
      | .error .linkDown =>
        if s.set.work.linkLoss == .fail then s.finish t .unavailable else s.enqueue (journalReadReq t ring)
      | .error _ =>
        if second then s.readError e
        else (s.enqueue (journalReadReq t ring)).setWait t (.journalRead ring true)
    | _ => s

end Sys2Proof.Machine
end

