-- ==== Sys2Proof/Machine/Retention.lean ====
section
/-! DEFINITION. The retention unit (chapter 7): CALENDAR, RETENTION, HOLD, RELEASE, the sweep, the reclaim queue and the
reclaim. -/

namespace Sys2Proof.Machine

/-! ### CALENDAR (R112) and the sweep (R117 to R119) -/

/-- A CALENDAR that is taken (R112). -/
def State.calendarTaken (ref : BitVec 32) (day : BitVec 16) (o : Option Nat) (s : State) : State :=
  State.callSettings (.calendar o ref.toNat) { s with ret := { s.ret with day := day.toNat } }

/-- CALENDAR (R112). -/
def execCalendar (tag : Byte) (ref : BitVec 32) (day : BitVec 16) (s : State) : Result :=
  .next (s.own tag (.calendar tag ref day) fun o s =>
    if day.toNat < s.ret.day then s.deny o .calendarBackward
    else s.ifStore o (State.calendarTaken ref day o))

/-- A sweep is requested (R117). -/
def State.requestSweep (day ref : Nat) (s : State) : State :=
  match s.ret.sweep with
  | none => s.beginSweep day ref
  | some _ => { s with ret := { s.ret with sweepNext := some (day, ref) } }

/-- A volume is due at a sweep day (R118). -/
def isDue (v : Volume) (day : Nat) : Bool := v.state == .closed && v.expiry.any (· ≤ day)

/-- The examination of one window (R118): the volume table after it, and the sweep with its counts. -/
def State.examineDue (v : Volume) (w : Sweep) (s : State) : State × Sweep :=
  if s.isHeld v then (s, { w with held := w.held + 1 })
  else if v.verifyQueued || v.verifying then (s, { w with verifying := w.verifying + 1 })
  else if v.audit != .reconciled && v.audit != .accepted then (s, { w with blocked := w.blocked + 1 })
  else
    let s := s.rewriteVol v.window (fun v => { v with state := .expiring }) [.expiring v.window v.serial]
    ({ s with ret := { s.ret with queue := s.ret.queue ++ [{ window := v.window, serial := v.serial }] } },
      { w with queued := w.queued + 1 })

/-- The sweep's next window is examined (R118). -/
def State.examineWindow (w : Sweep) (s : State) : State × Sweep :=
  match s.vol w.next with
  | none => (s, w)
  | some v => if isDue v w.day then s.examineDue v w else (s, w)

/-- The sweep has examined window 4094 (R119). -/
def State.sweepEnds (w : Sweep) (s : State) : State :=
  let s := if 0 < w.blocked then s.setBlocked else s
  s.append { code := 0x0006, body := sweepBody w, who := .sweep }

/-- The sweep examines a window, and ends after window 4094 (R118, R119). -/
def State.sweepStep (w : Sweep) (s : State) : State :=
  let p := s.examineWindow w
  let w' := { p.2 with next := w.next + 1 }
  let s' := { p.1 with ret := { p.1.ret with sweep := some w' } }
  if w.next == 4094 then s'.sweepEnds w' else s'

/-- SWEEP_EXAMINE (R118): nothing when no sweep has a window left, or the part is not running. -/
def execSweepExamine (s : State) : Result :=
  .next (match s.ret.sweep with
    | none => s
    | some w => if s.running && !s.resetHeld && w.next ≤ 4094 then s.sweepStep w else s)

/-! ### RETENTION (R114, R116) -/

/-- One volume's expiry day is recomputed (R116). -/
def recomputeVolume (cls : Nat) (e : RetentionEntry) (v : Volume) (s : State) : State :=
  if v.cls == cls && v.state != .expiring && recomputeExpiry v e != v.expiry then
    s.rewriteVol v.window (fun v => { v with expiry := recomputeExpiry v e }) []
  else s

/-- The values of a RETENTION lie in their ranges (R114). -/
def retentionValid (cls : Byte) (days grace : BitVec 16) (choice : Byte) : Bool :=
  cls.toNat ≤ 7 && days.toNat ≤ 36525 && grace.toNat ≤ 3650 && choice.toNat ≤ 1

/-- The retention entry that a RETENTION names. -/
def retentionEntry (days grace : BitVec 16) (choice : Byte) : RetentionEntry :=
  { days := days.toNat, grace := grace.toNat, choice := if choice.toNat == 0 then .resume else .abandon }

/-- A RETENTION that is taken (R114). The catalogue blocks of the volumes it recomputes (R116) are called for in window order (DESIGN
CHOICE, entry 10). -/
def State.retentionTaken (ref : BitVec 32) (cls : Byte) (days grace : BitVec 16) (choice : Byte) (o : Option Nat)
    (s : State) : State :=
  let e := retentionEntry days grace choice
  let s := { s with ret := { s.ret with table := s.ret.table.set cls.toNat e } }
  let s := each (recomputeVolume cls.toNat e) s.vols s
  (s.callSettings (.directive o)).appendSettings ref 10 ([cls] ++ be 2 days.toNat ++ be 2 grace.toNat ++ [choice])

/-- RETENTION (R114). -/
def execRetention (tag : Byte) (ref : BitVec 32) (cls : Byte) (days grace : BitVec 16) (choice : Byte) (s : State) :
    Result :=
  .next (s.own tag (.retention tag ref cls days grace choice) fun o s =>
    if !retentionValid cls days grace choice then s.deny o .badField
    else s.ifJournal o fun s => s.ifStore o (State.retentionTaken ref cls days grace choice o))

/-! ### HOLD and RELEASE (R121, R122) -/

/-- The reclaim of a volume has not begun and a HOLD can still return it (R121); start-up's cut reclaims are too late (R128). -/
def State.returnable (v : Volume) (s : State) : Bool :=
  v.state == .expiring && s.ret.queue.any fun q => q.window == v.window && q.serial == v.serial && !q.cut

/-- An EXPIRING volume that a HOLD can no longer return (R121, R128). -/
def State.tooLate (v : Volume) (s : State) : Bool := v.state == .expiring && !s.returnable v

/-- A HOLD that is taken (R121). The catalogue blocks of the volumes it returns are called for in window order (DESIGN CHOICE, entry
10). -/
def State.holdTaken (ref : BitVec 32) (h : Hold) (o : Option Nat) (s : State) : State :=
  let back := s.vols.filter fun v => h.covers v && s.returnable v
  let late := (s.vols.find? fun v => h.covers v && s.tooLate v).map fun v => (v.window, v.serial)
  let s := { s with ret := { s.ret with holds := insertBy (·.id) h s.ret.holds } }
  let s := each (fun (v : Volume) => State.unexpire v.window v.serial id) back s
  (s.callSettings (.directive o)).append { code := 0x0008, body := holdBody ref.toNat h back.length late }

/-- The hold that a HOLD directive names (R121, R172). -/
def State.holdNamed (id : BitVec 16) (anySource : Byte) (source first last : BitVec 16) (s : State) : Hold :=
  { id := id.toNat, source := if anySource == 1 then none else some source.toNat, first := first.toNat,
    last := last.toNat, placedOn := s.ret.day }

/-- HOLD (R121). -/
def execHold (tag : Byte) (ref : BitVec 32) (id : BitVec 16) (anySource : Byte) (source first last : BitVec 16)
    (s : State) : Result :=
  .next (s.own tag (.hold tag ref id anySource source first last) fun o s =>
    if 1 < anySource.toNat || id == 0 || last.toNat < first.toNat then s.deny o .badField
    else if s.ret.holds.any (·.id == id.toNat) then s.deny o .holdExists
    else if 64 ≤ s.ret.holds.length then s.deny o .holdTableFull
    else s.ifJournal o fun s => s.ifStore o fun s =>
      s.holdTaken ref (s.holdNamed id anySource source first last) o)

/-- A RELEASE that is taken (R122). -/
def State.releaseTaken (ref : BitVec 32) (h : Hold) (o : Option Nat) (s : State) : State :=
  let s := { s with ret := { s.ret with holds := s.ret.holds.filter (·.id != h.id) } }
  (s.callSettings (.directive o)).append { code := 0x0009, body := releaseBody ref.toNat h }

/-- RELEASE (R122). A hold that is not listed is refused before JOURNAL_FULL and the store link are looked at: R122 gives no order
among them (DESIGN CHOICE, entry 43). -/
def execRelease (tag : Byte) (ref : BitVec 32) (id : BitVec 16) (s : State) : Result :=
  .next (s.own tag (.release tag ref id) fun o s =>
    match s.ret.holds.find? (·.id == id.toNat) with
    | none => s.deny o .noSuchHold
    | some h => s.ifJournal o fun s => s.ifStore o (State.releaseTaken ref h o))

/-! ### The reclaim (R124 to R127) -/

/-- The request is the patrol's read of the volume. -/
def isPatrolOf (serial : Nat) : StoreUser → Bool
  | .patrol n _ => n == serial
  | _ => false

/-- The request is a cache fetch of the volume. -/
def isVolumeFetch (serial : Nat) : StoreUser → Bool
  | .fetch n _ => n == serial
  | _ => false

/-- A queued patrol read of the volume is withdrawn, and the patrol moves on at its next turn (R140). -/
def State.withdrawPatrol (serial : Nat) (s : State) : State :=
  if s.port.queue.any (fun r => isPatrolOf serial r.user) then
    let s := s.withdraw (isPatrolOf serial)
    { s with audit := { s.audit with patrol := { s.audit.patrol with active := none, serial := none } } }
  else s

/-- Step 1: the volume's cache entries go, queued reads are withdrawn and issued ones disowned (R109, R125). -/
def State.releaseCache (serial : Nat) (s : State) : State :=
  let s := { s with rd := { s.rd with cache := s.rd.cache.filter (·.serial != serial) } }
  ((s.withdraw (isVolumeFetch serial)).disown (isVolumeFetch serial)).roomPass

/-- Step 2 for one map entry: its stored length leaves the live count of its zone (R87, R125), also where it was never added (DESIGN
CHOICE, entry 48). -/
def releaseEntry (e : MapEntry) (s : State) : State :=
  State.zoneTest e.zone { s with alloc := s.alloc.subLive e.zone e.len }

/-- Step 3: the map entries return to map memory and the waiting list is gone through (R125, R88). -/
def State.releaseMap (v : Volume) (s : State) : State :=
  let s := s.modVol v.window fun v => { v with map := [] }
  State.passWaiting { s with alloc := { s.alloc with mapFree := s.alloc.mapFree + v.map.length } }

/-- Step 6 begins when the PURGE entry and any floor write have reached the store: the catalogue record is written FREE (R126);
not while the part is HALTED (R127). -/
def State.reclaimStep6 (s : State) : State :=
  match s.ret.reclaim with
  | none => s
  | some r =>
    if r.purgeStored && r.floorDone && !r.freeIssued && !s.isHalted then
      State.callCatalogue r.window [.free r.window r.serial]
        { s with ret := { s.ret with reclaim := some { r with freeIssued := true } } }
    else s

/-- Step 4: the chain floor is raised to the volume's link when it is higher, with a settings write (R126). -/
def State.raiseFloor (v : Volume) (s : State) : State :=
  if s.audit.floor.index < (chainOf v).index then
    State.callSettings .floor { s with audit := { s.audit with floor := chainOf v } }
  else { s with ret := { s.ret with reclaim := s.ret.reclaim.map fun (r : Reclaim) => { r with floorDone := true } } }

/-- The volume at the head of the queue begins its reclaim: steps 1 to 5 (R124 to R126). -/
def State.beginReclaim (v : Volume) (rest : List Expiring) (s : State) : State :=
  let s := { s with ret := { s.ret with queue := rest, reclaim := some { window := v.window, serial := v.serial } } }
  let s := s.modVol v.window fun v => { v with reclaimBegun := true }
  let s := (s.withdrawPatrol v.serial).releaseCache v.serial
  let s := (each releaseEntry v.map s).releaseMap v
  (s.raiseFloor v).append { code := 0x0007, body := purgeBody v, forced := true, who := .purge }

/-- An EXPIRING volume is still one that a sweep would expire (R124): no hold matches it, its audit state is RECONCILED or ACCEPTED,
its expiry day is present and not after the archive day, and it is neither queued for nor under verification. -/
def State.stillDue (v : Volume) (s : State) : Bool :=
  !s.isHeld v && (v.audit == .reconciled || v.audit == .accepted) && v.expiry.any (· ≤ s.ret.day)
    && !v.verifyQueued && !v.verifying

/-- The reclaim of a queue entry's volume may begin (R124). A reclaim that a reset cut is taken up whatever the holds say (R128,
entry 18). -/
def State.mayReclaim (q : Expiring) (v : Volume) (s : State) : Bool :=
  q.written && v.serial == q.serial && !s.beingRead q.serial && (q.cut || s.stillDue v)

/-- RECLAIM_BEGIN (R124): nothing while a reclaim is in progress, the queue is empty, or the head must wait. -/
def execReclaimBegin (s : State) : Result :=
  .next (match s.ret.reclaim, s.ret.queue with
    | none, q :: rest =>
      match s.vol q.window with
      | none => s
      | some v =>
        if s.running && !s.resetHeld && s.mayReclaim q v then s.beginReclaim v rest else s
    | _, _ => s)

/-- Step 7: the catalogue says FREE; the record becomes FREE and the reclaim ends (R126). -/
def State.endReclaim (w serial : Nat) (s : State) : State :=
  if s.ret.reclaim.any fun r => r.window == w && r.serial == serial then
    { s.dropVol w with ret := { s.ret with reclaim := none } }
  else s

end Sys2Proof.Machine
end

