-- ==== Sys2Proof/Machine/Rebuild.lean ====
section
/-! DEFINITION. What start-up works out from the store's contents: the scan of a zone, the maps and the zone table (R167), the
journal (R151, R168), the chain head (R133), the serial counter (R3), the reclaim queue (R128), and the resume rules of phase
10 (R40, R169, R170). -/

namespace Sys2Proof.Machine

/-! ### Phase 4: scanning a zone (R167) -/

/-- The bytes of the first `n` blocks; none when one of them could not be read. -/
def blockBytes : Nat → List (Option Block) → Option (List Byte)
  | 0, _ => some []
  | n + 1, some b :: bs => (blockBytes n bs).map (b ++ ·)
  | _ + 1, _ => none

/-- The segment that the blocks from an offset of a zone begin with, when it fits in the `room` blocks left (R167). -/
def segmentAt (room : Nat) (bs : List (Option Block)) : Option (SegHeader × List Byte) :=
  match bs with
  | some b :: _ =>
    match parseHeader b with
    | none => none
    | some h =>
      if room < h.len || fld b 0 8 != Config.segmentMarker.toNat then none
      else (blockBytes h.len bs).bind parseSegment
  | _ => none

/-- The last record of a CODED payload; empty when there is none. -/
def lastRecord (h : SegHeader) (payload : List Byte) : List Byte :=
  if h.kind == .coded && 0 < h.recs then
    let out := (decodeCoded h.lead h.recs h.tail payload).getD []
    slice out (out.length - h.tail - 40) 40
  else []

/-- A segment found at a place (R167). The last record is decoded only where start-up needs it, for a trailer. -/
def foundAt (zone off : Nat) (h : SegHeader) (payload : List Byte) : Found :=
  { zone, off, hdr := h, lead := payload.take h.lead, tail := payload.drop (payload.length - h.tail),
    last := if h.run.trailerSeen then lastRecord h payload else [] }

/-- The segments of a zone's scan, and its scan end (R167). -/
def scanKept (zone : Nat) : Nat → Nat → List (Option Block) → List Found × Nat
  | 0, off, _ => ([], off)
  | fuel + 1, off, bs =>
    match segmentAt (4096 - off) bs with
    | none => ([], off)
    | some (h, payload) =>
      let r := scanKept zone fuel (off + h.len) (bs.drop h.len)
      (foundAt zone off h payload :: r.1, r.2)

/-- The headers of the segments found beyond the scan end, block by block (R167). -/
def scanBeyond : Nat → Nat → List (Option Block) → List SegHeader
  | 0, _, _ => []
  | fuel + 1, off, bs =>
    (match segmentAt (4096 - off) bs with
      | none => []
      | some (h, _) => [h]) ++ scanBeyond fuel (off + 1) (bs.drop 1)

/-- The blocks at an offset of a zone fail the check of a stored segment (R64, R166): the first begins with the segment marker and
yet no valid segment begins there, though every block of it could be read. The answer is the number of its blocks; a header whose
kind or length cannot be right stands for one block (DEDUCED, entry 11). -/
def segmentCheck (room : Nat) (bs : List (Option Block)) : Option Nat :=
  match bs with
  | some b :: _ =>
    if fld b 0 8 != Config.segmentMarker.toNat || (segmentAt room bs).isSome then none
    else
      match (parseHeader b).filter (·.len ≤ room) with
      | none => some 1
      | some h => (blockBytes h.len bs).map fun _ => h.len
  | _ => none

/-- The first offset from `off` on whose blocks fail the check and have not been asked for once more, with their number (R166). -/
def scanCheck (checked : List Nat) : Nat → Nat → List (Option Block) → Option (Nat × Nat)
  | 0, _, _ => none
  | fuel + 1, off, bs =>
    match (if checked.contains off then none else segmentCheck (4096 - off) bs) with
    | some n => some (off, n)
    | none => scanCheck checked fuel (off + 1) (bs.drop 1)

/-- The segment of a zone read whole that start-up asks for once more, if any (R166): from the scan end on, where R167 looks for
segments. -/
def Startup.toCheck (u : Startup) : Option (Nat × Nat) :=
  let bs := u.zoneBlocks.reverse
  let stop := (scanKept 0 4096 0 bs).2
  scanCheck u.checked (4096 - stop) stop (bs.drop stop)

/-- The higher of two stamps with their zones (R83, R167). -/
def higherStamp (zone : Nat) (top : Option (Nat × Nat)) (h : SegHeader) : Option (Nat × Nat) :=
  match top with
  | none => some (h.stamp, zone)
  | some (n, z) => if n < h.stamp then some (h.stamp, zone) else some (n, z)

/-- A zone has been read whole: its segments, scan end, stamps and serials are noted (R3, R167). -/
def Startup.scanZone (zone : Nat) (bs : List (Option Block)) (u : Startup) : Startup :=
  let kept := scanKept zone 4096 0 bs
  let heads := kept.1.map (·.hdr) ++ scanBeyond (4096 - kept.2) kept.2 (bs.drop kept.2)
  { u with
    found := u.found ++ kept.1
    ends := u.ends ++ [(zone, kept.2)]
    top := heads.foldl (higherStamp zone) u.top
    maxSerial := heads.foldl (fun m h => max m h.serial) u.maxSerial
    zoneBlocks := [] }

/-! ### Phases 5 and 6: maps and zones (R167) -/

/-- The copy of higher write stamp (R83). -/
def newer (a : Option Found) (f : Found) : Option Found :=
  match a with
  | none => some f
  | some g => if g.hdr.stamp < f.hdr.stamp then some f else some g

/-- The kept segments of one volume from index `k` and block `next` on (R167); `mine` are those of its window and serial. -/
def keptFrom (mine : List Found) : Nat → Nat → Nat → List Found
  | 0, _, _ => []
  | fuel + 1, k, next =>
    match (mine.filter (·.hdr.index == k)).foldl newer none with
    | none => []
    | some f => if f.hdr.first == next then f :: keptFrom mine fuel (k + 1) (next + f.hdr.count) else []

/-- The kept segments of a volume (R167 phase 5). -/
def Startup.kept (u : Startup) (v : Volume) : List Found :=
  let mine := u.found.filter fun f => f.hdr.window == v.window && f.hdr.serial == v.serial
  keptFrom mine (mine.length + 1) 0 0

/-- The map entry of a kept segment. -/
def foundEntry (f : Found) : MapEntry := mapEntryOf f.hdr { zone := f.zone, off := f.off, len := f.hdr.len, stamp := f.hdr.stamp }

/-- The end of the last entry of a map: its committed point (R60). -/
def mapEnd (m : List MapEntry) : Nat :=
  match m.getLast? with
  | none => 0
  | some e => e.first + e.count

/-- The live count of a zone (R167 phase 6). -/
def liveOf (zone : Nat) (vols : List Volume) : Nat :=
  ((vols.flatMap (·.map)).filter (·.zone == zone)).foldl (fun n e => n + e.len) 0

/-- The zone table of a data zone: FILLING, FULL, or none for FREE (R81, R167). -/
def zoneEntry (filling : Nat) (ends : List (Nat × Nat)) (vols : List Volume) (zone : Nat) : Option Zone :=
  let live := liveOf zone vols
  let fill := ((ends.find? (·.1 == zone)).map (·.2)).getD 0
  if zone == filling then some { zone, filling := true, fill, live }
  else if (vols.flatMap (·.map)).any (·.zone == zone) then some { zone, filling := false, fill, live }
  else none

/-- The numbers of the data zones, J + 1 to Z - 1 (R80). -/
def Alloc.dataZones (a : Alloc) : List Nat := List.range' (a.j + 1) (a.zoneCount - a.j - 1)

/-- Phases 5 and 6: maps, map memory, zone table, FIFO, stamp counter (R83, R167). -/
def State.rebuildMaps (u : Startup) (s : State) : State :=
  let vols := s.vols.map fun (v : Volume) =>
    let m := (u.kept v).map foundEntry
    { v with map := m, segments := m.length }
  let filling := match u.top with
    | none => s.alloc.j + 1
    | some (_, z) => z
  let entries := s.alloc.dataZones.map fun z => (z, zoneEntry filling u.ends vols z)
  { s with
    vols
    alloc := { s.alloc with
      ready := true
      zones := entries.filterMap (·.2)
      fifo := (entries.filter (·.2.isNone)).map (·.1)
      stamp := match u.top with
        | none => 1
        | some (n, _) => n + 1
      mapFree := 4194304 - (vols.flatMap (·.map)).length } }

/-! ### Phase 7: the journal (R151, R168) -/

/-- A ring block counts as valid: CRC-32 correct and block sequence mod N its ring position (R151). -/
def ringValid (n pos : Nat) (b : Block) : Bool := (journalCrc b).toNat == fld b 28 4 && fld b 0 8 % n == pos

/-- An entry read back from a journal block. -/
structure ReadEntry where
  code : Nat
  seq : Nat
  body : List Byte

/-- The entries of the entry space of a journal block, FILLER left out. -/
def readEntries : Nat → List Byte → List ReadEntry
  | 0, _ => []
  | fuel + 1, bs =>
    let len := 8 * fld bs 2 2
    if bs.length < 16 || len < 16 || bs.length < len then []
    else
      let rest := readEntries fuel (bs.drop len)
      if fld bs 0 2 == 0x00FF then rest else { code := fld bs 0 2, seq := fld bs 4 8, body := slice bs 16 (len - 16) } :: rest

/-- The entries of a journal block (12.3). -/
def blockEntries (b : Block) : List ReadEntry := readEntries 254 (slice b 32 (fld b 20 2 - 32))

/-- An optional serial behind its presence byte and window. -/
def optSerial (body : List Byte) (start : Nat) : List Nat := if fld body start 1 == 1 then [fld body (start + 3) 4] else []

/-- The volume serials that an entry's body carries (12.4). -/
def ReadEntry.serials (e : ReadEntry) : List Nat :=
  match e.code with
  | 0x0002 => [fld e.body 2 4]
  | 0x0003 => [fld e.body 2 4]
  | 0x0004 => [fld e.body 2 4, fld e.body 7 4]
  | 0x0005 => [fld e.body 2 4]
  | 0x0007 => [fld e.body 2 4]
  | 0x0008 => optSerial e.body 17
  | 0x000A => [fld e.body 6 4]
  | 0x000B => [fld e.body 2 4]
  | 0x000C => optSerial e.body 2
  | 0x000D => [fld e.body 7 4]
  | 0x000E => [fld e.body 2 4]
  | 0x0010 => if fld e.body 6 1 == 0 then [] else [fld e.body 7 4]
  | _ => []

/-- A ring block has been read: the highest valid block, the serials and the PURGE entries are noted (R3, R128, R151). -/
def Startup.takeRing (n : Nat) (b : Option Block) (u : Startup) : Startup :=
  match b with
  | none => u
  | some b =>
    if !ringValid n u.pos b then u
    else
      let es := blockEntries b
      { u with
        best := match u.best with
          | none => some b
          | some c => if fld c 0 8 < fld b 0 8 then some b else some c
        maxSerial := (es.flatMap (·.serials)).foldl max u.maxSerial
        purged := u.purged ++ (es.filter (·.code == 0x0007)).map fun e => fld e.body 2 4 }

/-- The read pointer of the settings block brought into H + 1 - N to H + 1 (R151). -/
def clampPointer (n head p : Nat) : Nat := min (max p (head + 1 - n)) (head + 1)

/-- The journal unit is set (R151). -/
def State.setJournal (u : Startup) (s : State) : State :=
  match u.best with
  | none => { s with jr := { s.jr with ready := true, head := 0, buf := {}, nextSeq := 1, readPtr := 0 } }
  | some b =>
    let head := fld b 0 8
    let next := match (blockEntries b).getLast? with
      | none => fld b 8 8
      | some e => e.seq + 1
    { s with jr := { s.jr with
      ready := true
      head
      buf := { firstSeq := fld b 8 8, count := fld b 16 4, body := slice b 32 (fld b 20 2 - 32), complete := true,
               asRead := some b }
      nextSeq := next
      readPtr := clampPointer s.ringLen head s.jr.readPtr } }

/-! ### Phases 8 and 9 (R133, R128, R3) -/

/-- The chain head: the highest catalogue link when its index is above the floor's, else the floor (R133). -/
def State.setChain (s : State) : State :=
  let links := s.vols.filterMap (·.chain)
  let top := links.foldl (fun (a b : ChainLink) => if a.index < b.index then b else a) s.audit.floor
  { s with audit := { s.audit with head := top } }

/-- The volume's reclaim was cut by the reset: its rebuilt map is short, or its PURGE entry is in the ring (R128). -/
def Startup.cutReclaim (u : Startup) (v : Volume) : Bool := mapEnd v.map < v.ingest || u.purged.contains v.serial

/-- The EXPIRING volumes of the catalogue are requeued, those cut in their reclaim first (R128). -/
def State.requeue (u : Startup) (s : State) : State :=
  let exp := s.vols.filter (·.state == .expiring)
  let item (cut : Bool) (v : Volume) : Expiring := { window := v.window, serial := v.serial, written := true, cut }
  let first := (exp.filter u.cutReclaim).map (item true)
  let rest := (exp.filter fun v => !u.cutReclaim v).map (item false)
  { s with ret := { s.ret with queue := first ++ rest } }

/-- The serial counter at start-up (R3). -/
def restoredSerial (stored maxUsed : Nat) : Nat :=
  if stored == 0 then 0
  else
    let n := max stored (maxUsed + 1)
    if 4294967295 < n then 0 else n

/-- The counter is set at the end of phase 9 (R3, R168). -/
def State.setSerial (u : Startup) (s : State) : State :=
  { s with serialCounter := restoredSerial s.serialCounter (s.vols.foldl (fun m v => max m v.serial) u.maxSerial) }

/-! ### Phase 10: contexts (R40, R60) -/

/-- Bytes of the trailer lie in a LOST segment, which keeps none (R78): the last segment, or, of a split trailer, the segment before
it. -/
def trailerLost (prev : Option Found) (f : Found) : Bool :=
  f.hdr.kind == .lost || (f.hdr.recs == 0 && prev.any (·.hdr.kind == .lost))

/-- The totals of a trailer that neither the store nor the record holds: free values (DESIGN CHOICE, entry 12). -/
def freeTrailer (serial : Nat) : TrailerTotals :=
  { count := (Config.lostTrailerValue serial 0).toNat % 4294967296, duration := (Config.lostTrailerValue serial 1).toNat,
    units := (Config.lostTrailerValue serial 2).toNat, volume := (Config.lostTrailerValue serial 3).toNat,
    crcGood := Config.lostTrailerGood serial }

/-- The trailer totals that start-up gives a volume past its trailer (R40, R65): those of the trailer record, which is the last record of
the last segment, or the tail bytes of the segment before with its lead bytes. Where bytes of it lie in a LOST segment, the totals
stored in the catalogue record stand (R2); where that holds none either, the spec gives none and they are free values (DESIGN CHOICE,
entry 12). -/
def trailerOf (v : Volume) (prev : Option Found) (f : Found) : TrailerTotals :=
  if trailerLost prev f then v.trailer.getD (freeTrailer v.serial)
  else if 0 < f.hdr.recs then trailerTotals f.last
  else trailerTotals ((match prev with | some p => p.tail | none => []) ++ f.lead)

/-- The framer state that a last kept segment restores (R40). -/
def restoredFramer (h : SegHeader) : FramerState :=
  if h.kind == .raw then .raw else if h.run.trailerSeen then .afterTrailer else .inCalls

/-- The context restored from the last kept segment, or initialised for a volume without one (R40, R60). The tail bytes of a LOST marker
are not kept (R78), so that the carry is empty behind one: R170 closes an OPEN or CLOSING volume then, and a volume stored SUSPENDED,
of which it does not speak, stays SUSPENDED with the empty carry (DESIGN CHOICE, entry 46). Behind the LOST marker of a RAW segment
the framer is IN_CALLS with an empty carry as R40 and R170 say, and the next block's first byte starts a record, though R42 places
record n at stream byte 40n and that byte need not be such a place (DESIGN CHOICE, entry 57). -/
def restoreContext (num : Nat) (v : Volume) (kept : List Found) : Ctx :=
  let base := freshContext num v.window v.serial v.bank
  match kept.getLast? with
  | none => base
  | some f =>
    let st := restoredFramer f.hdr
    let run := f.hdr.run
    { base with
      framer := st
      headerTaken := true
      carry := if st == .inCalls then f.tail else []
      lastSeq := run.lastSeq
      counts := run.counts
      overflow := run.counts.atLimit
      digest := run.digest
      bank := run.bank
      trailer := if st == .afterTrailer then some (trailerOf v kept.dropLast.getLast? f) else none
      seg := freshSeg kept.length (f.hdr.first + f.hdr.count) st
      next := kept.length
      committed := f.hdr.first + f.hdr.count }

/-- A volume of this state holds a context (R40). -/
def holdsContext (v : Volume) : Bool := v.state == .opened || v.state == .suspended || v.state == .closing

/-- One volume's context, with the record's ingest point and zeroed counts (R2, R40). R1 lets a field stand exactly while its
condition holds: a record stored with a verdict, a digest, a chain link or trailer totals that its restored context does not bear
out loses them, and its trailer totals are the context's (DEDUCED, entry 38; those stored stand where the trailer itself is
lost, entry 12). -/
def giveContext (u : Startup) (v : Volume) (s : State) : State :=
  let c := restoreContext s.lowestContext v (u.kept v)
  let s := { s with ctxs := s.ctxs ++ [c] }
  s.modVol v.window fun v => { unclosedImage v with ingest := c.committed, trailer := c.trailer }

/-! ### Phase 10: resume rules (R169, R170) and short CLOSED volumes (R167) -/

/-- Change the running start-up's record. -/
def State.modStartup (f : Startup → Startup) (s : State) : State := { s with startup := s.startup.map f }

/-- A volume closes at start-up (R59, R169): CLOSING is entered when it was OPEN, and step 1 begins. -/
def closeAtStart (v : Volume) (s : State) : State :=
  let s := if v.state == .opened then s.enterClosing v.window .segments none
    else s.modCtx v.window fun c => { c with close := some { stage := .segments } }
  s.framerStop v.window

/-- Outcome ABANDON (R169). -/
def abandonAtStart (v : Volume) (s : State) : State :=
  (closeAtStart v s).modStartup fun u => { u with abandoned := u.abandoned + 1 }

/-- Outcome RESUME (R169). The OPEN record carries no trailer totals and no verdict: `giveContext` took them away (R1, entry 38). -/
def resumeAtStart (v : Volume) (c : Ctx) (s : State) : State :=
  let s := if v.state == .closing then s.rewriteVol v.window (fun v => { v with state := .opened }) [] else s
  let s := s.append { code := 0x000D, body := resumedBody none v.window v.serial c.committed }
  s.modStartup fun u => { u with resumed := u.resumed + 1 }

/-- Outcome PRESERVE (R169). -/
def preserveAtStart (v : Volume) (c : Ctx) (s : State) : State :=
  let s := s.rewriteVol v.window (fun v => { v with state := .suspended }) []
  let s := s.append { code := 0x000E, body := suspendedBody v.window v.serial c.committed }
  s.modStartup fun u => { u with suspended := u.suspended + 1 }

/-- The resume policy decides (R169). -/
def resumeByPolicy (v : Volume) (c : Ctx) (s : State) : State :=
  match s.set.work.policy with
  | .abandon => abandonAtStart v s
  | .resume => resumeAtStart v c s
  | .preserve => preserveAtStart v c s
  | .byClass =>
    match (s.classEntry v.cls).choice with
    | .resume => resumeAtStart v c s
    | .abandon => abandonAtStart v s

/-- A volume held as OPEN or CLOSING (R169, R170). Behind a LOST marker with a tail count above 0 it closes and is counted as abandoned,
as R170 states, also where the marker's header shows trailer-seen, though R169 counts a trailer-seen close as nothing (DESIGN CHOICE,
entry 65). -/
def settleOpen (u : Startup) (v : Volume) (c : Ctx) (s : State) : State :=
  match (u.kept v).getLast? with
  | none => resumeByPolicy v c s
  | some f =>
    if f.hdr.kind == .lost && 0 < f.hdr.tail then abandonAtStart v s
    else if f.hdr.run.trailerSeen then closeAtStart v s
    else resumeByPolicy v c s

/-- The header of the LOST marker for the missing range of a CLOSED volume (R167). -/
def shortMarker (v : Volume) (kept : List Found) : SegHeader :=
  { window := v.window, serial := v.serial, index := kept.length, first := mapEnd v.map, count := v.ingest - mapEnd v.map,
    kind := .lost, lead := 0, tail := 0, recs := 0, payloadLen := 0, stamp := 0,
    run := match kept.getLast? with
      | none => { bank := v.bank }
      | some f => f.hdr.run }

/-- A CLOSED volume short of its final block count: one LOST marker, DAMAGED, FAULT, DAMAGE_FOUND (R167). -/
def settleShort (u : Startup) (v : Volume) (s : State) : State :=
  let h := shortMarker v (u.kept v)
  let s := s.modStartup fun u => { u with rebuilt := true }
  let s := s.rewriteVol v.window damagedRecord []
  let s := { s with
    pend := s.pend ++ [({ hdr := h, payload := [], status := .marking } : PendSeg)]
    alloc := { s.alloc with mapFree := s.alloc.mapFree - 1 } }
  let s := s.placeOrWait v.serial h.index
  (s.appendFault
    { kind := .rebuiltLoss, cls := .check, vol := some (v.window, v.serial), seg := some (h.index, h.first, h.count) }).setDamage

/-- Phase 10 for one volume (R167, R169, R170). -/
def settleVolume (u : Startup) (v : Volume) (s : State) : State :=
  match v.state with
  | .closed => if mapEnd v.map < v.ingest then settleShort u v s else s
  | .opened =>
    match s.ctx v.window with
    | none => s
    | some c => settleOpen u v c s
  | .closing =>
    match s.ctx v.window with
    | none => s
    | some c => settleOpen u v c s
  | _ => s

/-- Phases 8 to 10, taken at once when the ring has been read. -/
def State.settle (u : Startup) (s : State) : State :=
  let s := ((s.setJournal u).setChain.requeue u).setSerial u
  let s := s.modStartup fun u => { u with phase := .finish, cut := s.ret.queue.any (·.cut) }
  let s := each (giveContext u) (s.vols.filter holdsContext) s
  each (settleVolume u) s.vols s

end Sys2Proof.Machine
end

