-- ==== Sys2Proof/Machine/StorePort.lean ====
section
/-! DEFINITION. The store port's slots, arbiter and the reading of what comes back (R38, R90, R91). -/

namespace Sys2Proof.Machine

/-! ### Slots and the arbiter (R90, R91) -/

/-- The lowest free store tag (R90; the choice among free tags is entry 10). -/
def StorePort.freeTag (p : StorePort) : Option Nat := (List.range 16).find? fun t => p.table.all (·.tag != t)

/-- The DATA of a store write, in ascending index order (R38). -/
def sendBlocks (t : Nat) : Nat → List Block → State → State
  | _, [], s => s
  | i, b :: bs, s => sendBlocks t (i + 1) bs (s.send (.storeData t i b))

/-- A slot is granted to a request: its entry is created and the REQUEST sent, with the DATA of a write (R38, R90, R92). -/
def State.issue (t : Nat) (r : StoreReq) (s : State) : State :=
  let e : StoreEntry := { tag := t, req := r, watchdog := s.set.work.storeTimeout }
  let s := { s with port := { s.port with table := s.port.table ++ [e] } }
  sendBlocks t 0 r.data (s.send (.storeRequest t r.op r.block r.count))

/-- The request may be granted: no write while the part is HALTED (R91, R162). -/
def StoreReq.grantable (halted : Bool) (r : StoreReq) : Bool := !(halted && r.op == .write)

/-- The request that the arbiter grants next: the head of the first class, 1 to 5, that has a grantable request (R91). -/
def StorePort.nextGrant (halted : Bool) (p : StorePort) : Option StoreReq :=
  [1, 2, 3, 4, 5].findSome? fun c => p.queue.find? fun r => r.cls == c && r.grantable halted

/-- The first member equal to `x` leaves a queue. -/
def dequeue (x : StoreReq) : List StoreReq → List StoreReq
  | [] => []
  | y :: ys => if y = x then ys else y :: dequeue x ys

/-- STORE_GRANT (R91): nothing while the link is DOWN, no slot is free or no request is grantable. -/
def execStoreGrant (s : State) : Result :=
  .next (if !s.port.up || s.resetHeld then s
    else match s.port.freeTag, s.port.nextGrant s.isHalted with
      | some t, some r => State.issue t r { s with port := { s.port with queue := dequeue r s.port.queue } }
      | _, _ => s)

/-! ### What comes back (R38) -/

/-- A DATA message is one the request still needs (R38). -/
def StoreEntry.wants (index : Nat) (e : StoreEntry) : Bool :=
  !e.abandoned && e.req.op == .read && index < e.req.count && e.got.all (·.1 != index)

/-- A DATA message is given to the request that still needs it (R38). -/
def StoreEntry.accept (t index : Nat) (b : Block) (e : StoreEntry) : StoreEntry :=
  if e.tag == t && e.wants index then { e with got := e.got ++ [(index, b)] } else e

/-- STORE_DATA (R38): DATA for a tag without a request, with an abandoned one, or not needed is discarded. -/
def execStoreData (tag : Byte) (index : BitVec 16) (block : Block) (s : State) : Result :=
  if !blockWf block then .fault .notABlock
  else .next (if s.resetHeld then s
    else { s with port := { s.port with table := s.port.table.map (StoreEntry.accept tag.toNat index.toNat block) } })

/-- The blocks 0 to `n - 1` of what was received; none when one is missing (R38). -/
def gather (got : List (Nat × Block)) : Nat → Option (List Block)
  | 0 => some []
  | n + 1 =>
    match gather got n, (got.find? (·.1 == n)).map (·.2) with
    | some bs, some b => some (bs ++ [b])
    | _, _ => none

/-- The first of the blocks 0 to `n - 1` that was not received; `n` when none is missing (R38). -/
def firstMissing (got : List (Nat × Block)) (n : Nat) : Nat :=
  ((List.range n).find? fun i => got.all (·.1 != i)).getD n

/-- The outcome that a completion gives (R38): GOOD, but MEDIUM at the first missing block for a short READ; MEDIUM at the block
that the block field names for STORE_ERROR, and at block 0 for every other status. -/
def StoreEntry.outcome (status : Byte) (field : Nat) (e : StoreEntry) : Except Failure (List Block) :=
  if status.toNat == Status.code .storeError then .error ⟨.medium, field⟩
  else if status != 0 then .error ⟨.medium, 0⟩
  else if e.req.op == .read then
    match gather e.got e.req.count with
    | some bs => .ok bs
    | none => .error ⟨.medium, firstMissing e.got e.req.count⟩
  else .ok []

/-- The entry of a tag leaves the table (R90). -/
def State.dropEntry (t : Nat) (s : State) : State :=
  { s with port := { s.port with table := s.port.table.filter (·.tag != t) } }

/-- A placement whose abandoned request slot is free leaves its zone (R86, R92). -/
def releaseAbandoned (u : StoreUser) (s : State) : State :=
  match u with
  | .segment _ _ stamp => s.dropAbandoned stamp
  | _ => s

/-- A completion for a request of the given users is taken (R38, R90, R92): nothing for a tag without such a request; the slot
becomes free; an ABANDONED or disowned request is only discarded; else the user acts on the request. -/
def State.takeCompletion (tag : Byte) (isUser : StoreUser → Bool) (act : StoreEntry → State → State) (s : State) : State :=
  if s.resetHeld then s
  else
    match s.entry tag.toNat with
    | none => s
    | some e =>
      if !isUser e.req.user then s
      else
        let s := s.dropEntry e.tag
        if e.abandoned then releaseAbandoned e.req.user s
        else if e.discard then s
        else act e s

end Sys2Proof.Machine
end

