-- ==== Sys2Proof/Machine/StartUp.lean ====
section
/-! DEFINITION. Resets and start-up (11.4, 11.5): POWER_ON, RESET_N, the capacity request, start-up's reads, its phases and its
end. -/

namespace Sys2Proof.Machine

/-! ### Resets (R165) -/

/-- The journal size that the JSIZE straps select (R80). The spec names the four sizes and not their codes: the code n selects
2 * 2^n, smallest first (DESIGN CHOICE, entry 3). -/
def strapSize (straps : BitVec 2) : Nat := 2 * 2 ^ straps.toNat

/-- Everything a reset clears is cleared (R165); the queue of commands and the record of sent messages are the model's own. -/
def State.restart (straps : Nat) (held : Bool) (s : State) : State :=
  { pending := s.pending, sent := s.sent, resetHeld := held, straps, startup := if held then none else some {} }

/-- POWER_ON (R165): the straps are latched and start-up begins, also where RESET_N was held: power-on takes it as released (DESIGN
CHOICE, entry 3). -/
def execPowerOn (straps : BitVec 2) (s : State) : Result := .next (s.restart (strapSize straps) false)

/-- RESET_N_ASSERT (R165): everything in flight is abandoned; start-up waits for the release. -/
def execResetNAssert (s : State) : Result := .next (s.restart s.straps true)

/-- RESET_N_RELEASE (R165): start-up begins; nothing when RESET_N is not held. -/
def execResetNRelease (s : State) : Result :=
  .next (if s.resetHeld then { s with resetHeld := false, startup := some {} } else s)

/-! ### Start-up's requests (R166) -/

/-- A start-up read of one store block (entry 11). Its entry holds class 2, and so does the CAPACITY request's: R91 lists no class for
start-up (DESIGN CHOICE, entry 11). -/
def startReq (block : Nat) : StoreReq := { cls := 2, user := .startup, op := .read, block, count := 1 }

/-- The store block of a scan position: the data zones from J + 1, block by block (R167). -/
def State.scanBlock (pos : Nat) (s : State) : Nat := (s.alloc.j + 1) * 4096 + pos

/-- The store block that start-up reads at a phase and position (R166 to R168). -/
def State.startBlock (u : Startup) (s : State) : Nat :=
  match u.phase with
  | .catalogue => 1 + u.pos
  | .scan => s.scanBlock u.pos
  | .journal => 4096 + u.pos
  | _ => 0

/-- Start-up goes on with the read of its present phase and position. -/
def State.startRead (u : Startup) (s : State) : State :=
  State.enqueue (startReq (s.startBlock u)) { s with startup := some u }

/-- STARTUP_CAPACITY (R166): once the link is UP the CAPACITY request is issued. -/
def execStartupCapacity (s : State) : Result :=
  .next (match s.startup with
    | none => s
    | some u =>
      if u.phase == .capacity && !u.issued && s.port.up && !s.resetHeld then
        match s.port.freeTag with
        | none => s
        | some t =>
          State.issue t { cls := 2, user := .capacity, op := .capacity, block := 0, count := 0 }
            { s with startup := some { u with issued := true } }
      else s)

/-! ### Phase 1 (R80, R166) -/

/-- The zone count Z of a store capacity in blocks (R80). -/
def zonesOf (capacity : Nat) : Nat := min (capacity / 4096) 262144

/-- The outcome of the CAPACITY request: the capacity, or a failure class (R166). A request that the watchdog ends counts as one of the
two, and the part halts with the class of the second: R166 says MEDIUM of two answers and is silent on the watchdog (DESIGN CHOICE,
entry 11). -/
def State.capacityEnds (out : Except FaultClass Nat) (s : State) : State :=
  match s.startup with
  | none => s
  | some u =>
    if u.phase != .capacity then s
    else
      match out with
      | .ok n =>
        State.startRead { u with phase := .settings, second := false, pos := 0 }
          { s with alloc := { s.alloc with zoneCount := zonesOf n } }
      | .error .linkDown => { s with startup := some { u with issued := false } }
      | .error cls =>
        if u.second then s.enterHalted cls else { s with startup := some { u with issued := false, second := true } }

/-! ### Phases 2 and 3 (R159, R166) -/

/-- Every item of a valid settings block is loaded into its owner (R159). -/
def State.loadStored (x : Stored) (s : State) : State :=
  { s with
    set := { s.set with work := x.settings, workMarker := x.marker, image := x.settings, imageMarker := x.marker }
    ret := { s.ret with day := x.day, table := x.table, holds := x.holds }
    tariff := { bank0 := x.bank0, bank1 := x.bank1, active := x.active }
    audit := { s.audit with floor := x.floor }
    serialCounter := x.serial
    alloc := { s.alloc with j := x.j }
    jr := { s.jr with readPtr := x.readPtr } }

/-- The store is too small for the journal and two data zones (R80). -/
def State.tooSmall (s : State) : Bool := s.alloc.zoneCount < s.alloc.j + 3

/-- The format's catalogue write of one block, named by its first window (R166). -/
def formatBlock (i : Nat) (s : State) : State := s.callCatalogue (16 * i) [.format]

/-- A blank store is formatted (R159, R166): the settings block as it now stands, and every record FREE. -/
def State.format (u : Startup) (s : State) : State :=
  let s := { s with vols := [], startup := some { u with phase := .format, formatted := true, second := false } }
  each formatBlock (List.range 256) (s.callSettings .format)

/-- The settings block has been read (R159, R166, R80). Where it is invalid every owner holds R159's fresh values, with J from the
straps, and a store too small halts the part before the format writes anything. -/
def State.settingsRead (u : Startup) (b : Block) (s : State) : State :=
  match parseStored b with
  | some x =>
    let s := s.loadStored x
    if s.tooSmall then s.enterHalted .geometry
    else s.startRead { u with phase := .catalogue, pos := 0, second := false }
  | none =>
    let s := s.loadStored { j := s.straps }
    if s.tooSmall then s.enterHalted .geometry else s.format u

/-- The format's writes have all completed: phase 3 begins (R166). -/
def State.formatDone (s : State) : State :=
  match s.startup with
  | none => s
  | some u =>
    if u.phase == .format && s.set.write.isNone && s.set.gathered.isNone && s.set.catWrites.isEmpty then
      s.startRead { u with phase := .catalogue, pos := 0, second := false }
    else s

/-- The records of a catalogue block, window `w` on (1.8, R2, R16). -/
def catalogueRecords : Nat → Nat → List Byte → List Volume
  | 0, _, _ => []
  | n + 1, w, bs =>
    (if w == 4095 then [] else (parseCatRecord w (bs.take 256)).toList) ++ catalogueRecords n (w + 1) (bs.drop 256)

/-- A catalogue block has been read (R166). -/
def State.catalogueRead (u : Startup) (b : Block) (s : State) : State :=
  let s := { s with vols := s.vols ++ catalogueRecords 16 (16 * u.pos) b }
  if u.pos == 255 then s.startRead { u with phase := .scan, pos := 0, second := false }
  else s.startRead { u with pos := u.pos + 1, second := false }

/-! ### Phases 4 to 7 (R167, R168) -/

/-- The number of data blocks that phase 4 reads. -/
def State.dataBlocks (s : State) : Nat := (s.alloc.zoneCount - s.alloc.j - 1) * 4096

/-- A zone has been scanned, with every re-read that R166 asks for: the next zone follows, or phases 5 to 7 (R167). -/
def State.zoneScanned (u : Startup) (s : State) : State :=
  let zone := u.pos / 4096
  let u := { u.scanZone (s.alloc.j + 1 + zone) u.zoneBlocks.reverse with checked := [], second := false }
  if (zone + 1) * 4096 == s.dataBlocks then (s.rebuildMaps u).startRead { u with phase := .journal, pos := 0 }
  else s.startRead { u with pos := (zone + 1) * 4096 }

/-- All blocks of a zone are held: a segment that fails its checks is asked for once more, block by block, before the zone is taken
as scanned (R166, R167, entry 11). -/
def State.zoneRead (u : Startup) (s : State) : State :=
  match u.toCheck with
  | some (off, n) =>
    s.startRead { u with
      pos := u.pos / 4096 * 4096 + off, second := true, checked := off :: u.checked, redo := some (off + n) }
  | none => s.zoneScanned u

/-- A data block has been read, or could not be (R167): for the first time, or again with the segment that failed its checks
(R166). -/
def State.scanRead (u : Startup) (b : Option Block) (s : State) : State :=
  let i := u.pos % 4096
  match u.redo with
  | none =>
    let u := { u with zoneBlocks := b :: u.zoneBlocks }
    if i == 4095 then s.zoneRead u else s.startRead { u with pos := u.pos + 1, second := false }
  | some stop =>
    let u := { u with zoneBlocks := u.zoneBlocks.set (4095 - i) b }
    if i + 1 == stop then s.zoneRead { u with redo := none } else s.startRead { u with pos := u.pos + 1 }

/-- A ring block has been read, or could not be (R151, R168). -/
def State.ringRead (u : Startup) (b : Option Block) (s : State) : State :=
  let u := u.takeRing s.ringLen b
  if u.pos + 1 == s.ringLen then State.settle u { s with startup := some u }
  else s.startRead { u with pos := u.pos + 1, second := false }

/-- Start-up's phase goes on with the block it was at; none when its read failed twice, with the class of the failure (R166 to
R168). -/
def State.startStep (u : Startup) (b : Except FaultClass Block) (s : State) : State :=
  match u.phase, b with
  | .settings, .ok b => s.settingsRead u b
  | .settings, .error cls => s.enterHalted cls
  | .catalogue, .ok b => s.catalogueRead u b
  | .catalogue, .error cls => s.enterHalted cls
  | .scan, .ok b => s.scanRead u (some b)
  | .scan, .error _ => s.scanRead u none
  | .journal, .ok b => s.ringRead u (some b)
  | .journal, .error _ => s.ringRead u none
  | .capacity, _ => s
  | .format, _ => s
  | .finish, _ => s

/-- A start-up read ends (R166): a LINK_DOWN failure is asked for again, another first failure once more. The CHECK failure of a
segment that phase 4 has read is found at the end of its zone (`State.zoneRead`). -/
def State.startReadEnds (out : Except FaultClass (List Block)) (s : State) : State :=
  match s.startup with
  | none => s
  | some u =>
    match out with
    | .ok bs => s.startStep u (.ok (bs.headD zeroBlock))
    | .error .linkDown => s.startRead u
    | .error cls => if u.second then s.startStep u (.error cls) else s.startRead { u with second := true }

/-! ### Phase 11 (R171) -/

/-- A close of phase 10 no longer holds start-up back: its CLOSE entry is appended or on the wait list, or it waits at step 3
behind such a close, for start-up waits for no append (R12, R149, R171; entry 24). -/
def State.closeSettled (c : Ctx) (s : State) : Bool :=
  c.close.all fun k =>
    k.stage == .journal || (k.stage == .catalogue && (s.vol c.window).any fun v => s.earlierCloseRuns v)

/-- The writes that phases 2 to 10 issued have completed, the LOST markers have committed, and the closes of phase 10 have
gone as far as they can (R171). -/
def State.startupSettled (s : State) : Bool :=
  s.set.write.isNone && s.set.gathered.isNone && s.set.catWrites.isEmpty && s.pend.isEmpty && s.ctxs.all fun c => s.closeSettled c

/-- The idle timers of the OPEN volumes are loaded (R9, R171). -/
def State.loadIdleTimers (s : State) : State :=
  each (fun (v : Volume) => State.loadIdle v.window) (s.vols.filter fun v => v.state == .opened) s

/-- The reclaim of a volume that R128 put at the head of the queue begins as start-up ends; the next of them follows by
RECLAIM_BEGIN (R128, R171, entry 18). -/
def State.runCut (s : State) : State :=
  match s.ret.queue with
  | [] => s
  | q :: rest =>
    match s.vol q.window with
    | none => s
    | some v => if q.cut && v.serial == q.serial && s.ret.reclaim.isNone then s.beginReclaim v rest else s

/-- Start-up ends with the START entry (R171). -/
def State.endStartup (u : Startup) (s : State) : State :=
  let s := s.append
    { code := 0x0001, forced := true
      body := startBody u.formatted u.rebuilt u.cut s.audit.head s.alloc.fifo.length u.resumed u.suspended u.abandoned }
  let s := { s with
    startup := none
    audit := { s.audit with patrol := { s.audit.patrol with timer := 0 < s.set.work.patrolRate } } }
  s.loadIdleTimers.runCut

/-- START_ENTRY (R171): nothing before phases 2 to 10 are done. -/
def execStartEntry (s : State) : Result :=
  .next (match s.startup with
    | none => s
    | some u => if u.phase == .finish && s.startupSettled && !s.resetHeld then s.endStartup u else s)

end Sys2Proof.Machine
end

