-- ==== Sys2Proof/Machine/StoreLink.lean ====
section
/-! DEFINITION. The completions of the store, the store watchdog and the store link's state (R8, R17, R36, R74, R92 to R96, R147,
R148, R155, R160): what each user of the store does with the outcome of its request. -/

namespace Sys2Proof.Machine

/-! ### The open's writes (R8) -/

/-- The pending segments of a volume that were sealed without a placement are placed in index order (R8). -/
def State.placeSealed (serial : Nat) (s : State) : State :=
  each (fun (p : PendSeg) => State.placeOrWait p.hdr.serial p.hdr.index)
    ((s.pendOf serial).filter fun p => p.place.isNone && p.status == .writing) s

/-- The OPEN entry (R8). -/
def State.appendOpen (v : Volume) (s : State) : State := s.append { code := 0x0002, body := openBody v }

/-- One of an open's two writes has completed (R8); with the second, the waiting seals are placed and the OPEN entry is
appended. -/
def State.openWritten (catalogue : Bool) (serial : Nat) (s : State) : State :=
  match s.volOf serial with
  | none => s
  | some v =>
    match s.ctx v.window with
    | none => if catalogue then s else s.appendOpen v
    | some c =>
      let c' := if catalogue then { c with openCatalogue := true } else { c with openSettings := true }
      let s := s.modCtx v.window fun _ => c'
      if c'.opened then (s.placeSealed serial).appendOpen v else s

/-! ### The settings block (R155, R160) -/

/-- What waits for a settings block write goes on when it completes GOOD (R8, R112, R126, R155, R160). -/
def settingsWaiter (day : Nat) (w : SetWaiter) (s : State) : State :=
  match w with
  | .directive o => s.answer o .good none
  | .calendar o ref => (s.answer o .good none).requestSweep day ref
  | .opening serial => s.openWritten false serial
  | .floor =>
    State.reclaimStep6
      { s with ret := { s.ret with reclaim := s.ret.reclaim.map fun (r : Reclaim) => { r with floorDone := true } } }
  | .format => s

/-- An idle limit of 0 that comes into force stops every idle timer (R9). -/
def State.stopIdle (s : State) : State :=
  if s.set.work.idleLimit == 0 then { s with ctxs := s.ctxs.map fun (c : Ctx) => { c with idle := none } } else s

/-- The patrol rate that comes into force stops the interval timer, or loads it when the patrol was stopped (R139). -/
def State.patrolRate (old : Nat) (s : State) : State :=
  let rate := s.set.work.patrolRate
  if rate == 0 then s.modPatrol fun p => { p with timer := false }
  else if old == 0 && !s.starting then s.modPatrol fun p => { p with timer := true }
  else s

/-- The values that a settings write carried come into force (R155). -/
def State.inForce (w : SettingsWrite) (s : State) : State :=
  let old := s.set.work.patrolRate
  let s := { s with set := { s.set with work := w.settings, workMarker := w.marker } }
  s.stopIdle.patrolRate old

/-- The waiter is an open (R8). -/
def SetWaiter.isOpening : SetWaiter → Bool
  | .opening _ => true
  | .directive _ => false
  | .calendar _ _ => false
  | .floor => false
  | .format => false

/-- A settings block write completes GOOD (R155, R160): its values come into force, the gathered write is handed over, what
waits on it goes on. After a halt nothing comes into force and no directive is answered, but an open that waited on this write goes
on, since it needs no store write (R155, R161, R162; entry 15). Several directives that waited on the write are answered in the order
in which they were taken (DESIGN CHOICE, entry 10). -/
def State.settingsGood (w : SettingsWrite) (s : State) : State :=
  let s := { s with set := { s.set with write := none } }
  if s.isHalted then each (settingsWaiter w.day) (w.waiters.filter (·.isOpening)) s
  else
    let s := s.inForce w
    let s := match s.set.gathered with
      | none => s
      | some ws => s.handSettings ws
    (each (settingsWaiter w.day) w.waiters s).formatDone

/-- The outcome of the settings block's write (R94, R160). -/
def State.settingsEnds (out : Except FaultClass (List Block)) (s : State) : State :=
  match s.set.write with
  | none => s
  | some w =>
    match out with
    | .ok _ => s.settingsGood w
    | .error cls =>
      if s.isHalted then s
      else if w.retryUsed then
        State.doubleFault cls .settings 0 none none { s with set := { s.set with write := none } }
      else
        State.enqueue (settingsReq w.bytes) { s with set := { s.set with write := some { w with retryUsed := true } } }

/-! ### The catalogue (R17) -/

/-- The EXPIRING record of a volume on the reclaim queue has reached the store (R124). -/
def State.expiringWritten (w serial : Nat) (s : State) : State :=
  { s with ret := { s.ret with queue := s.ret.queue.map fun (q : Expiring) =>
      if q.window == w && q.serial == serial then { q with written := true } else q } }

/-- What waits for a catalogue block write goes on when it completes GOOD (R8, R12, R17, R19, R124, R126). -/
def catalogueWaiter (w : CatWaiter) (s : State) : State :=
  match w with
  | .opening serial => s.openWritten true serial
  | .closing w serial => s.closeWritten w serial
  | .expiring w serial => s.expiringWritten w serial
  | .free w serial => s.endReclaim w serial
  | .resume o => s.answer o .good none
  | .format => s

/-- The outstanding write of a catalogue block. -/
def State.catWrite (block : Nat) (s : State) : Option CatWrite := s.set.catWrites.find? (·.block == block)

/-- A catalogue block write completes GOOD (R17): the gathered write is issued, what waits on it goes on. -/
def State.catalogueGood (c : CatWrite) (s : State) : State :=
  let s := { s with set := { s.set with catWrites := s.set.catWrites.filter (·.block != c.block) } }
  let s := match c.gathered with
    | none => s
    | some ws => s.handCatalogue c.block ws
  (each catalogueWaiter c.waiters s).formatDone

/-- The retry of a catalogue block write (R17, R94). -/
def State.retryCatalogue (c : CatWrite) (s : State) : State :=
  State.enqueue (catReq c.block c.bytes)
    { s with set := { s.set with catWrites := s.set.catWrites.map fun (x : CatWrite) =>
        if x.block == c.block then { x with retryUsed := true } else x } }

/-- The outcome of a catalogue block's write (R17, R94). -/
def State.catalogueEnds (block : Nat) (out : Except FaultClass (List Block)) (s : State) : State :=
  match s.catWrite block with
  | none => s
  | some c =>
    match out with
    | .ok _ => s.catalogueGood c
    | .error cls =>
      if s.isHalted then s
      else if c.retryUsed then s.doubleFault cls .catalogue block none none
      else s.retryCatalogue c

/-! ### The journal (R147, R148) -/

/-- The reads that wait for a ring block's write (R101), in ascending order of tag: in that order they are served from their source again
at its completion and their store reads are requested, R101 giving none (DESIGN CHOICE, entry 10). -/
def State.ringReaders (ring : Nat) (s : State) : List Nat :=
  (s.client.tags.filter fun e => e.wait == .journalWrite ring).map (·.tag)

/-- A SYNC of window 4095 has one write fewer to wait for (R147). -/
def State.syncWritten (t : Nat) (s : State) : State :=
  match s.tag t with
  | none => s
  | some e =>
    if e.journalWrites ≤ 1 then s.finish t .good else s.modTag t fun e => { e with journalWrites := e.journalWrites - 1 }

/-- What waits for a journal block write goes on when it completes GOOD (R126, R147). -/
def journalWaiter (w : JournalWaiter) (s : State) : State :=
  match w with
  | .purge =>
    State.reclaimStep6
      { s with ret := { s.ret with reclaim := s.ret.reclaim.map fun (r : Reclaim) => { r with purgeStored := true } } }
  | .sync t => s.syncWritten t

/-- The gathered write of a ring block is handed over with the block's content as it now is (R147). -/
def State.handGathered (ring : Nat) (content : Block) (ws : List JournalWaiter) (s : State) : State :=
  s.callJournal ring (if ring == s.headRing then renderJournal s.jr.head s.jr.buf else content) ws

/-- The writes without that of a ring block, whose gathered content stays with the journal unit: no further write goes out
(R148). -/
def keepGathered (ring : Nat) (ws : List JournalWrite) : List JournalWrite :=
  ws.filterMap fun w =>
    if w.ring != ring then some w
    else w.gathered.map fun g => { w with content := g.1, failed := true, waiters := [], gathered := none }

/-- A journal block write completes GOOD (R101, R147): its readers and waiters go on, the gathered write is handed over. The SYNCs of
window 4095 that wait on one write complete in the order in which they came to wait, whatever their tags (DESIGN CHOICE, entry
10). While the part is HALTED no write is handed over, and the entries gathered stay visible to reads (R148, R162). -/
def State.journalGood (w : JournalWrite) (s : State) : State :=
  let readers := s.ringReaders w.ring
  let left := if s.isHalted then keepGathered w.ring s.jr.writes else s.jr.writes.filter (·.ring != w.ring)
  let s := { s with jr := { s.jr with writes := left } }
  let s := each wakeRead readers s
  let s := each journalWaiter w.waiters s
  match w.gathered with
  | none => s
  | some (content, ws) => if s.isHalted then s else s.handGathered w.ring content ws

/-- Change the write of a ring block. -/
def State.modJournalWrite (ring : Nat) (f : JournalWrite → JournalWrite) (s : State) : State :=
  { s with jr := { s.jr with writes := s.jr.writes.map fun w => if w.ring == ring then f w else w } }

/-- A journal block write has failed for good: its content stays with the journal unit and its readers are served from it
(R148). -/
def State.journalLost (ring : Nat) (s : State) : State :=
  each wakeRead (s.ringReaders ring) (s.modJournalWrite ring fun w => { w with failed := true })

/-- The outcome of a journal block's write (R94, R148). -/
def State.journalEnds (ring : Nat) (out : Except FaultClass (List Block)) (s : State) : State :=
  match s.jr.writes.find? (·.ring == ring) with
  | none => s
  | some w =>
    match out with
    | .ok _ => s.journalGood w
    | .error cls =>
      if s.isHalted then s.journalLost ring
      else if w.retryUsed then (s.doubleFault cls .journal (4096 + ring) none none).journalLost ring
      else (s.modJournalWrite ring fun w => { w with retryUsed := true }).enqueue (journalReq ring w.content)

/-! ### Telling a user the outcome of its request -/

/-- The outcome of a request other than CAPACITY reaches its user, a failure with its class and the block it is at (R38, R94); no
user's rule looks at that block. `kept` says that the request's slot is still occupied, as after a watchdog expiry (R86, R92). -/
def State.tell (u : StoreUser) (kept : Bool) (reported : Except Failure (List Block)) (s : State) : State :=
  let out := reported.mapError (·.cls)
  match u with
  | .settings => s.settingsEnds out
  | .catalogue b => s.catalogueEnds b out
  | .journal r => s.journalEnds r out
  | .segment _ _ stamp =>
    match out with
    | .ok _ => s.segmentGood stamp
    | .error cls => s.segmentFailed cls stamp kept
  | .fetch serial index => s.fetchEnds serial index out
  | .journalRead t ring => s.journalReadEnds t ring out
  | .patrol serial index => s.patrolReadEnds serial index out
  | .queueVerify serial index => s.queueReadEnds serial index out
  | .startup => s.startReadEnds out
  | .capacity =>
    match out with
    | .ok _ => s
    | .error cls => s.capacityEnds (.error cls)

/-- A completion of one of the users `isUser` is taken and its outcome told (R38). -/
def State.completeFor (isUser : StoreUser → Bool) (tag status : Byte) (field : BitVec 64) (s : State) : State :=
  s.takeCompletion tag isUser fun e s => s.tell e.req.user false (e.outcome status field.toNat)

/-! ### The completion rows -/

def isSegment : StoreUser → Bool
  | .segment _ _ _ => true
  | _ => false

def isCatalogue : StoreUser → Bool
  | .catalogue _ => true
  | _ => false

def isSettings : StoreUser → Bool
  | .settings => true
  | _ => false

def isJournal : StoreUser → Bool
  | .journal _ => true
  | _ => false

def isFetch : StoreUser → Bool
  | .fetch _ _ => true
  | _ => false

def isJournalRead : StoreUser → Bool
  | .journalRead _ _ => true
  | _ => false

def isVerification : StoreUser → Bool
  | .patrol _ _ => true
  | .queueVerify _ _ => true
  | _ => false

def isStartup : StoreUser → Bool
  | .startup => true
  | _ => false

def isCapacity : StoreUser → Bool
  | .capacity => true
  | _ => false

/-- SEGMENT_WRITE_COMPLETION (R74, R85, R86, R93). -/
def execSegmentWriteCompletion (tag status : Byte) (blockField : BitVec 64) (s : State) : Result :=
  .next (s.completeFor isSegment tag status blockField)

/-- CATALOGUE_WRITE_COMPLETION (R17). -/
def execCatalogueWriteCompletion (tag status : Byte) (blockField : BitVec 64) (s : State) : Result :=
  .next (s.completeFor isCatalogue tag status blockField)

/-- SETTINGS_WRITE_COMPLETION (R155, R160). -/
def execSettingsWriteCompletion (tag status : Byte) (blockField : BitVec 64) (s : State) : Result :=
  .next (s.completeFor isSettings tag status blockField)

/-- JOURNAL_WRITE_COMPLETION (R147, R148). -/
def execJournalWriteCompletion (tag status : Byte) (blockField : BitVec 64) (s : State) : Result :=
  .next (s.completeFor isJournal tag status blockField)

/-- FETCH_COMPLETION (R104). -/
def execFetchCompletion (tag status : Byte) (blockField : BitVec 64) (s : State) : Result :=
  .next (s.completeFor isFetch tag status blockField)

/-- JOURNAL_READ_COMPLETION (R101). -/
def execJournalReadCompletion (tag status : Byte) (blockField : BitVec 64) (s : State) : Result :=
  .next (s.completeFor isJournalRead tag status blockField)

/-- VERIFICATION_READ_COMPLETION (R135). -/
def execVerificationReadCompletion (tag status : Byte) (blockField : BitVec 64) (s : State) : Result :=
  .next (s.completeFor isVerification tag status blockField)

/-- STARTUP_READ_COMPLETION (R166). -/
def execStartupReadCompletion (tag status : Byte) (blockField : BitVec 64) (s : State) : Result :=
  .next (s.completeFor isStartup tag status blockField)

/-- CAPACITY_COMPLETION (R166): the capacity is the block field of a GOOD completion. -/
def execCapacityCompletion (tag status : Byte) (blockField : BitVec 64) (s : State) : Result :=
  .next (s.takeCompletion tag isCapacity fun e s =>
    s.capacityEnds ((e.outcome status blockField.toNat).mapError (·.cls) |>.map fun _ => blockField.toNat))

/-! ### The watchdog (R92) -/

/-- The entry becomes ABANDONED. -/
def State.abandon (t : Nat) (s : State) : State :=
  { s with port := { s.port with table := s.port.table.map fun (e : StoreEntry) =>
      if e.tag == t then { e with abandoned := true } else e } }

/-- STORE_WATCHDOG_EXPIRY (R92): nothing for a tag without an ISSUED request, or with a stopped watchdog. -/
def execStoreWatchdogExpiry (tag : Byte) (s : State) : Result :=
  .next (if s.resetHeld then s
    else match s.entry tag.toNat with
      | none => s
      | some e =>
        if e.abandoned || e.watchdog == 0 then s
        else
          let s := (s.abandon e.tag).send (.storeAbort e.tag)
          if e.discard then s else s.tell e.req.user true (.error ⟨.timeout, 0⟩))

/-! ### The store link (R36, R95, R96) -/

/-- One entry of the store request table at a DOWN (R95). The outstanding write of a stranded placement, marked so that its completion
is discarded (R86), leaves the table and is not issued again, though R95's table queues a segment write of any kind for reissue and
does not speak of one so marked (DESIGN CHOICE, entry 61). -/
def entryDown (e : StoreEntry) (s : State) : State :=
  if e.abandoned then releaseAbandoned e.req.user s
  else if e.discard then s
  else if e.req.op == .write then s.enqueue e.req
  else s.tell e.req.user false (.error ⟨.linkDown, 0⟩)

/-- The tag that a settings waiter's directive is owed a completion at. -/
def SetWaiter.owed : SetWaiter → Option Nat
  | .directive o => o
  | .calendar o _ => o
  | _ => none

/-- The tag that a catalogue waiter's directive is owed a completion at. -/
def CatWaiter.owed : CatWaiter → Option Nat
  | .resume o => o
  | _ => none

/-- The tags of the directives that wait on a settings or catalogue write (R36). -/
def SettingsUnit.owed (u : SettingsUnit) : List Nat :=
  (((match u.write with | some w => w.waiters | none => []) ++ u.gathered.getD []).filterMap SetWaiter.owed)
    ++ (u.catWrites.flatMap fun c => c.waiters ++ c.gathered.getD []).filterMap CatWaiter.owed

/-- A client request that waits for the store completes UNAVAILABLE (R36). -/
def failWaiting (e : TagEntry) (s : State) : State :=
  if e.phase == .waitingCommit || e.phase == .syncing || (e.phase == .serving && e.wait != .idle) then
    s.finish e.tag .unavailable
  else s

/-- What FAIL mode does at a DOWN (R36) once the request table has been emptied: the requests that still wait end UNAVAILABLE, the
directives that wait on a write first, in the order of their writes' waiters, then the others by tag (DESIGN CHOICE, entry 10). A
demand fetch that is still queued stays queued without waiters and goes on when the link returns (R109). -/
def State.failAtDown (s : State) : State :=
  let s := each (fun t => State.answer (some t) .unavailable none) s.set.owed s
  let s := s.muteWaiters
  each failWaiting s.client.tags s

/-- STORE_LINK_DOWN (R95, R36). The mode in force at this DOWN decides for every request that waits for the store now, also for one
that came to wait under HOLD while the link was UP: R36 ends a waiting request at once in FAIL mode, names the mode in force when
the request came to need the store, and leaves open which holds here (DESIGN CHOICE, entry 51). R36 gives the UNAVAILABLE completions
of one DOWN no order: the reads whose fetch or ring read stands in the request table end first, as its entries are gone through, then
what is left of those that wait, as `failAtDown` says (DESIGN CHOICE, entry 10). -/
def execStoreLinkDown (s : State) : Result :=
  .next (if s.resetHeld then s
    else
      let table := s.port.table
      let s := { s with port := { s.port with up := false, reported := true, table := [] } }
      let s := (each entryDown table s).wakeHeldBack
      if s.set.work.linkLoss == .fail then s.failAtDown else s)

/-- STORE_LINK_UP (R95, R96): the queues can be granted again. -/
def execStoreLinkUp (s : State) : Result :=
  .next (if s.resetHeld then s else { s with port := { s.port with up := true, reported := true } })

end Sys2Proof.Machine
end

