-- ==== Sys2Proof/Machine/Dispatch.lean ====
section
/-! DEFINITION. Every command's meaning, one arm per constructor of `Instr`. -/

namespace Sys2Proof.Machine

/-- The effect of a command on everything but the queue. -/
def exec (i : Instr) (s : State) : Host.Outcome State Fault Refusal :=
  match i with
  | .read tag addr count => Sys2Proof.Machine.execRead tag addr count s
  | .write tag addr count => Sys2Proof.Machine.execWrite tag addr count s
  | .sync tag addr count => Sys2Proof.Machine.execSync tag addr count s
  | .clientCapacity tag op addr count => Sys2Proof.Machine.execClientCapacity tag op addr count s
  | .clientData tag index block => Sys2Proof.Machine.execClientData tag index block s
  | .abort tag => Sys2Proof.Machine.execAbort tag s
  | .clientLinkDown => Sys2Proof.Machine.execClientLinkDown s
  | .clientLinkUp => Sys2Proof.Machine.execClientLinkUp s
  | .configure tag ref body => Sys2Proof.Machine.execConfigure tag ref body s
  | .signature tag ref marker => Sys2Proof.Machine.execSignature tag ref marker s
  | .report tag ref => Sys2Proof.Machine.execReport tag ref s
  | .inquire tag ref window first => Sys2Proof.Machine.execInquire tag ref window first s
  | .close tag ref window serial => Sys2Proof.Machine.execClose tag ref window serial s
  | .resolveResume tag ref window serial => Sys2Proof.Machine.execResolveResume tag ref window serial s
  | .resolveAbandon tag ref window serial => Sys2Proof.Machine.execResolveAbandon tag ref window serial s
  | .tariffLoad tag ref bank first entries => Sys2Proof.Machine.execTariffLoad tag ref bank first entries s
  | .tariffSelect tag ref bank => Sys2Proof.Machine.execTariffSelect tag ref bank s
  | .calendar tag ref day => Sys2Proof.Machine.execCalendar tag ref day s
  | .retention tag ref cls days grace choice => Sys2Proof.Machine.execRetention tag ref cls days grace choice s
  | .hold tag ref id anySource source first last => Sys2Proof.Machine.execHold tag ref id anySource source first last s
  | .release tag ref id => Sys2Proof.Machine.execRelease tag ref id s
  | .accept tag ref window serial => Sys2Proof.Machine.execAccept tag ref window serial s
  | .verify tag ref window serial => Sys2Proof.Machine.execVerify tag ref window serial s
  | .revoke tag ref window serial => Sys2Proof.Machine.execRevoke tag ref window serial s
  | .clearAttention tag ref items => Sys2Proof.Machine.execClearAttention tag ref items s
  | .takeBlock window => Sys2Proof.Machine.execTakeBlock window s
  | .heldClose window => Sys2Proof.Machine.execHeldClose window s
  | .idleTimerExpiry window => Sys2Proof.Machine.execIdleTimerExpiry window s
  | .storeGrant => Sys2Proof.Machine.execStoreGrant s
  | .storeData tag index block => Sys2Proof.Machine.execStoreData tag index block s
  | .segmentWriteCompletion tag status blockField => Sys2Proof.Machine.execSegmentWriteCompletion tag status blockField s
  | .catalogueWriteCompletion tag status blockField => Sys2Proof.Machine.execCatalogueWriteCompletion tag status blockField s
  | .settingsWriteCompletion tag status blockField => Sys2Proof.Machine.execSettingsWriteCompletion tag status blockField s
  | .journalWriteCompletion tag status blockField => Sys2Proof.Machine.execJournalWriteCompletion tag status blockField s
  | .fetchCompletion tag status blockField => Sys2Proof.Machine.execFetchCompletion tag status blockField s
  | .journalReadCompletion tag status blockField => Sys2Proof.Machine.execJournalReadCompletion tag status blockField s
  | .verificationReadCompletion tag status blockField => Sys2Proof.Machine.execVerificationReadCompletion tag status blockField s
  | .storeWatchdogExpiry tag => Sys2Proof.Machine.execStoreWatchdogExpiry tag s
  | .storeLinkDown => Sys2Proof.Machine.execStoreLinkDown s
  | .storeLinkUp => Sys2Proof.Machine.execStoreLinkUp s
  | .serveBlock tag => Sys2Proof.Machine.execServeBlock tag s
  | .closeVerdict window => Sys2Proof.Machine.execCloseVerdict window s
  | .closeCatalogue window => Sys2Proof.Machine.execCloseCatalogue window s
  | .sweepExamine => Sys2Proof.Machine.execSweepExamine s
  | .reclaimBegin => Sys2Proof.Machine.execReclaimBegin s
  | .patrolTurn => Sys2Proof.Machine.execPatrolTurn s
  | .queueVerificationBegin => Sys2Proof.Machine.execQueueVerificationBegin s
  | .powerOn straps => Sys2Proof.Machine.execPowerOn straps s
  | .resetNAssert => Sys2Proof.Machine.execResetNAssert s
  | .resetNRelease => Sys2Proof.Machine.execResetNRelease s
  | .startupCapacity => Sys2Proof.Machine.execStartupCapacity s
  | .startupReadCompletion tag status blockField => Sys2Proof.Machine.execStartupReadCompletion tag status blockField s
  | .startEntry => Sys2Proof.Machine.execStartEntry s
  | .capacityCompletion tag status blockField => Sys2Proof.Machine.execCapacityCompletion tag status blockField s

end Sys2Proof.Machine
end

