-- ==== Sys2Proof/Safety.lean ====
section
/-! DEFINITION. What counts as a safe state and a safe change of state, in the terms the statements use: the limits the spec
sets to the part's tables, what no command may undo, and the situations in which a command has its own effect. -/

namespace Sys2Proof

/-! ### Kinds of commands -/

/-- POWER_ON and an assertion of RESET_N: the two resets (R165). -/
def Instr.isReset : Instr → Bool
  | .powerOn _ => true
  | .resetNAssert => true
  | _ => false

/-- A command of the side-band pins: power and RESET_N (11.7). -/
def Instr.isPin : Instr → Bool
  | .powerOn _ => true
  | .resetNAssert => true
  | .resetNRelease => true
  | _ => false

/-- CLEAR_ATTENTION (R164). -/
def Instr.isClear : Instr → Bool
  | .clearAttention _ _ _ => true
  | _ => false

/-- The tag of a directive; none for every other command (10.1). -/
def Instr.directiveTag : Instr → Option Byte
  | .configure t _ _ => some t
  | .signature t _ _ => some t
  | .report t _ => some t
  | .inquire t _ _ _ => some t
  | .close t _ _ _ => some t
  | .resolveResume t _ _ _ => some t
  | .resolveAbandon t _ _ _ => some t
  | .tariffLoad t _ _ _ _ => some t
  | .tariffSelect t _ _ => some t
  | .calendar t _ _ => some t
  | .retention t _ _ _ _ _ => some t
  | .hold t _ _ _ _ _ _ => some t
  | .release t _ _ => some t
  | .accept t _ _ _ => some t
  | .verify t _ _ _ => some t
  | .revoke t _ _ _ => some t
  | .clearAttention t _ _ => some t
  | _ => none

end Sys2Proof

namespace Sys2Proof.Machine

/-! ### The limits of the part's tables -/

/-- The limits that the spec sets to the tables that commands fill: 32 tags, each held once (2.3); 256 staging slots (2.6);
store tags 0 to 15, each held once (R90); 8 cache entries (R102); two banks of 64 tariff entries (R48); 8 retention entries
(R113); 64 holds (R120); 16 verify queue entries (R141). -/
structure State.Capacities (s : State) : Prop where
  tagRange : ∀ e ∈ s.client.tags, e.tag ≤ 31
  tagsOnce : (s.client.tags.map (·.tag)).Nodup
  slots : s.client.slots.length ≤ 256
  storeRange : ∀ e ∈ s.port.table, e.tag ≤ 15
  storeOnce : (s.port.table.map (·.tag)).Nodup
  cache : s.rd.cache.length ≤ 8
  bank0 : s.tariff.bank0.length = 64
  bank1 : s.tariff.bank1.length = 64
  classes : s.ret.table.length = 8
  holds : s.ret.holds.length ≤ 64
  verifyQueue : s.audit.queue.length ≤ 16

/-! ### What no command undoes -/

/-- A REQUEST on the store link. -/
def Msg.isStoreRequest : Msg → Bool
  | .storeRequest _ _ _ _ => true
  | _ => false

/-- A store WRITE request. -/
def Msg.isStoreWrite : Msg → Bool
  | .storeRequest _ .write _ _ => true
  | _ => false

/-- Every latched item that is set in `a` is set in `b` (R163). -/
def Latched.le (a b : Latched) : Prop :=
  (a.volumeStalled → b.volumeStalled) ∧ (a.discrepantClose → b.discrepantClose) ∧ (a.damageFound → b.damageFound)
    ∧ (a.storeFault → b.storeFault) ∧ (a.expiryBlocked → b.expiryBlocked)

/-! ### Situations -/

/-- The part takes requests of the client link and lets them reach their routing: the link is UP, RESET_N is released, start-up
does not run and was not halted early (R22, R24 case 1, R165). -/
structure State.TakesRequests (s : State) : Prop where
  up : s.client.up = true
  released : s.resetHeld = false
  started : s.startup = none
  mapped : s.haltedEarly = false

/-- Directives are answered by the second and later cases of their rules: not HALTED, not starting up (R153). -/
structure State.TakesDirectives (s : State) : Prop where
  released : s.resetHeld = false
  alive : s.halted = none
  started : s.startup = none

/-- A directive that needs a settings write passes its last two cases: JOURNAL_FULL does not hold, and the store link is not
DOWN in FAIL mode (R154). -/
structure State.HasRoom (s : State) : Prop where
  journal : s.journalFull = false
  store : s.lossFail = false

/-- A directive names a volume: its window is a volume window that holds the serial it gives (1.9). -/
structure State.Names (s : State) (window : BitVec 16) (serial : BitVec 32) (v : Volume) : Prop where
  range : window.toNat < 4095
  found : s.vol window.toNat = some v
  serial : v.serial = serial.toNat

/-- The part runs: not HALTED, not starting up, RESET_N released (R139, R142, R118, R124). -/
structure State.Runs (s : State) : Prop where
  released : s.resetHeld = false
  alive : s.halted = none
  started : s.startup = none

/-- A store tag carries a request that its user still waits for: neither ABANDONED nor to be discarded (R38, R90, R92). -/
structure State.Awaits (s : State) (tag : Byte) (e : StoreEntry) : Prop where
  released : s.resetHeld = false
  found : s.entry tag.toNat = some e
  live : e.abandoned = false
  wanted : e.discard = false

/-- The store answers the write of placement `q` of zone `z`, the present place of the pending segment `p` (5.4, 5.5, 5.9): the
part runs, and the zone's number is there once. -/
structure State.SegmentOut (s : State) (tag : Byte) (e : StoreEntry) (z : Zone) (q : Placement) (p : PendSeg) (place : Place) :
    Prop where
  awaits : s.Awaits tag e
  op : e.req.op = .write
  started : s.startup = none
  alive : s.halted = none
  user : e.req.user = .segment q.serial q.index q.stamp
  zone : s.alloc.zoneOfStamp q.stamp = some z
  once : ∀ x ∈ s.alloc.zones, x.zone = z.zone → x = z
  pend : s.pendSeg q.serial q.index = some p
  window : p.hdr.window = q.window
  placed : p.place = some place
  stamp : place.stamp = q.stamp
  inZone : place.zone = z.zone
  len : 0 < place.len

/-- The volume of a placement is OPEN and holds its context (4.9). -/
structure State.OwnerOpen (s : State) (q : Placement) (v : Volume) (c : Ctx) : Prop where
  vol : s.vol q.window = some v
  serial : v.serial = q.serial
  opened : v.state = .opened
  ctx : s.ctx q.window = some c
  ctxSerial : c.serial = q.serial
  close : c.close = none

/-- Every placement's write stamp lies below the counter, and that of `q` stands in zone `z` alone (5.3). -/
structure State.StampsFresh (s : State) (z : Zone) (q : Placement) : Prop where
  below : ∀ x ∈ s.alloc.zones, ∀ y ∈ x.list, y.stamp < s.alloc.stamp
  alone : ∀ x ∈ s.alloc.zones, x ≠ z → ∀ y ∈ x.list, y.stamp ≠ q.stamp

/-- A placement of stored length `len` goes to zone `n`, which holds nothing, once that zone has been tested (R84, R87): it is the
FILLING zone, or it is FULL and the FILLING zone has no room and the FIFO no zone. -/
def State.OnlyRoom (s : State) (n len : Nat) (z : Zone) : Prop :=
  s.alloc.zone n = some z ∧ (∀ x ∈ s.alloc.zones, x.zone = n → x = z) ∧ z.live = 0 ∧ z.list = [] ∧ len ≤ 4096 ∧ s.alloc.fifo = []
    ∧ ∃ y, s.alloc.filling = some y ∧ (∀ x ∈ s.alloc.zones, x.filling = true → x = y) ∧ 4096 < y.fill + len
      ∧ (y = z ∨ (y.live ≠ 0 ∨ y.list ≠ []))

/-! ### Directive blocks, as a server builds them (12.2) -/

/-- A directive block with its check: marker, code, reference, body length and body, zeros, CRC-32 (12.2, R152). -/
def directiveBlock (marker : BitVec 128) (code : Nat) (ref : BitVec 32) (body : List Byte) : Block :=
  let bytes := padTo 4092 (be 16 marker.toNat ++ be 2 code ++ be 4 ref.toNat ++ be 2 body.length ++ body)
  bytes ++ be 4 (crc32 bytes).toNat

/-- Window and serial, as most directive bodies hold them (12.2). -/
def nameBytes (window : BitVec 16) (serial : BitVec 32) : List Byte := be 2 window.toNat ++ be 4 serial.toNat

/-- One entry of a TARIFF_LOAD body: G, zero, I, S, rate (12.2). -/
def loadBytes (e : TariffEntry) : List Byte :=
  [e.grace, 0] ++ be 2 e.initial.toNat ++ be 2 e.step.toNat ++ be 2 e.rate.toNat

/-- Code, reference and body of the directive that a command stands for (12.2); none for a command that is no directive. -/
def directiveForm : Instr → Option (Nat × BitVec 32 × List Byte)
  | .configure _ r b => some (1, r, configureBytes b)
  | .signature _ r m => some (2, r, be 16 m.toNat)
  | .report _ r => some (3, r, [])
  | .inquire _ r w f => some (4, r, nameBytes w f)
  | .close _ r w n => some (5, r, nameBytes w n)
  | .resolveResume _ r w n => some (6, r, nameBytes w n ++ [0])
  | .resolveAbandon _ r w n => some (6, r, nameBytes w n ++ [1])
  | .tariffLoad _ r b f es => some (7, r, [b, f, BitVec.ofNat 8 es.length] ++ es.flatMap loadBytes)
  | .tariffSelect _ r b => some (8, r, [b])
  | .calendar _ r d => some (9, r, be 2 d.toNat)
  | .retention _ r k d g c => some (10, r, [k] ++ be 2 d.toNat ++ be 2 g.toNat ++ [c])
  | .hold _ r i a n f l => some (11, r, be 2 i.toNat ++ [a] ++ be 2 n.toNat ++ be 2 f.toNat ++ be 2 l.toNat)
  | .release _ r i => some (12, r, be 2 i.toNat)
  | .accept _ r w n => some (13, r, nameBytes w n)
  | .verify _ r w n => some (14, r, nameBytes w n)
  | .revoke _ r w n => some (15, r, nameBytes w n)
  | .clearAttention _ r i => some (16, r, be 2 i.toNat)
  | _ => none

/-! ### Chains of records, and what an open segment holds -/

/-- The entries of consecutive records, each coded against the record before it (R61, R62); the flag says whether the record
may be coded. -/
def encodeRecords : List Byte → List (Bool × List Byte) → List Byte
  | _, [] => []
  | ref, (good, r) :: rs => recordEntry good ref r ++ encodeRecords r rs

/-- Records of 40 bytes; one that may be coded is a call record with a good CRC (R58). -/
def codable (p : Bool × List Byte) : Prop := p.2.length = 40 ∧ (p.1 = true → recKind p.2 = kindC ∧ recCrcGood p.2 = true)

/-- A CODED open segment holds the bytes `bytes`: lead bytes, the chain of its records, and then its tail bytes (R61, R62,
R65). -/
def Ctx.Holds (c : Ctx) (bytes : List Byte) : Prop :=
  c.seg.kind = .coded ∧ c.carry.length < 40 ∧ ∃ (lead : List Byte) (rs : List (Bool × List Byte)),
    c.seg.payload = lead ++ encodeRecords zeroRecord rs ∧ c.seg.lead = lead.length ∧ c.seg.recs = rs.length
      ∧ (∀ p ∈ rs, codable p) ∧ c.reference = ((rs.map (·.2)).getLast?).getD zeroRecord
      ∧ bytes = lead ++ rs.flatMap (·.2) ++ c.tailBytes

/-! ### Values that the stored formats can hold -/

/-- Counts and totals that fit their fields (3.1). -/
structure Counts.Fits (c : Counts) : Prop where
  calls : c.calls < 2 ^ 32
  gaps : c.gaps < 2 ^ 32
  disorder : c.disorder < 2 ^ 32
  bad : c.bad < 2 ^ 32
  unrated : c.unrated < 2 ^ 32
  duration : c.duration < 2 ^ 48
  units : c.units < 2 ^ 48
  volume : c.volume < 2 ^ 48

/-- A segment header whose fields fit (R72). -/
structure SegHeader.Fits (h : SegHeader) : Prop where
  window : h.window < 2 ^ 16
  serial : h.serial < 2 ^ 32
  index : h.index < 2 ^ 32
  first : h.first < 2 ^ 32
  count : h.count < 2 ^ 32
  lead : h.lead < 2 ^ 8
  tail : h.tail < 2 ^ 16
  recs : h.recs < 2 ^ 32
  payloadLen : h.payloadLen < 2 ^ 32
  stamp : h.stamp < 2 ^ 64
  lastSeq : ∀ q, h.run.lastSeq = some q → q < 2 ^ 32
  counts : h.run.counts.Fits
  bank : h.run.bank < 2 ^ 8

/-- A payload of the length that its kind gives it (R65, R66, R78). -/
def payloadFits (h : SegHeader) (payload : List Byte) : Prop :=
  payload.length = h.payloadLen ∧
    match h.kind with
    | .coded => True
    | .raw => payload.length = 4096 * h.count
    | .lost => payload = []

/-- A volume record whose fields fit (1.1). -/
structure Volume.Fits (v : Volume) : Prop where
  serial : v.serial < 2 ^ 32
  source : v.source < 2 ^ 16
  day : v.day < 2 ^ 16
  gen : v.gen < 2 ^ 8
  cls : v.cls < 2 ^ 8
  openedOn : v.openedOn < 2 ^ 16
  bank : v.bank < 2 ^ 8
  trailer : ∀ t, v.trailer = some t → t.count < 2 ^ 32 ∧ t.duration < 2 ^ 48 ∧ t.units < 2 ^ 48 ∧ t.volume < 2 ^ 48
  counts : v.counts.Fits
  ingest : v.ingest < 2 ^ 32
  segments : v.segments < 2 ^ 32
  chain : ∀ l, v.chain = some l → l.index < 2 ^ 64
  supersededOn : ∀ d, v.supersededOn = some d → d < 2 ^ 16
  expiry : ∀ d, v.expiry = some d → d < 2 ^ 24

/-- What a volume record keeps in the catalogue (R16): not the four flags, the mark and the segment map. -/
def Volume.kept (v : Volume) : Volume :=
  { v with stalled := false, verifyQueued := false, verifying := false, reclaimBegun := false, markDamaged := false, map := [] }

/-- Settings that fit their fields (10.3). -/
structure Settings.Fits (x : Settings) : Prop where
  idleLimit : x.idleLimit < 2 ^ 8
  storeTimeout : x.storeTimeout < 2 ^ 8
  spaceLow : x.spaceLow < 2 ^ 16
  journalHigh : x.journalHigh < 2 ^ 8
  maskLevel : x.maskLevel < 2 ^ 8
  patrolRate : x.patrolRate < 2 ^ 8

/-- What a settings block can hold (R159). -/
structure Stored.Fits (x : Stored) : Prop where
  settings : x.settings.Fits
  day : x.day < 2 ^ 16
  table : x.table.length = 8
  entries : ∀ e ∈ x.table, e.days < 2 ^ 16 ∧ e.grace < 2 ^ 16
  bank0 : x.bank0.length = 64
  bank1 : x.bank1.length = 64
  active : x.active < 2 ^ 8
  holds : x.holds.length ≤ 64
  hold : ∀ h ∈ x.holds, h.id < 2 ^ 16 ∧ (∀ n, h.source = some n → n < 2 ^ 16) ∧ h.first < 2 ^ 16 ∧ h.last < 2 ^ 16
    ∧ h.placedOn < 2 ^ 16
  floor : x.floor.index < 2 ^ 64
  serial : x.serial < 2 ^ 32
  j : x.j < 2 ^ 8
  readPtr : x.readPtr < 2 ^ 64

/-- An entry as the journal holds it: code, sequence, day and body, within the fields of its header, and no FILLER (12.3). -/
structure JournalItem where
  code : Nat
  seq : Nat
  day : Nat
  body : List Byte
  deriving DecidableEq, Repr

/-- An entry that its header can describe (12.3). -/
structure JournalItem.Fits (e : JournalItem) : Prop where
  code : e.code < 2 ^ 16 ∧ e.code ≠ 0x00FF
  seq : e.seq < 2 ^ 64
  len : e.body.length ≤ 496

/-- The bytes of a journal item. -/
def JournalItem.bytes (e : JournalItem) : List Byte := entryBytes e.code e.seq e.day e.body

end Sys2Proof.Machine
end

