-- ==== Sys2Proof/Certificates/Slice0/Obligations.lean ====
section
/-! DEFINITION. The statements about the model: first the whole machine and its formats, then the commands, family by family.
`exec c s = .next t` says that command `c` completes in state `s` and leaves `t`; a `t` written as a change of `s` says that
everything else stays as it was. -/

open Sys2Proof Sys2Proof.Machine

/-! ### The whole machine -/

/-- A step takes the command at the front of the queue and is that command's effect on the state with the queue's rest; with
an empty queue the part idles. The queue is the model's form of what 95_what_each_step_holds.md calls an event taken; idling on
an empty queue is the model's choice (log entries 1 and 2). -/
def Obligations.StepRunsTheFrontCommand : Prop :=
  (∀ (c : Instr) (rest : List Instr) (s : State), s.pending = c :: rest → step s = exec c { s with pending := rest })
    ∧ ∀ s : State, s.pending = [] → step s = .next s

/-- Every command that can occur answers a next state, in every state; a DATA message whose block is not 4096 bytes, which
neither link can carry (12.5), stops the model (log entry 25). -/
def Obligations.OnlyMalformedDataStops : Prop :=
  (∀ (c : Instr) (s : State), c.wf = true → ∃ t, exec c s = .next t)
    ∧ ∀ (tag : Byte) (index : BitVec 16) (b : Block) (s : State), b.length ≠ 4096 →
      exec (.clientData tag index b) s = .fault .notABlock ∧ exec (.storeData tag index b) s = .fault .notABlock

/-- The pins (11.4). POWER_ON latches the straps and clears everything but the model's own queue and record of messages; RESET_N clears
the same and keeps the straps; its release begins start-up at phase 1. While RESET_N is held the part takes no message and issues
none: every other command leaves the state as it is. The cleared values of registers that start-up loads, and that internal and timer
events rest too while RESET_N is held, are the model's choice (log entries 3, 4 and 28).
The output pins (11.3): an attention item is set exactly while its condition holds or it is latched, and none while RESET_N is held;
ATTN_N is asserted exactly while some set item's level exceeds the working mask level, HALT_N exactly while the part is HALTED. That a
condition is judged once its owner is set up, and that the pins follow the set before start-up has set up all owners, is the model's
choice (log entry 26); so is that a seal waits for no placement while the part is HALTED (log entry 58). -/
def Obligations.ResetsClearAndSilenceThePart : Prop :=
  (∀ (straps : BitVec 2) (s : State), exec (.powerOn straps) s = .next { State.reset with
    pending := s.pending, sent := s.sent, straps := 2 * 2 ^ straps.toNat, startup := some {} })
  ∧ (∀ s : State, exec .resetNAssert s = .next { State.reset with
    pending := s.pending, sent := s.sent, straps := s.straps, resetHeld := true, startup := none })
  ∧ (∀ s : State, s.resetHeld = true → exec .resetNRelease s = .next { s with resetHeld := false, startup := some {} })
  ∧ (∀ s : State, s.resetHeld = false → exec .resetNRelease s = .next s)
  ∧ (∀ (c : Instr) (s : State), s.resetHeld = true → c.isPin = false → c.wf = true → exec c s = .next s)
  ∧ ∀ s : State,
      let set (i : Nat) : Prop := s.attention.testBit i = true
      let free : Nat := s.ringLen + s.jr.readPtr - (s.jr.head + 1)
      let noPlace (i : WaitItem) : Prop := match i with
        | .place _ _ => True
        | .seal w _ => ∃ c, s.ctx w = some c ∧ s.halted = none ∧ c.openCatalogue = true ∧ c.openSettings = true
            ∧ ∀ z, s.alloc.filling = some z → 4096 < z.fill + c.sealLen ∧ ¬(z.live = 0 ∧ z.list = [])
      (s.resetHeld = true → s.attention = 0)
      ∧ (s.resetHeld = false → s.attention < 4096
          ∧ (set 0 ↔ s.alloc.ready = true ∧ s.alloc.fifo.length < s.set.work.spaceLow)
          ∧ (set 1 ↔ s.alloc.fifo = [] ∧ ∃ i ∈ s.alloc.waiting, noPlace i)
          ∧ (set 2 ↔ s.alloc.mapFree = 0 ∧ ∃ w n, WaitItem.seal w n ∈ s.alloc.waiting)
          ∧ (set 3 ↔ s.jr.ready = true ∧ free < s.set.work.journalHigh)
          ∧ (set 4 ↔ s.jr.ready = true ∧ free = 0)
          ∧ (set 5 ↔ s.port.reported = true ∧ s.port.up = false)
          ∧ (set 6 ↔ s.latched.volumeStalled = true) ∧ (set 7 ↔ s.latched.discrepantClose = true)
          ∧ (set 8 ↔ s.latched.damageFound = true) ∧ (set 9 ↔ s.latched.storeFault = true)
          ∧ (set 10 ↔ s.latched.expiryBlocked = true) ∧ (set 11 ↔ s.isHalted = true))
      ∧ (s.attnAsserted = true ↔ ∃ i, set i ∧ s.set.work.maskLevel < [1, 3, 3, 1, 3, 2, 1, 2, 3, 2, 1, 4].getD i 0)
      ∧ (s.haltAsserted = true ↔ s.resetHeld = false ∧ s.isHalted = true)

/-- The limits of the tables hold right after reset. -/
def Obligations.TableLimitsHoldAtReset : Prop := State.reset.Capacities

/-- Every step keeps the limits of the tables: 32 tags, each held once; 256 staging slots; 16 store tags, each held once; 8 cache
entries; two banks of 64 tariff entries; 8 retention entries; 64 holds; 16 queued verifications. -/
def Obligations.EveryStepKeepsTheTableLimits : Prop :=
  ∀ s t : State, s.Capacities → step s = .next t → t.Capacities

/-- A latched attention item that is set stays set through every command but CLEAR_ATTENTION and the two resets (11.3). -/
def Obligations.LatchedItemsStaySet : Prop :=
  ∀ (c : Instr) (s t : State), c.isClear = false → c.isReset = false → exec c s = .next t → s.latched.le t.latched

/-- A HALTED part stays HALTED through every command but a reset, and sends no store WRITE (11.2). -/
def Obligations.HaltedPartWritesNothing : Prop :=
  ∀ (c : Instr) (s t : State), s.isHalted = true → c.isReset = false → exec c s = .next t →
    t.isHalted = true ∧ ∃ ms, t.sent = s.sent ++ ms ∧ ∀ m ∈ ms, m.isStoreWrite = false

/-- No command takes a message back or touches the queue: the messages sent before stand first, in order, and the queue is as it
was (both are the model's own fields, log entries 1 and 6). A REQUEST goes out on the store link only by a grant of the arbiter, or
as start-up's CAPACITY request (5.7). -/
def Obligations.OnlyGrantsSendStoreRequests : Prop :=
  ∀ (c : Instr) (s t : State), exec c s = .next t →
    t.pending = s.pending ∧ ∃ ms, t.sent = s.sent ++ ms
      ∧ (c ≠ .storeGrant → c ≠ .startupCapacity → ∀ m ∈ ms, m.isStoreRequest = false)

/-! ### Checks and formats -/

/-- A chain of records decodes back to the same bytes: whatever the reference, records of 40 bytes, each of which may be coded
only if it is a call record with a good CRC (4.3, 4.4). The places of the mask's bits are the model's choice (log entry 9). -/
def Obligations.CodedRecordsDecodeBack : Prop :=
  ∀ (ref : List Byte) (rs : List (Bool × List Byte)), ref.length = 40 → (∀ p ∈ rs, codable p) →
    decodeEntries rs.length ref (encodeRecords ref rs) = some (rs.flatMap (·.2))

/-- Every directive that a server writes in the block form of 12.2 passes the test of R152 and is dispatched as the command it
spells, every field at every value. -/
def Obligations.DirectiveBlocksDecodeBack : Prop :=
  ∀ (c : Instr) (tag : Byte) (marker : BitVec 128) (code : Nat) (ref : BitVec 32) (body : List Byte),
    c.directiveTag = some tag → c.wf = true → directiveForm c = some (code, ref, body) →
      (directiveBlock marker code ref body).length = 4096
        ∧ directiveMarker (directiveBlock marker code ref body) = marker
        ∧ directiveCheckGood (directiveBlock marker code ref body) = true
        ∧ decodeDirective tag (directiveBlock marker code ref body) = .ok c

/-- A catalogue record reads back as the volume record it was made from, without the four flags, the mark and the map; a FREE
record reads back as FREE. The layout is the model's choice (log entry 8). -/
def Obligations.CatalogueRecordsReadBack : Prop :=
  (∀ v : Volume, v.Fits → (catRecordBytes (some v)).length = 256
    ∧ parseCatRecord v.window (catRecordBytes (some v)) = some v.kept)
  ∧ ∀ w : Nat, parseCatRecord w (catRecordBytes none) = none

/-- A settings block reads back as what it was made from. The layout is the model's choice (log entry 8). -/
def Obligations.SettingsBlocksReadBack : Prop :=
  ∀ x : Stored, x.Fits → (storedBlock x).length = 4096 ∧ parseStored (storedBlock x) = some x

/-- A stored segment is as many blocks as R73 gives it, and its header and payload read back. The header's layout is the model's
choice (log entry 7). The scan of a zone (11.5, phase 4) that begins with segments back to back finds them in order, each with its
offset, its lead and its tail bytes, and ends behind the last, where no segment that fits in the zone begins; what it notes for
start-up are those segments, the scan end, a top write stamp and a top serial that none of them exceeds. -/
def Obligations.StoredSegmentsReadBack : Prop :=
  (∀ (h : SegHeader) (payload : List Byte), h.Fits → payloadFits h payload →
    (segmentBlocks h payload).length = h.len ∧ (∀ b ∈ segmentBlocks h payload, b.length = 4096)
      ∧ parseSegment (segmentBlocks h payload).flatten = some (h, payload))
  ∧ ∀ (zone : Nat) (segs : List (SegHeader × List Byte)) (rest : List (Option Block)),
      (∀ x ∈ segs, x.1.Fits ∧ payloadFits x.1 x.2) →
      let blocks := segs.flatMap fun x => segmentBlocks x.1 x.2
      let offset (i : Nat) : Nat := ((segs.take i).map fun x => x.1.len).sum
      blocks.length ≤ 4096 →
      (∀ b, rest.head? = some (some b) → fld b 0 8 ≠ Config.segmentMarker.toNat ∨ parseHeader b = none
        ∨ ∃ h, parseHeader b = some h ∧ 4096 - blocks.length < h.len) →
      let scan := scanKept zone 4096 0 (blocks.map some ++ rest)
      scan.2 = blocks.length ∧ scan.2 = offset segs.length
      ∧ scan.1.map (fun f => (f.zone, f.hdr, f.lead, f.tail)) = segs.map (fun x =>
          (zone, x.1, x.2.take x.1.lead, x.2.drop (x.2.length - x.1.tail)))
      ∧ scan.1.map (·.off) = (List.range segs.length).map offset
      ∧ ∀ u : Startup, ∃ n z serials, (u.scanZone zone (blocks.map some ++ rest)) = { u with
            found := u.found ++ scan.1, ends := u.ends ++ [(zone, scan.2)], top := if segs = [] then
              (u.scanZone zone (blocks.map some ++ rest)).top else some (n, z), maxSerial := serials, zoneBlocks := [] }
          ∧ u.maxSerial ≤ serials ∧ ∀ x ∈ segs, x.1.stamp ≤ n ∧ x.1.serial ≤ serials

/-- A rendered journal block has 4096 bytes and a good CRC-32, and its entries read back in order with their codes, sequences and
padded bodies (12.3). Start-up keeps, of the ring blocks it reads, the valid one of highest block sequence (11.5, 9.4), and notes
the serials of the PURGE entries; from the block kept it sets the journal unit: its sequence, its entries, the next entry sequence,
and the read pointer brought into the ring's reach; with no valid block the journal is empty. -/
def Obligations.JournalBlocksReadBack : Prop :=
  (∀ (head firstSeq n : Nat) (items : List JournalItem), head < 2 ^ 64 → (∀ e ∈ items, e.Fits) →
    (items.flatMap JournalItem.bytes).length ≤ 4064 →
    let buf : JournalBuffer := { firstSeq, count := items.length, body := items.flatMap JournalItem.bytes }
    let b := renderJournal head buf
    b.length = 4096 ∧ ringValid n (head % n) b = true
      ∧ (blockEntries b).map (fun e => (e.code, e.seq, e.body))
        = items.map (fun e => (e.code, e.seq, padTo (entryLen e.body - 16) e.body))
      ∧ (∀ u : Startup, u.pos = head % n → ∃ m c, u.takeRing n (some b) = { u with
            best := some c, maxSerial := m, purged := u.purged ++
              ((items.filter fun e => e.code = 7).map fun e => fld (padTo (entryLen e.body - 16) e.body) 2 4) }
          ∧ u.maxSerial ≤ m ∧ (c = b ∨ u.best = some c) ∧ head ≤ fld c 0 8 ∧ (∀ d, u.best = some d → fld d 0 8 ≤ fld c 0 8)
          ∧ ∀ e ∈ items, (e.code = 2 ∨ e.code = 3 ∨ e.code = 5 ∨ e.code = 7 ∨ e.code = 0x0B ∨ e.code = 0x0E) →
              fld (padTo (entryLen e.body - 16) e.body) 2 4 ≤ m)
      ∧ ∀ (u : Startup) (s : State), firstSeq < 2 ^ 64 → u.best = some b → s.setJournal u = { s with jr := { s.jr with
          ready := true, head
          buf := { buf with complete := true, asRead := some b }
          nextSeq := match items.getLast? with
            | none => firstSeq
            | some e => e.seq + 1
          readPtr := min (max s.jr.readPtr (head + 1 - s.ringLen)) (head + 1) } })
  ∧ ∀ (n : Nat) (b : Block) (u : Startup), u.takeRing n none = u
      ∧ (((journalCrc b).toNat ≠ fld b 28 4 ∨ fld b 0 8 % n ≠ u.pos) → u.takeRing n (some b) = u)
      ∧ ∀ s : State, u.best = none → s.setJournal u = { s with jr := { s.jr with
          ready := true, head := 0, buf := {}, nextSeq := 1, readPtr := 0 } }

/-! ### Client requests -/

/-- The checks on a REQUEST, in their order (2.4): an early halt answers HALTED and start-up BUSY_RETRY; a bad tag, count or
operation is refused with BAD_REQUEST; a READ or WRITE that leaves its window is refused with CROSSES_WINDOW. Each completion is
sent at once, and nothing else changes. -/
def Obligations.RequestChecksInOrder : Prop :=
  ∀ (tag op : Byte) (addr : BitVec 64) (n : BitVec 16) (s : State), s.client.up = true → s.resetHeld = false →
    let refused (c : Instr) (st : Status) (r : Option Reason) : Prop :=
      exec c s = .next (s.send (.completion tag.toNat st r 0))
    let transfers : List Instr := [.read tag addr n, .write tag addr n]
    let all : List Instr := transfers ++ [.sync tag addr n, .clientCapacity tag op addr n]
    (s.haltedEarly = true → ∀ c ∈ all, refused c .halted none)
    ∧ (s.haltedEarly = false → s.startup.isSome = true → ∀ c ∈ all, refused c .busyRetry none)
    ∧ (s.haltedEarly = false → s.startup = none →
        (31 < tag.toNat ∨ (s.tag tag.toNat).isSome = true → ∀ c ∈ all, refused c .refused (some .badRequest))
        ∧ refused (.clientCapacity tag op addr n) .refused (some .badRequest)
        ∧ (n ≠ 0 → refused (.sync tag addr n) .refused (some .badRequest))
        ∧ (n = 0 ∨ 256 < n.toNat → ∀ c ∈ transfers, refused c .refused (some .badRequest))
        ∧ (tag.toNat ≤ 31 → s.tag tag.toNat = none → 1 ≤ n.toNat → n.toNat ≤ 256 →
            16777215 < addrOffset addr + n.toNat - 1 → ∀ c ∈ transfers, refused c .refused (some .crossesWindow)))

/-- A READ that passes the checks is routed by its window (2.9): SERVING for window 4095, a FREE window and a CLOSED volume;
EXPIRED for an EXPIRING volume; SERVING for an OPEN, SUSPENDED or CLOSING volume, but HALTED while the part is HALTED. Nothing
else changes. -/
def Obligations.ReadsAreRoutedByWindow : Prop :=
  ∀ (tag : Byte) (addr : BitVec 64) (n : BitVec 16) (s : State), s.TakesRequests → tag.toNat ≤ 31 → s.tag tag.toNat = none →
    1 ≤ n.toNat → n.toNat ≤ 256 → addrOffset addr + n.toNat - 1 ≤ 16777215 →
    let serving (serial : Option Nat) : State := s.addTag
      { tag := tag.toNat, op := .read, phase := .serving, window := addrWindow addr, offset := addrOffset addr,
        count := n.toNat, serial }
    let answered (st : Status) : State := s.send (.completion tag.toNat st none 0)
    exec (.read tag addr n) s = .next
      (if addrWindow addr = 4095 then serving none
      else match s.vol (addrWindow addr) with
        | none => serving none
        | some v => match v.state with
          | .expiring => answered .expired
          | .closed => serving (some v.serial)
          | _ => if s.halted = none then serving (some v.serial) else answered .halted)

/-- A WRITE that passes the checks is routed at its REQUEST by the first case that applies (2.5), but for the admission test of
an OPEN volume: HALTED, put aside, or refused as the table says. Nothing else changes. A write put aside for offset 0 of a FREE
window is noted as an opening write (1.4). -/
def Obligations.WritesAreRoutedAtTheirRequest : Prop :=
  ∀ (tag : Byte) (addr : BitVec 64) (n : BitVec 16) (s : State), s.TakesRequests → tag.toNat ≤ 31 → s.tag tag.toNat = none →
    1 ≤ n.toNat → n.toNat ≤ 256 → addrOffset addr + n.toNat - 1 ≤ 16777215 →
    let aside : State := s.addTag
      { tag := tag.toNat, op := .write, phase := .awaitingBlock, window := addrWindow addr, offset := addrOffset addr,
        count := n.toNat
        opening := decide (addrWindow addr ≠ 4095 ∧ addrOffset addr = 0 ∧ s.vol (addrWindow addr) = none) }
    let answered (st : Status) (r : Option Reason) : State := s.send (.completion tag.toNat st r 0)
    (s.isHalted = true → exec (.write tag addr n) s = .next (answered .halted none))
    ∧ (s.isHalted = false → n = 1 → exec (.write tag addr n) s = .next aside)
    ∧ (s.isHalted = false → n ≠ 1 → addrWindow addr = 4095 →
        exec (.write tag addr n) s = .next (answered .refused (some .journalReadOnly)))
    ∧ (s.isHalted = false → addrWindow addr ≠ 4095 → 64 < n.toNat →
        exec (.write tag addr n) s = .next (answered .refused (some .badRequest)))
    ∧ (s.isHalted = false → n ≠ 1 → addrWindow addr ≠ 4095 → n.toNat ≤ 64 → s.vol (addrWindow addr) = none →
        exec (.write tag addr n) s = .next (if addrOffset addr = 0 then aside else answered .busyRetry none))
    ∧ (s.isHalted = false → n ≠ 1 → addrWindow addr ≠ 4095 → n.toNat ≤ 64 → ∀ v, s.vol (addrWindow addr) = some v →
        v.state ≠ .opened → exec (.write tag addr n) s =
          .next (answered .refused (some (if v.state = .expiring then .windowBusy else .volumeClosed))))

/-- The admission test of a write of 2 to 64 blocks to an OPEN volume (2.6): APPEND_ONLY below the ingest point or at an offset
that a slot carries; BUSY_RETRY beyond the reorder window or short of slots; else one RESERVED slot per block, the entry in
RECEIVING with the completion mode in force, the idle timer loaded and STALLED cleared, and nothing else. -/
def Obligations.AdmissionTestDecides : Prop :=
  ∀ (tag : Byte) (addr : BitVec 64) (n : BitVec 16) (s : State) (v : Volume), s.TakesRequests → s.halted = none →
    tag.toNat ≤ 31 → s.tag tag.toNat = none → 2 ≤ n.toNat → n.toNat ≤ 64 → addrOffset addr + n.toNat - 1 ≤ 16777215 →
    addrWindow addr ≠ 4095 → s.vol (addrWindow addr) = some v → v.state = .opened →
    let off := addrOffset addr
    let taken : Prop := off < v.ingest
      ∨ ∃ x ∈ s.client.slots, x.serial = v.serial ∧ off ≤ x.offset ∧ x.offset < off + n.toNat
    let beyond : Prop := v.ingest + 63 < off + n.toNat - 1
    let short : Prop := 256 < s.client.slots.length + n.toNat
    let answered (st : Status) (r : Option Reason) : State := s.send (.completion tag.toNat st r 0)
    (taken → exec (.write tag addr n) s = .next (answered .refused (some .appendOnly)))
    ∧ (¬taken → beyond → exec (.write tag addr n) s = .next (answered .busyRetry none))
    ∧ (¬taken → ¬beyond → short → exec (.write tag addr n) s = .next (answered .busyRetry none))
    ∧ (¬taken → ¬beyond → ¬short → exec (.write tag addr n) s = .next
        { s with
          client := { s.client with
            tags := insertBy (·.tag)
              { tag := tag.toNat, op := .write, phase := .receiving, window := addrWindow addr, offset := off,
                count := n.toNat, serial := some v.serial, mode := some s.set.work.mode } s.client.tags
            slots := s.client.slots ++ (List.range n.toNat).map fun i =>
              { serial := v.serial, offset := off + i, tag := tag.toNat } }
          ctxs := s.ctxs.map fun c => if c.window = v.window then
            { c with idle := if s.set.work.idleLimit = 0 then none else some (s.set.work.idleLimit, s.set.work.idleUnit) }
            else c
          vols := s.vols.map fun u => if u.window = v.window then { u with stalled := false } else u })

/-- A SYNC that passes the checks is answered by its window (2.8): HALTED; GOOD at once for a FREE window and a SUSPENDED, CLOSED
or EXPIRING volume; GOOD at once for window 4095 when no journal write is owed; SYNCING for an OPEN volume whose target the
framer and the store have still to reach; SYNCING for a CLOSING volume whose step 1 has not ended. An OPEN volume whose target is its
ingest point: answered at once when all below it is committed, GOOD or STORE_ERROR at the first lost block; else its open segment is
closed for SYNC at once, or that close is held while three segments are pending, and the SYNC waits. A SYNC of window 4095 with an entry
in block H, or an earlier block's write outstanding, calls for the write of block H as a forced write, handed over or gathered,
and waits for it and for every earlier one; in FAIL mode with the link DOWN it ends UNAVAILABLE. The other SYNCING clauses are said
with the store link UP or in HOLD mode.
What FAIL mode answers and what a SYNC of window 4095 waits for are the model's reading (log entries 16 and 30). -/
def Obligations.SyncsAreAnsweredByWindow : Prop :=
  ∀ (tag : Byte) (addr : BitVec 64) (s : State), s.TakesRequests → tag.toNat ≤ 31 → s.tag tag.toNat = none →
    let answered (st : Status) : State := s.send (.completion tag.toNat st none 0)
    let syncing (serial : Nat) (target : Option Nat) : State := s.addTag
      { tag := tag.toNat, op := .sync, phase := .syncing, window := addrWindow addr, offset := 0, count := 0,
        serial := some serial, target }
    (s.isHalted = true → exec (.sync tag addr 0) s = .next (answered .halted))
    ∧ (s.isHalted = false → addrWindow addr = 4095 → s.jr.buf.count = 0 →
        (∀ w ∈ s.jr.writes, w.ring = s.headRing) → exec (.sync tag addr 0) s = .next (answered .good))
    ∧ (s.isHalted = false → addrWindow addr = 4095 → s.jr.buf.count ≠ 0 ∨ (∃ w ∈ s.jr.writes, w.ring ≠ s.headRing) →
        (s.lossFail = true → exec (.sync tag addr 0) s = .next (answered .unavailable))
        ∧ (s.lossFail = false →
          let block := renderJournal s.jr.head s.jr.buf
          let earlier (w : JournalWrite) : JournalWrite := { w with waiters := w.waiters ++ [.sync tag.toNat] }
          let waits (writes : List JournalWrite) : State := { s.addTag
            { tag := tag.toNat, op := .sync, phase := .syncing, window := 4095, offset := 0, count := 0
              journalWrites := 1 + (s.jr.writes.filter (·.ring ≠ s.headRing)).length } with jr := { s.jr with writes } }
          ((∀ w ∈ s.jr.writes, w.ring ≠ s.headRing) →
            let t := waits (s.jr.writes.map earlier ++ [{ ring := s.headRing, content := block, waiters := [.sync tag.toNat] }])
            exec (.sync tag addr 0) s = .next { t with port := { s.port with queue := s.port.queue ++ [
              { cls := 1, user := .journal s.headRing, op := .write, block := 4096 + s.headRing, count := 1, data := [block] }] } })
          ∧ ((∃ w ∈ s.jr.writes, w.ring = s.headRing) → exec (.sync tag addr 0) s = .next (waits (s.jr.writes.map fun w =>
              if w.ring = s.headRing then { w with gathered := some (block, (match w.gathered with
                | none => []
                | some (_, l) => l) ++ [.sync tag.toNat]) }
              else earlier w)))))
    ∧ (s.isHalted = false → addrWindow addr ≠ 4095 → s.vol (addrWindow addr) = none →
        exec (.sync tag addr 0) s = .next (answered .good))
    ∧ (s.isHalted = false → addrWindow addr ≠ 4095 → ∀ v, s.vol (addrWindow addr) = some v →
        v.state = .suspended ∨ v.state = .closed ∨ v.state = .expiring →
          exec (.sync tag addr 0) s = .next (answered .good))
    ∧ (s.isHalted = false → addrWindow addr ≠ 4095 → s.lossFail = false → ∀ v c target,
        s.vol (addrWindow addr) = some v → v.state = .opened → s.ctx (addrWindow addr) = some c →
        s.contiguous v.serial 256 v.ingest = target → v.ingest < target → c.committed < target →
        (∀ e ∈ s.client.tags, e.phase = .syncing → e.serial = some v.serial → ∀ g, e.target = some g → c.committed < g) →
          exec (.sync tag addr 0) s = .next (syncing v.serial (some target)))
    ∧ (s.isHalted = false → addrWindow addr ≠ 4095 → s.lossFail = false → ∀ v c k,
        s.vol (addrWindow addr) = some v → v.state = .closing → s.ctx (addrWindow addr) = some c → c.close = some k →
        k.stage = .taking ∨ k.stage = .segments → exec (.sync tag addr 0) s = .next (syncing v.serial none))
    ∧ (s.isHalted = false → addrWindow addr ≠ 4095 → ∀ v c, s.vol (addrWindow addr) = some v → v.state = .opened →
        s.ctx (addrWindow addr) = some c → c.serial = v.serial → s.heldAt v.serial v.ingest = none → c.seg.held = none →
        (∀ e ∈ s.client.tags, e.phase = .syncing → e.serial = some v.serial → ∀ g, e.target = some g → c.committed < g) →
        let own : State := syncing v.serial (some v.ingest)
        (c.seg.blocks = 0 → v.ingest ≤ c.committed →
          ((∀ m ∈ v.map, m.kind = .lost → v.ingest ≤ m.first) →
            exec (.sync tag addr 0) s = .next (own.complete tag.toNat .good none 0))
          ∧ ∀ pre m post, v.map = pre ++ m :: post → (∀ x ∈ pre, x.kind ≠ .lost) → m.kind = .lost → 0 < m.count →
              m.first < v.ingest → exec (.sync tag addr 0) s = .next (own.complete tag.toNat .storeError none m.first))
        ∧ (c.seg.blocks ≠ 0 → c.committed < v.ingest → s.lossFail = false →
          (3 ≤ (s.pendOf v.serial).length → ∃ t, exec (.sync tag addr 0) s = .next t ∧ t.client = own.client ∧ t.pend = s.pend
            ∧ t.ctxs = s.ctxs.map fun x => if x.window = c.window then { x with seg := { x.seg with held := some .sync } } else x)
          ∧ ((s.pendOf v.serial).length < 3 → 0 < s.alloc.mapFree → c.openCatalogue = true → c.openSettings = true →
            (∀ x ∈ s.pend, ¬(x.hdr.serial = v.serial ∧ x.hdr.index = c.next)) → ∀ z, s.alloc.filling = some z →
            z.fill + c.sealLen ≤ 4096 → ∃ t p, exec (.sync tag addr 0) s = .next t ∧ t.client = own.client
              ∧ t.pend = s.pend ++ [p] ∧ p.hdr.serial = v.serial ∧ p.hdr.index = c.next ∧ p.hdr.first = c.seg.first
              ∧ p.hdr.count = c.seg.blocks ∧ p.status = .writing ∧ p.place.isSome = true
              ∧ ∃ k, t.ctx (addrWindow addr) = some k ∧ k.next = c.next + 1 ∧ k.seg.blocks = 0
                ∧ k.seg.first = c.seg.first + c.seg.blocks)))

/-- A DATA block of a RECEIVING write goes into the slot reserved for its offset, which becomes HELD, and blocks done rises by one;
the last block completes a POSTED write GOOD and puts a COMMITTED write into WAITING_COMMIT, or ends it UNAVAILABLE while the
store link is DOWN in FAIL mode (2.6, 2.7, 2.11). DATA for a tag without an entry, or without a slot that waits for it, changes
nothing (2.1).
The moment of the UNAVAILABLE answer is the model's reading (log entry 16). -/
def Obligations.DataFillsItsReservedSlot : Prop :=
  ∀ (tag : Byte) (index : BitVec 16) (b : Block) (s : State), s.client.up = true → s.resetHeld = false → b.length = 4096 →
    (s.tag tag.toNat = none → exec (.clientData tag index b) s = .next s)
    ∧ ∀ (e : TagEntry) (serial : Nat), s.tag tag.toNat = some e → e.phase = .receiving → e.serial = some serial →
        let off := e.offset + index.toNat
        let waits (x : Slot) : Prop := x.tag = tag.toNat ∧ x.serial = serial ∧ x.offset = off ∧ x.data = none
        let placed : State := { s with client := { s.client with
          slots := s.client.slots.map fun x =>
            if x.tag = tag.toNat ∧ x.serial = serial ∧ x.offset = off ∧ x.data = none then { x with data := some b } else x
          tags := s.client.tags.map fun x => if x.tag = tag.toNat then { e with done := e.done + 1 } else x } }
        ((∀ x ∈ s.client.slots, ¬waits x) → exec (.clientData tag index b) s = .next s)
        ∧ ((∃ x ∈ s.client.slots, waits x) → exec (.clientData tag index b) s = .next
            (if e.done + 1 ≠ e.count then placed
            else if e.mode ≠ some .committed then placed.complete tag.toNat .good none 0
            else if s.lossFail then placed.complete tag.toNat .unavailable none 0
            else placed.modTag tag.toNat fun x => { x with phase := .waitingCommit }))

/-- The examined block of a one-block write that opens with the directive marker decides its fate whatever its window holds (2.5,
10.1): a bad check ends it DIRECTIVE_CHECK; a good one hands the directive to its owner and the entry enters DIRECTIVE, or ends it
with the reason found at dispatch. Said of a write for which no other DATA waits on the link. Dispatch (10.2, 12.2): a code of 0 or
above 16 ends it UNKNOWN_DIRECTIVE. BAD_FIELD ends it for a body that reaches beyond byte 4091, for a body length other than the
table's of its code, or than 3 + 8n for the n entries of a TARIFF_LOAD, for a RESOLVE choice above 1 and for a TARIFF_LOAD entry whose
zero byte is not zero. Every other block is handed to its owner. -/
def Obligations.DirectiveBlocksAreDispatched : Prop :=
  ∀ (tag : Byte) (b : Block) (s : State) (e : TagEntry), s.client.up = true → s.resetHeld = false → s.halted = none →
    b.length = 4096 → s.tag tag.toNat = some e → e.phase = .awaitingBlock → e.count = 1 →
    (∀ d ∈ s.client.linkData, d.tag ≠ tag.toNat) → directiveMarker b = s.set.workMarker →
    (directiveCheckGood b = false →
      exec (.clientData tag 0 b) s = .next (s.complete tag.toNat .refused (some .directiveCheck) 0))
    ∧ (directiveCheckGood b = true → ∀ r, decodeDirective tag b = .error r →
        exec (.clientData tag 0 b) s = .next (s.complete tag.toNat .refused (some r) 0))
    ∧ (directiveCheckGood b = true → ∀ c, decodeDirective tag b = .ok c →
        exec (.clientData tag 0 b) s = .next { s with client := { s.client with
          tags := s.client.tags.map fun x =>
            if x.tag = tag.toNat then { x with phase := .directive, held := none } else x
          dispatched := s.client.dispatched ++ [{ owed := true, command := c }] } })
    ∧ (directiveCheckGood b = true →
        let code := fld b 16 2
        let len := fld b 22 2
        let lengths : List (Nat × Nat) := [(1, 14), (2, 16), (3, 0), (4, 6), (5, 6), (6, 7), (8, 1), (9, 2), (10, 6), (11, 9),
          (12, 2), (13, 6), (14, 6), (15, 6), (16, 2)]
        let entries := fld b 26 1
        let malformed : Prop := (∃ p ∈ lengths, code = p.1 ∧ len ≠ p.2) ∨ (code = 7 ∧ len ≠ 3 + 8 * entries)
        let outside : Prop := (code = 6 ∧ 1 < fld b 30 1) ∨ (code = 7 ∧ ∃ i < entries, fld b (28 + 8 * i) 1 ≠ 0)
        (code = 0 ∨ 16 < code →
          exec (.clientData tag 0 b) s = .next (s.complete tag.toNat .refused (some .unknownDirective) 0))
        ∧ (1 ≤ code → code ≤ 16 → 4068 < len ∨ malformed ∨ outside →
          exec (.clientData tag 0 b) s = .next (s.complete tag.toNat .refused (some .badField) 0))
        ∧ (1 ≤ code → code ≤ 16 → ¬malformed → ¬outside → ∃ c, decodeDirective tag b = .ok c))

/-- An opening write is tested in the order of 1.4 when its block 0 arrives: NOT_A_VOLUME, DUPLICATE_VOLUME, OPEN_LIMIT for want of
a context or a serial, BUSY_RETRY while JOURNAL_FULL holds or the pool is short of slots. Each refusal leaves the window FREE and
changes nothing but the request.
Any other put-aside write whose block is no directive is answered by what its window holds by then (2.5): DUPLICATE_VOLUME for an
opening write whose window a volume of the same identity has taken meanwhile (log entry 42), else by the table, or by the admission
test of an OPEN volume. Admitted, its block goes into its slot, and the DATA that waited on the link for it is taken with it (2.1);
DATA of every other index, also one of the count or more, waits on the link while block 0 is awaited (the model's reading, log entry
20). -/
def Obligations.OpeningTestsInOrder : Prop :=
  (∀ (tag : Byte) (b : Block) (s : State) (e : TagEntry), s.client.up = true → s.resetHeld = false → s.halted = none →
    b.length = 4096 → s.tag tag.toNat = some e → e.phase = .awaitingBlock → e.offset = 0 → 1 ≤ e.count → e.count ≤ 64 →
    e.window ≠ 4095 → s.vol e.window = none → e.count ≠ 1 ∨ directiveMarker b ≠ s.set.workMarker →
    let hdr := b.take 40
    let ends (st : Status) (r : Option Reason) : Prop :=
      exec (.clientData tag 0 b) s = .next (s.complete tag.toNat st r 0)
    let twin : Prop := ∃ v ∈ s.vols, v.source = headerSource hdr ∧ v.day = headerDay hdr ∧ v.gen = headerGen hdr
    (validHeader hdr = false → ends .refused (some .notAVolume))
    ∧ (validHeader hdr = true → twin → ends .refused (some .duplicateVolume))
    ∧ (validHeader hdr = true → ¬twin → 32 ≤ s.ctxs.length ∨ s.serialCounter = 0 → ends .refused (some .openLimit))
    ∧ (validHeader hdr = true → ¬twin → s.ctxs.length < 32 → s.serialCounter ≠ 0 → s.journalFull = true → ends .busyRetry none)
    ∧ (validHeader hdr = true → ¬twin → s.ctxs.length < 32 → s.serialCounter ≠ 0 → s.journalFull = false →
        256 < s.client.slots.length + e.count → ends .busyRetry none))
  ∧ (∀ (tag : Byte) (index : BitVec 16) (b : Block) (s : State) (e : TagEntry), s.client.up = true → s.resetHeld = false →
    b.length = 4096 → s.tag tag.toNat = some e → e.phase = .awaitingBlock → index ≠ 0 →
    exec (.clientData tag index b) s = .next { s with client := { s.client with
      linkData := s.client.linkData ++ [{ tag := tag.toNat, index := index.toNat, block := b }] } })
  ∧ ∀ (tag : Byte) (b : Block) (s : State) (e : TagEntry), s.client.up = true → s.resetHeld = false → s.halted = none →
    b.length = 4096 → s.tag tag.toNat = some e → e.phase = .awaitingBlock → e.done = 0 → 1 ≤ e.count →
    e.count ≠ 1 ∨ directiveMarker b ≠ s.set.workMarker →
    let hdr := b.take 40
    let ends (st : Status) (r : Option Reason) : Prop :=
      exec (.clientData tag 0 b) s = .next (s.complete tag.toNat st r 0)
    let overtaken : Prop := e.opening = true ∧ validHeader hdr = true ∧ ∃ v, s.vol e.window = some v
      ∧ v.source = headerSource hdr ∧ v.day = headerDay hdr ∧ v.gen = headerGen hdr
    (overtaken → ends .refused (some .duplicateVolume))
    ∧ (¬overtaken → e.window = 4095 → ends .refused (some .journalReadOnly))
    ∧ (¬overtaken → e.window ≠ 4095 → 64 < e.count → ends .refused (some .badRequest))
    ∧ (¬overtaken → e.window ≠ 4095 → e.count ≤ 64 →
      (s.vol e.window = none → e.offset ≠ 0 → ends .busyRetry none)
      ∧ ∀ v, s.vol e.window = some v →
        (v.state = .expiring → ends .refused (some .windowBusy))
        ∧ (v.state = .suspended ∨ v.state = .closing ∨ v.state = .closed → ends .refused (some .volumeClosed))
        ∧ (v.state = .opened →
          let taken : Prop := e.offset < v.ingest
            ∨ ∃ x ∈ s.client.slots, x.serial = v.serial ∧ e.offset ≤ x.offset ∧ x.offset < e.offset + e.count
          let beyond : Prop := v.ingest + 63 < e.offset + e.count - 1
          let short : Prop := 256 < s.client.slots.length + e.count
          let entry (ph : Phase) (n : Nat) : TagEntry :=
            { e with phase := ph, serial := some v.serial, mode := some s.set.work.mode, held := none, done := n }
          let slot (i : Nat) (d : Option Block) : Slot :=
            { serial := v.serial, offset := e.offset + i, tag := tag.toNat, data := d }
          let staged (slots : List Slot) (y : TagEntry) : State := { s with
            client := { s.client with
              tags := s.client.tags.map fun x => if x.tag = tag.toNat then y else x
              slots := s.client.slots ++ slots
              linkData := s.client.linkData.filter (·.tag ≠ tag.toNat) }
            ctxs := s.ctxs.map fun c => if c.window = e.window then
              { c with idle := if s.set.work.idleLimit = 0 then none else some (s.set.work.idleLimit, s.set.work.idleUnit) }
              else c
            vols := s.vols.map fun u => if u.window = e.window then { u with stalled := false } else u }
          (taken → ends .refused (some .appendOnly))
          ∧ (¬taken → beyond ∨ short → ends .busyRetry none)
          ∧ (¬taken → ¬beyond → ¬short →
            (2 ≤ e.count → (∀ d ∈ s.client.linkData, d.tag ≠ tag.toNat) → exec (.clientData tag 0 b) s = .next
              (staged (slot 0 (some b) :: (List.range (e.count - 1)).map fun i => slot (i + 1) none) (entry .receiving 1)))
            ∧ (e.count = 1 → s.set.work.mode = .posted → exec (.clientData tag 0 b) s = .next
              ((staged [slot 0 (some b)] (entry .receiving 1)).complete tag.toNat .good none 0))
            ∧ (e.count = 1 → s.set.work.mode = .committed → s.lossFail = false → exec (.clientData tag 0 b) s = .next
              (staged [slot 0 (some b)] (entry .waitingCommit 1)))
            ∧ ∀ b', e.count = 2 → (s.client.linkData.filter fun d => d.tag = tag.toNat) = [{ tag := tag.toNat, index := 1, block := b' }] →
              (s.set.work.mode = .posted → exec (.clientData tag 0 b) s = .next
                ((staged [slot 0 (some b), slot 1 (some b')] (entry .receiving 2)).complete tag.toNat .good none 0))
              ∧ (s.set.work.mode = .committed → s.lossFail = false → exec (.clientData tag 0 b) s = .next
                (staged [slot 0 (some b), slot 1 (some b')] (entry .waitingCommit 2))))))

/-- An opening write that passes its tests opens its volume (1.4): the record as R8 fills it, the serial counter moved on, and a fresh
context with the lowest free number; the window's catalogue block is rewritten and a settings write called for, each with the open as
its waiter; block 0 is HELD in its slot and the other blocks have RESERVED slots. The entry is RECEIVING with one block done, or, of a
one-block write, completed GOOD in POSTED mode and WAITING_COMMIT in COMMITTED mode. Other windows, pending segments, zones and the
journal's buffer stay as they were. -/
def Obligations.OpeningWriteOpensItsVolume : Prop :=
  ∀ (tag : Byte) (b : Block) (s : State) (e : TagEntry), s.client.up = true → s.resetHeld = false → s.halted = none →
    b.length = 4096 → s.tag tag.toNat = some e → e.phase = .awaitingBlock → e.offset = 0 → 1 ≤ e.count → e.count ≤ 64 →
    e.window ≠ 4095 → s.vol e.window = none → e.count ≠ 1 ∨ directiveMarker b ≠ s.set.workMarker →
    let hdr := b.take 40
    validHeader hdr = true → (∀ v ∈ s.vols, ¬(v.source = headerSource hdr ∧ v.day = headerDay hdr ∧ v.gen = headerGen hdr)) →
    s.ctxs.length < 32 → s.serialCounter ≠ 0 → s.journalFull = false → s.client.slots.length + e.count ≤ 256 →
    s.ctx e.window = none → (∀ x ∈ s.client.slots, x.serial ≠ s.serialCounter) → e.done = 0 →
    let n := s.serialCounter
    let days := (s.classEntry (headerClass hdr)).days
    let record : Volume :=
      { window := e.window, serial := n, state := .opened, source := headerSource hdr, day := headerDay hdr,
        gen := headerGen hdr, cls := headerClass hdr, openedOn := s.ret.day, bank := s.tariff.active,
        expiry := if days = 0 then none else some (headerDay hdr + days) }
    let fresh (num : Nat) : Ctx :=
      { num, window := e.window, serial := n, bank := s.tariff.active, reference := zeroRecord, seg := { index := 0, first := 0 }
        idle := if s.set.work.idleLimit = 0 then none else some (s.set.work.idleLimit, s.set.work.idleUnit)
        openCatalogue := false, openSettings := false }
    let opened (num : Nat) : State := { s with
      vols := insertBy (·.window) record s.vols
      ctxs := s.ctxs ++ [fresh num]
      serialCounter := if n = 4294967295 then 0 else n + 1 }
    let called (num : Nat) : State := State.callSettings (.opening n) (State.callCatalogue e.window [.opening n] (opened num))
    let entry (ph : Phase) : TagEntry :=
      { e with phase := ph, serial := some n, mode := some s.set.work.mode, held := none, done := 1 }
    ∃ t num, exec (.clientData tag 0 b) s = .next t
      ∧ num < 32 ∧ (∀ c ∈ s.ctxs, c.num ≠ num) ∧ (∀ m, m < num → ∃ c ∈ s.ctxs, c.num = m)
      ∧ t.vol e.window = some record
      ∧ (∀ w, w ≠ e.window → t.vol w = s.vol w)
      ∧ t.serialCounter = (if n = 4294967295 then 0 else n + 1)
      ∧ t.ctxs = s.ctxs ++ [fresh num]
      ∧ t.heldAt n 0 = some b
      ∧ t.set = (called num).set
      ∧ (∀ r ∈ (called num).port.queue, isJournalReadOf tag.toNat r.user = false → r ∈ t.port.queue)
      ∧ ((∀ d ∈ s.client.linkData, d.tag ≠ tag.toNat) →
          (2 ≤ e.count → t.tag tag.toNat = some (entry .receiving) ∧ t.sent = s.sent
            ∧ t.client.slots = s.client.slots ++ { serial := n, offset := 0, tag := tag.toNat, data := some b } ::
                (List.range (e.count - 1)).map fun i => { serial := n, offset := i + 1, tag := tag.toNat })
          ∧ (e.count = 1 → s.set.work.mode = .posted →
              t.tag tag.toNat = none ∧ t.sent = s.sent ++ [.completion tag.toNat .good none 0])
          ∧ (e.count = 1 → s.set.work.mode = .committed → s.lossFail = false →
              t.tag tag.toNat = some (entry .waitingCommit) ∧ t.sent = s.sent))
      ∧ t.pend = s.pend ∧ t.alloc = s.alloc ∧ t.jr.buf = s.jr.buf ∧ t.ret = s.ret ∧ t.audit = s.audit
      ∧ t.tariff = s.tariff

/-- ABORT acts by the phase of the entry that holds its tag (2.10): none, or DIRECTIVE, and it is ignored; otherwise the request
completes ABORTED with the block field of the table. -/
def Obligations.AbortActsByPhase : Prop :=
  ∀ (tag : Byte) (s : State), s.client.up = true → s.resetHeld = false →
    (s.tag tag.toNat = none → exec (.abort tag) s = .next s)
    ∧ ∀ e, s.tag tag.toNat = some e →
        let aborted (field : Nat) : State := s.complete tag.toNat .aborted none field
        (e.phase = .directive → exec (.abort tag) s = .next s)
        ∧ (e.phase = .awaitingBlock ∨ e.phase = .syncing → exec (.abort tag) s = .next (aborted 0))
        ∧ (e.phase = .receiving ∨ e.phase = .serving → exec (.abort tag) s = .next (aborted e.done))
        ∧ (e.phase = .waitingCommit → exec (.abort tag) s = .next (aborted e.count))

/-- A request that ends loses its entry and its completion is sent; its RESERVED slots become FREE and its HELD ones stay; DATA that
waits on the link for it is discarded; other requests, volumes, contexts, zones and settings stay as they were (2.1, 2.3, 2.6). -/
def Obligations.EndedRequestsLeaveTheirBlocks : Prop :=
  ∀ (t : Nat) (st : Status) (r : Option Reason) (field : Nat) (s : State),
    let u := s.complete t st r field
    u.sent = s.sent ++ [.completion t st r field]
      ∧ u.client.tags = s.client.tags.filter (·.tag ≠ t)
      ∧ u.client.slots = s.client.slots.filter (fun x => ¬(x.tag = t ∧ x.data = none))
      ∧ u.client.linkData = s.client.linkData.filter (·.tag ≠ t)
      ∧ u.client.dispatched = s.client.dispatched
      ∧ (∀ x, x ≠ t → u.tag x = s.tag x) ∧ u.tag t = none
      ∧ u = { s with sent := u.sent, client := u.client, rd := u.rd, port := u.port, jr := u.jr }

/-- A loss of the client link removes every entry without a completion and every DATA that waits on the link; slots that hold a block
stay HELD and those reserved for the removed requests become FREE; dispatched directives run on unanswered; volumes, contexts,
segments and zones stay as they were. The link's return makes it UP and changes nothing else (2.2). -/
def Obligations.ClientLinkLossDropsRequests : Prop :=
  (∀ s : State, s.resetHeld = false → ∃ t, exec .clientLinkDown s = .next t
    ∧ t.client.up = false ∧ t.client.tags = [] ∧ t.client.linkData = [] ∧ t.sent = s.sent
    ∧ t.client.slots = s.client.slots.filter (fun x => ¬(x.data = none ∧ ∃ e ∈ s.client.tags, e.tag = x.tag))
    ∧ t.client.dispatched = s.client.dispatched.map (fun d => { d with owed := false })
    ∧ t = { s with client := t.client, rd := t.rd, port := t.port, jr := t.jr, set := t.set })
  ∧ ∀ s : State, s.resetHeld = false → exec .clientLinkUp s = .next { s with client := { s.client with up := true } }

/-! ### Directives -/

/-- Every directive answers HALTED while the part is HALTED and BUSY_RETRY while start-up runs, before anything else its owner looks
at (10.2). A dispatched directive that is owed its completion is answered at its tag: its entry goes and the completion is sent; one
whose entry the client link's loss removed runs on and is answered by nothing (2.2). Nothing else changes. The record of dispatched
directives is the model's own (log entry 5). -/
def Obligations.DirectivesAreAnsweredOnce : Prop :=
  ∀ (c : Instr) (tag : Byte) (s : State),
    let o := (s.takeUp tag c).1
    let u := (s.takeUp tag c).2
    u = { s with client := { s.client with dispatched := u.client.dispatched } }
    ∧ (c.directiveTag = some tag → s.resetHeld = false →
        (s.isHalted = true → exec c s = .next (u.answer o .halted none))
        ∧ (s.isHalted = false → s.startup.isSome = true → exec c s = .next (u.answer o .busyRetry none)))
    ∧ ∀ (st : Status) (r : Option Reason),
        (∀ e, s.tag tag.toNat = some e → e.phase = .directive → { owed := true, command := c } ∈ s.client.dispatched →
          o = some tag.toNat ∧ u.answer o st r = u.complete tag.toNat st r 0
            ∧ u.client.dispatched.length + 1 = s.client.dispatched.length)
        ∧ ({ owed := true, command := c } ∉ s.client.dispatched → { owed := false, command := c } ∈ s.client.dispatched →
            o = none ∧ u.answer o st r = u ∧ u.client.dispatched.length + 1 = s.client.dispatched.length)

/-- CONFIGURE, taken or refused (10.3): BAD_FIELD for a mask bit above 10 or a present value out of its range; JOURNAL_FULL;
UNAVAILABLE; else the present values go into the image, a settings write is called for and a SETTINGS entry appended, and the
working settings stay as they are. -/
def Obligations.ConfigureGoesToTheImage : Prop :=
  ∀ (tag : Byte) (ref : BitVec 32) (b : ConfigureBody) (s : State), s.TakesDirectives →
    let c : Instr := .configure tag ref b
    let o := (s.takeUp tag c).1
    let u := (s.takeUp tag c).2
    let has (i : Nat) : Prop := b.mask.getLsbD i = true
    let inRange : Prop := b.mask.toNat < 2048 ∧ (has 0 → b.mode.toNat ≤ 1) ∧ (has 1 → b.policy.toNat ≤ 3)
      ∧ (has 3 → b.idleUnit.toNat ≤ 1) ∧ (has 5 → b.linkLoss.toNat ≤ 1)
      ∧ (has 6 → 1 ≤ b.spaceLow.toNat ∧ b.spaceLow.toNat ≤ 1024) ∧ (has 7 → 1 ≤ b.journalHigh.toNat)
      ∧ (has 8 → b.maskLevel.toNat ≤ 3) ∧ (has 10 → b.readAhead.toNat ≤ 1)
    (¬inRange → exec c s = .next (u.answer o .refused (some .badField)))
    ∧ (inRange → s.journalFull = true → exec c s = .next (u.answer o .refused (some .journalFull)))
    ∧ (inRange → s.journalFull = false → s.lossFail = true → exec c s = .next (u.answer o .unavailable none))
    ∧ (inRange → s.HasRoom → ∃ t, exec c s = .next t
        ∧ t = (State.callSettings (.directive o) { u with set := { u.set with image := t.set.image } }).append
            { code := 0x0011, body := be 4 ref.toNat ++ [1] ++ configureBytes b }
        ∧ t.set.work = s.set.work
        ∧ t.set.image.mode = (if b.mask.getLsbD 0 then (if b.mode = 0 then .posted else .committed) else s.set.image.mode)
        ∧ t.set.image.policy = (if b.mask.getLsbD 1 then
            (if b.policy = 0 then .abandon else if b.policy = 1 then .resume else if b.policy = 2 then .preserve else .byClass)
            else s.set.image.policy)
        ∧ t.set.image.idleLimit = (if b.mask.getLsbD 2 then b.idleLimit.toNat else s.set.image.idleLimit)
        ∧ t.set.image.idleUnit = (if b.mask.getLsbD 3 then (if b.idleUnit = 0 then .seconds else .minutes)
            else s.set.image.idleUnit)
        ∧ t.set.image.storeTimeout = (if b.mask.getLsbD 4 then b.storeTimeout.toNat else s.set.image.storeTimeout)
        ∧ t.set.image.linkLoss = (if b.mask.getLsbD 5 then (if b.linkLoss = 0 then .hold else .fail) else s.set.image.linkLoss)
        ∧ t.set.image.spaceLow = (if b.mask.getLsbD 6 then b.spaceLow.toNat else s.set.image.spaceLow)
        ∧ t.set.image.journalHigh = (if b.mask.getLsbD 7 then b.journalHigh.toNat else s.set.image.journalHigh)
        ∧ t.set.image.maskLevel = (if b.mask.getLsbD 8 then b.maskLevel.toNat else s.set.image.maskLevel)
        ∧ t.set.image.patrolRate = (if b.mask.getLsbD 9 then b.patrolRate.toNat else s.set.image.patrolRate)
        ∧ t.set.image.readAhead = (if b.mask.getLsbD 10 then (b.readAhead == 1) else s.set.image.readAhead))

/-- SIGNATURE, TARIFF_LOAD and TARIFF_SELECT (10.4, 3.7). Taken: the image marker, the run of entries, or the active bank takes the new
value, a settings write is called for and a SETTINGS entry appended; nothing else changes. Their refusals, in order: BAD_FIELD;
BANK_IN_USE for a load of the active bank or of the bank of an OPEN, SUSPENDED or CLOSING volume; JOURNAL_FULL; UNAVAILABLE. Refused
directives change nothing but their own record. That TARIFF_SELECT tests its bank before JOURNAL_FULL and the store link is the model's
choice (log entry 47). -/
def Obligations.MarkerAndTariffDirectives : Prop :=
  (∀ (tag : Byte) (ref : BitVec 32) (m : BitVec 128) (s : State), s.TakesDirectives → s.HasRoom →
    m ≠ 0 → m ≠ BitVec.allOnes 128 →
    let p := s.takeUp tag (.signature tag ref m)
    exec (.signature tag ref m) s = .next
      ((State.callSettings (.directive p.1) { p.2 with set := { p.2.set with imageMarker := m } }).append
        { code := 0x0011, body := be 4 ref.toNat ++ [2] }))
  ∧ (∀ (tag : Byte) (ref : BitVec 32) (bank first : Byte) (es : List TariffEntry) (s : State), s.TakesDirectives → s.HasRoom →
    bank.toNat ≤ 1 → 1 ≤ es.length → first.toNat + es.length ≤ 64 →
    (∀ e ∈ es, e.initial.toNat ≤ 3600 ∧ e.step.toNat ≤ 3600) → s.tariff.active ≠ bank.toNat →
    (∀ v ∈ s.vols, v.bank = bank.toNat → v.state = .closed ∨ v.state = .expiring) →
    let p := s.takeUp tag (.tariffLoad tag ref bank first es)
    let run (old : List TariffEntry) : List TariffEntry :=
      old.take first.toNat ++ es ++ old.drop (first.toNat + es.length)
    exec (.tariffLoad tag ref bank first es) s = .next
      ((State.callSettings (.directive p.1) { p.2 with tariff := { p.2.tariff with
          bank0 := if bank = 0 then run s.tariff.bank0 else s.tariff.bank0
          bank1 := if bank = 0 then s.tariff.bank1 else run s.tariff.bank1 } }).append
        { code := 0x0011, body := be 4 ref.toNat ++ [7, bank, first, BitVec.ofNat 8 es.length] }))
  ∧ (∀ (tag : Byte) (ref : BitVec 32) (bank : Byte) (s : State), s.TakesDirectives → s.HasRoom → bank.toNat ≤ 1 →
    let p := s.takeUp tag (.tariffSelect tag ref bank)
    exec (.tariffSelect tag ref bank) s = .next
      ((State.callSettings (.directive p.1) { p.2 with tariff := { p.2.tariff with active := bank.toNat } }).append
        { code := 0x0011, body := be 4 ref.toNat ++ [8, bank] }))
  ∧ ∀ (tag : Byte) (ref : BitVec 32) (m : BitVec 128) (bank first : Byte) (es : List TariffEntry) (s : State),
    s.TakesDirectives →
    let refused (c : Instr) (st : Status) (r : Option Reason) : Prop :=
      exec c s = .next ((s.takeUp tag c).2.answer (s.takeUp tag c).1 st r)
    let sign : Instr := .signature tag ref m
    let load : Instr := .tariffLoad tag ref bank first es
    let select : Instr := .tariffSelect tag ref bank
    let badSign : Prop := m = 0 ∨ m = BitVec.allOnes 128
    let badLoad : Prop := 1 < bank.toNat ∨ 63 < first.toNat ∨ es = [] ∨ 64 < first.toNat + es.length
      ∨ ∃ e ∈ es, 3600 < e.initial.toNat ∨ 3600 < e.step.toNat
    let inUse : Prop := s.tariff.active = bank.toNat
      ∨ ∃ v ∈ s.vols, v.bank = bank.toNat ∧ (v.state = .opened ∨ v.state = .suspended ∨ v.state = .closing)
    (badSign → refused sign .refused (some .badField))
    ∧ (badLoad → refused load .refused (some .badField))
    ∧ (1 < bank.toNat → refused select .refused (some .badField))
    ∧ (¬badLoad → inUse → refused load .refused (some .bankInUse))
    ∧ (s.journalFull = true → (¬badSign → refused sign .refused (some .journalFull))
        ∧ (¬badLoad → ¬inUse → refused load .refused (some .journalFull))
        ∧ (bank.toNat ≤ 1 → refused select .refused (some .journalFull)))
    ∧ (s.journalFull = false → s.lossFail = true → (¬badSign → refused sign .unavailable none)
        ∧ (¬badLoad → ¬inUse → refused load .unavailable none)
        ∧ (bank.toNat ≤ 1 → refused select .unavailable none))

/-- REPORT appends a SNAPSHOT and INQUIRE a VOLUME entry, and both complete GOOD; JOURNAL_FULL refuses both, and a window that is no
volume window refuses INQUIRE with BAD_FIELD (10.5, 12.2). The SNAPSHOT has code 0x000F and the values of 10.5 in the order of 12.4;
it carries the journal head, and the attention set, as they stand after the journal buffer has passed on, if it must (log entry 32).
The VOLUME entry has code 0x0010: of a FREE window the state and nothing more; else every field of the record, with the context's
counts, framer state, carry length, committed point and pending segments where the volume holds one, and up to 16 map entries from
the first segment named. A block count above 65,535 in the list is cut to two bytes (log entry 44). -/
def Obligations.ReportsAreAppended : Prop :=
  ∀ (tag : Byte) (ref : BitVec 32) (window : BitVec 16) (first : BitVec 32) (s : State), s.TakesDirectives →
    let rep : Instr := .report tag ref
    let inq : Instr := .inquire tag ref window first
    let answered (c : Instr) (r : Reason) : Prop :=
      exec c s = .next ((s.takeUp tag c).2.answer (s.takeUp tag c).1 .refused (some r))
    let appends (c : Instr) (code : Nat) (body : List Byte) : Prop :=
      exec c s = .next (((s.takeUp tag c).2.append { code, body }).answer (s.takeUp tag c).1 .good none)
    let fill : Nat × Nat := match s.alloc.filling with
      | some z => (z.zone, z.fill)
      | none => (0, 0)
    let work := s.set.work
    let settings : List Byte :=
      [if work.mode = .posted then 0 else 1,
        match work.policy with
          | .abandon => 0
          | .resume => 1
          | .preserve => 2
          | .byClass => 3]
        ++ be 1 work.idleLimit ++ [if work.idleUnit = .seconds then 0 else 1] ++ be 1 work.storeTimeout
        ++ [if work.linkLoss = .hold then 0 else 1] ++ be 2 work.spaceLow ++ be 1 work.journalHigh ++ be 1 work.maskLevel
        ++ be 1 work.patrolRate ++ [if work.readAhead then 1 else 0]
    let snapshot (x : State) : List Byte :=
      be 4 ref.toNat ++ be 2 s.ret.day ++ be 4 s.alloc.fifo.length ++ be 4 fill.1 ++ be 2 fill.2 ++ be 1 s.ctxs.length
        ++ be 2 s.client.slots.length ++ be 8 x.jr.head ++ be 8 s.jr.readPtr ++ be 2 x.attention ++ be 1 work.maskLevel
        ++ (be 8 s.audit.head.index ++ be 8 s.audit.head.value.toNat) ++ be 2 s.audit.patrol.window
        ++ be 4 s.audit.patrol.index ++ be 1 s.audit.queue.length ++ be 1 s.ret.holds.length ++ settings
    let fits : Prop := s.jr.buf.complete = false ∧ 32 + s.jr.buf.body.length + entryLen (snapshot s) ≤ 4096
    let passed : State := { s with jr := { s.jr with head := s.jr.head + 1 } }
    let counts (k : Counts) : List Byte :=
      be 4 k.calls ++ be 4 k.gaps ++ be 4 k.disorder ++ be 4 k.bad ++ be 4 k.unrated
        ++ be 6 k.duration ++ be 6 k.units ++ be 6 k.volume
    let volume (v : Volume) : List Byte :=
      let listed := (v.map.zipIdx.drop first.toNat).take 16
      be 4 ref.toNat ++ be 2 v.window ++ be 1 v.state.code ++ be 4 v.serial ++ (be 2 v.source ++ be 2 v.day ++ be 1 v.gen)
        ++ be 1 v.cls ++ be 2 v.openedOn ++ be 1 v.bank ++ be 1 v.audit.code
        ++ optBytes 2 (v.flags.map fun f => be 2 f.code)
        ++ optBytes 23 (v.trailer.map fun t => be 4 t.count ++ be 6 t.duration ++ be 6 t.units ++ be 6 t.volume
          ++ [if t.crcGood then 1 else 0])
        ++ counts (match s.ctx window.toNat with
          | none => v.counts
          | some c => c.counts)
        ++ be 4 v.ingest ++ be 4 v.segments ++ optBytes 8 (v.digest.map fun d => be 8 d.toNat)
        ++ optBytes 16 (v.chain.map fun l => be 8 l.index ++ be 8 l.value.toNat) ++ optBytes 2 (v.supersededOn.map (be 2))
        ++ optBytes 3 (v.expiry.map (be 3))
        ++ be 1 ((if v.stalled then 1 else 0) + (if v.verifyQueued then 2 else 0) + (if v.verifying then 4 else 0)
          + (if v.reclaimBegun then 8 else 0))
        ++ optBytes 7 ((s.ctx window.toNat).map fun c =>
          be 1 c.framer.code ++ be 1 c.carry.length ++ be 4 c.committed ++ be 1 (s.pendOf c.serial).length)
        ++ be 4 v.map.length ++ be 1 listed.length
        ++ listed.flatMap fun p => be 4 p.2 ++ be 4 p.1.first ++ be 2 p.1.count ++ be 1 p.1.kind.code
    (4095 ≤ window.toNat → answered inq .badField)
    ∧ (s.journalFull = true → answered rep .journalFull ∧ (window.toNat < 4095 → answered inq .journalFull))
    ∧ (s.journalFull = false → s.jr.waitList ≠ [] ∨ fits → appends rep 0x000F (snapshot s))
    ∧ (s.journalFull = false → s.jr.waitList = [] → ¬fits → appends rep 0x000F (snapshot passed))
    ∧ (s.journalFull = false → window.toNat < 4095 → s.vol window.toNat = none →
        appends inq 0x0010 (be 4 ref.toNat ++ be 2 window.toNat ++ [0]))
    ∧ (s.journalFull = false → window.toNat < 4095 → ∀ v, s.vol window.toNat = some v → appends inq 0x0010 (volume v))

/-- The directives that name a volume refuse a window that is no volume window with BAD_FIELD, and a FREE window or another serial
with NO_SUCH_VOLUME, before they look at the volume (1.9, chapter 8). -/
def Obligations.NamedVolumesAreChecked : Prop :=
  ∀ (tag : Byte) (ref : BitVec 32) (window : BitVec 16) (serial : BitVec 32) (s : State), s.TakesDirectives →
    ∀ c ∈ ([.close tag ref window serial, .resolveResume tag ref window serial, .resolveAbandon tag ref window serial,
        .accept tag ref window serial, .verify tag ref window serial, .revoke tag ref window serial] : List Instr),
      let answered (r : Reason) : Prop :=
        exec c s = .next ((s.takeUp tag c).2.answer (s.takeUp tag c).1 .refused (some r))
      (4095 ≤ window.toNat → answered .badField)
      ∧ (window.toNat < 4095 → s.vol window.toNat = none → answered .noSuchVolume)
      ∧ (window.toNat < 4095 → ∀ v, s.vol window.toNat = some v → v.serial ≠ serial.toNat → answered .noSuchVolume)

/-- CLOSE of an OPEN volume completes GOOD at once, and the volume enters CLOSING while its contiguous staged blocks are still to be
taken: its idle timer stops, STALLED is cleared, the catalogue record is rewritten; where none is staged step 1 begins at once. CLOSE
of a CLOSING, CLOSED or EXPIRING volume is refused with WRONG_STATE (1.9).
The contiguous taking ends when no block is HELD at the ingest point (3.6): the framer stops. Then all slots of the volume become FREE, the
blocks discarded are counted, the writes still RECEIVING and those that owned a discarded block end REFUSED with VOLUME_CLOSED (2.6), and
the open segment is closed, or its close held (4.7). When the volume then has no segment left, step 1 has ended (1.6): its SYNCs are
answered and the close joins those that wait for their verdict, last; else it waits for its segments. That all this holds in a HALTED
part too is the model's choice (log entry 52). -/
def Obligations.CloseBeginsTheClose : Prop :=
  (∀ (tag : Byte) (ref : BitVec 32) (window : BitVec 16) (serial : BitVec 32) (s : State) (v : Volume), s.TakesDirectives →
    s.Names window serial v →
    let c : Instr := .close tag ref window serial
    let o := (s.takeUp tag c).1
    let u := (s.takeUp tag c).2
    let a := u.answer o .good none
    let entered : State := State.callCatalogue v.window []
      { a with
        ctxs := a.ctxs.map fun x => if x.window = v.window then
          { x with idle := none, close := some { stage := .taking, ref := some ref.toNat } } else x
        vols := a.vols.map fun x => if x.window = v.window then { x with state := .closing, stalled := false } else x }
    (v.state = .opened → exec c s = .next (entered.endTaking v.window))
    ∧ (v.state = .opened → (s.heldAt v.serial v.ingest).isSome = true → exec c s = .next entered)
    ∧ (v.state = .closing ∨ v.state = .closed ∨ v.state = .expiring →
        exec c s = .next (u.answer o .refused (some .wrongState))))
  ∧ ∀ (w : Nat) (s : State) (v : Volume) (c : Ctx) (k : Closing), s.vol w = some v → s.ctx w = some c → c.serial = v.serial →
    c.close = some k →
    ((s.heldAt v.serial v.ingest).isSome = true → s.endTaking w = s)
    ∧ (k.stage ≠ .taking → s.endTaking w = s)
    ∧ (k.stage = .taking → s.heldAt v.serial v.ingest = none → s.endTaking w = s.framerStop w)
    ∧ ((s.client.tags.map (·.tag)).Nodup →
        let t := s.framerStop w
        let gone (i : Nat) : Prop := ∃ x ∈ s.client.slots, x.serial = v.serial ∧ x.offset = i ∧ x.data.isSome = true
        let refused (e : TagEntry) : Prop := e.serial = some v.serial
          ∧ (e.phase = .receiving ∨ (e.phase = .waitingCommit ∧ ∃ i, gone i ∧ e.offset ≤ i ∧ i < e.offset + e.count))
        let counted : Closing := { k with
          discarded := k.discarded + (s.client.slots.filter fun x => x.serial = v.serial ∧ x.data.isSome = true).length }
        let done : Prop := c.seg.blocks = 0 ∧ s.pendOf v.serial = []
        t.vols = s.vols
        ∧ (∀ x ∈ t.client.slots, x.serial ≠ v.serial ∧ x ∈ s.client.slots)
        ∧ (∀ x ∈ s.client.slots, x.serial ≠ v.serial → x.data.isSome = true → x ∈ t.client.slots)
        ∧ (∀ e ∈ s.client.tags, refused e → t.tag e.tag = none ∧ .completion e.tag .refused (some .volumeClosed) 0 ∈ t.sent)
        ∧ (∀ e ∈ s.client.tags, ¬refused e → ¬(e.phase = .syncing ∧ e.serial = some v.serial) → t.tag e.tag = some e)
        ∧ (done → t.ctx w = some { c with close := some { counted with stage := .verdict } }
            ∧ t.audit = { s.audit with closes := s.audit.closes ++ [w] } ∧ t.pend = s.pend ∧ t.alloc = s.alloc
            ∧ ∀ e ∈ s.client.tags, e.phase = .syncing → e.serial = some v.serial → t.tag e.tag = none
              ∧ ((∀ m ∈ v.map, m.kind ≠ .lost) → .completion e.tag .good none 0 ∈ t.sent)
              ∧ ∀ pre m post, v.map = pre ++ m :: post → (∀ x ∈ pre, x.kind ≠ .lost) → m.kind = .lost → 0 < m.count →
                  m.first < 16777216 → .completion e.tag .storeError none m.first ∈ t.sent)
        ∧ (¬done → t.audit = s.audit ∧ (∃ x, t.ctx w = some x ∧ x.close = some { counted with stage := .segments })
            ∧ ∀ e ∈ s.client.tags, e.phase = .syncing → e.serial = some v.serial → t.tag e.tag = some e)
        ∧ (c.seg.blocks ≠ 0 → c.seg.held = none →
            (3 ≤ (s.pendOf v.serial).length → t.pend = s.pend ∧ ∃ x, t.ctx w = some x ∧ x.seg = { c.seg with held := some .volumeClose })
            ∧ ((s.pendOf v.serial).length < 3 → 0 < s.alloc.mapFree → s.halted = none → c.openCatalogue = true →
                c.openSettings = true → (∀ x ∈ s.pend, ¬(x.hdr.serial = v.serial ∧ x.hdr.index = c.next)) →
                ∀ z, s.alloc.filling = some z → z.fill + c.sealLen ≤ 4096 → ∃ p, t.pend = s.pend ++ [p] ∧ p.hdr.serial = v.serial
                  ∧ p.hdr.index = c.next ∧ p.hdr.first = c.seg.first ∧ p.hdr.count = c.seg.blocks ∧ p.place.isSome = true)))

/-- RESOLVE (1.9): in any state but SUSPENDED it is refused with WRONG_STATE. RESUME is refused while JOURNAL_FULL holds and
UNAVAILABLE while the store link is DOWN in FAIL mode; else the volume is OPEN again, its idle timer loaded, its catalogue record
rewritten with the directive waiting for that write, and a RESUMED entry appended. ABANDON and CLOSE of a SUSPENDED volume complete
GOOD, the volume is CLOSING with its record rewritten, and step 1 of the close begins (what that does is said with CLOSE). -/
def Obligations.ResolveResumesOrAbandons : Prop :=
  ∀ (tag : Byte) (ref : BitVec 32) (window : BitVec 16) (serial : BitVec 32) (s : State) (v : Volume), s.TakesDirectives →
    s.Names window serial v →
    let resume : Instr := .resolveResume tag ref window serial
    let abandon : Instr := .resolveAbandon tag ref window serial
    let close : Instr := .close tag ref window serial
    let answered (c : Instr) (st : Status) (r : Option Reason) : Prop :=
      exec c s = .next ((s.takeUp tag c).2.answer (s.takeUp tag c).1 st r)
    (v.state ≠ .suspended → answered resume .refused (some .wrongState) ∧ answered abandon .refused (some .wrongState))
    ∧ (v.state = .suspended → s.journalFull = true → answered resume .refused (some .journalFull))
    ∧ (v.state = .suspended → s.journalFull = false → s.lossFail = true → answered resume .unavailable none)
    ∧ (v.state = .suspended → s.HasRoom →
        let u := (s.takeUp tag resume).2
        exec resume s = .next
          ((State.callCatalogue v.window [.resume (s.takeUp tag resume).1]
            { u with
              ctxs := u.ctxs.map fun x => if x.window = v.window then { x with idle := s.set.work.idleLoad } else x
              vols := u.vols.map fun x => if x.window = v.window then { x with state := .opened } else x }).append
            { code := 0x000D, body := [1] ++ be 4 ref.toNat ++ be 2 v.window ++ be 4 v.serial ++ be 4 v.ingest }))
    ∧ (v.state = .suspended → ∀ c ∈ [abandon, close],
        let a := (s.takeUp tag c).2.answer (s.takeUp tag c).1 .good none
        exec c s = .next ((State.callCatalogue v.window []
          { a with
            ctxs := a.ctxs.map fun x => if x.window = v.window then
              { x with idle := none, close := some { stage := .segments, ref := some ref.toNat } } else x
            vols := a.vols.map fun x => if x.window = v.window then { x with state := .closing, stalled := false } else x }).framerStop
          v.window))

/-- CALENDAR (7.1): a day below the archive day is refused with CALENDAR_BACKWARD; UNAVAILABLE while the store link is DOWN in FAIL
mode; else the archive day is the new day and a settings write is called for, whose completion will answer it and request the
sweep. No entry is appended, and JOURNAL_FULL does not refuse it. -/
def Obligations.CalendarMovesTheArchiveDay : Prop :=
  ∀ (tag : Byte) (ref : BitVec 32) (day : BitVec 16) (s : State), s.TakesDirectives →
    let c : Instr := .calendar tag ref day
    let o := (s.takeUp tag c).1
    let u := (s.takeUp tag c).2
    (day.toNat < s.ret.day → exec c s = .next (u.answer o .refused (some .calendarBackward)))
    ∧ (s.ret.day ≤ day.toNat → s.lossFail = true → exec c s = .next (u.answer o .unavailable none))
    ∧ (s.ret.day ≤ day.toNat → s.lossFail = false →
        exec c s = .next (State.callSettings (.calendar o ref.toNat) { u with ret := { u.ret with day := day.toNat } }))

/-- RETENTION (7.2, 7.3): refused out of its ranges, while JOURNAL_FULL holds, or UNAVAILABLE; else the class's entry is replaced, the
expiry days of its volumes are recomputed, a settings write is called for and a SETTINGS entry appended. Recomputed are the volumes of
that class that are OPEN, SUSPENDED, CLOSING or CLOSED; one whose expiry day changes has its catalogue record rewritten, every other
volume stays as it is. The recomputed expiry day is,
for a volume not superseded, day + days, absent when the days are 0; for a superseded one the smaller of its present expiry day and
superseded-on day + grace, and no later than day + days when the days are above 0. The records are called for in window order, which
is the model's choice (log entry 10). -/
def Obligations.RetentionReplacesItsEntry : Prop :=
  (∀ (tag : Byte) (ref : BitVec 32) (cls : Byte) (days grace : BitVec 16) (choice : Byte) (s : State), s.TakesDirectives →
    let c : Instr := .retention tag ref cls days grace choice
    let o := (s.takeUp tag c).1
    let u := (s.takeUp tag c).2
    let valid : Prop := cls.toNat ≤ 7 ∧ days.toNat ≤ 36525 ∧ grace.toNat ≤ 3650 ∧ choice.toNat ≤ 1
    let entry : RetentionEntry :=
      { days := days.toNat, grace := grace.toNat, choice := if choice = 0 then .resume else .abandon }
    (¬valid → exec c s = .next (u.answer o .refused (some .badField)))
    ∧ (valid → s.journalFull = true → exec c s = .next (u.answer o .refused (some .journalFull)))
    ∧ (valid → s.journalFull = false → s.lossFail = true → exec c s = .next (u.answer o .unavailable none))
    ∧ (valid → s.HasRoom → exec c s = .next
        ((State.callSettings (.directive o)
          (each (recomputeVolume cls.toNat entry) s.vols
            { u with ret := { u.ret with table := u.ret.table.set cls.toNat entry } })).append
          { code := 0x0011, body := be 4 ref.toNat ++ [10, cls] ++ be 2 days.toNat ++ be 2 grace.toNat ++ [choice] })))
  ∧ (∀ (cls : Nat) (e : RetentionEntry) (v : Volume) (s : State),
      let moves : Prop := v.cls = cls ∧ v.state ≠ .expiring ∧ recomputeExpiry v e ≠ v.expiry
      (moves → recomputeVolume cls e v s = State.callCatalogue v.window []
        { s with vols := s.vols.map fun x => if x.window = v.window then { x with expiry := recomputeExpiry x e } else x })
      ∧ (¬moves → recomputeVolume cls e v s = s))
  ∧ ∀ (v : Volume) (e : RetentionEntry),
      (v.supersededOn = none → e.days = 0 → recomputeExpiry v e = none)
      ∧ (v.supersededOn = none → e.days ≠ 0 → recomputeExpiry v e = some (v.day + e.days))
      ∧ ∀ d, v.supersededOn = some d → ∃ x, recomputeExpiry v e = some x ∧ x ≤ d + e.grace
          ∧ (∀ y, v.expiry = some y → x ≤ y) ∧ (e.days ≠ 0 → x ≤ v.day + e.days)
          ∧ (x = d + e.grace ∨ v.expiry = some x ∨ (e.days ≠ 0 ∧ x = v.day + e.days))

/-- HOLD (7.5): its refusals in order, and when it is taken the hold joins the list, the EXPIRING volumes it matches whose reclaim has
not begun return to CLOSED, a settings write is called for, and a HOLD entry names the number returned and the volume too late.
A hold matches a volume of its source, or of any, whose day lies from its first day to its last. An EXPIRING volume that is still on the
reclaim queue can return: it leaves the queue, becomes CLOSED, and its catalogue record is rewritten; every other EXPIRING volume that
the hold matches is too late.
The source id 0 of a hold for ANY source, that a reclaim cut by a reset is too late, and the order in which the returned volumes'
records are called for are the model's (log entries 17, 18 and 10). -/
def Obligations.HoldReturnsExpiringVolumes : Prop :=
  ∀ (tag : Byte) (ref : BitVec 32) (id : BitVec 16) (anySource : Byte) (source first last : BitVec 16) (s : State),
    s.TakesDirectives →
    let c : Instr := .hold tag ref id anySource source first last
    let o := (s.takeUp tag c).1
    let u := (s.takeUp tag c).2
    let refused (st : Status) (r : Option Reason) : Prop := exec c s = .next (u.answer o st r)
    let bad : Prop := 1 < anySource.toNat ∨ id = 0 ∨ last.toNat < first.toNat
    let listed : Prop := ∃ h ∈ s.ret.holds, h.id = id.toNat
    let h : Hold := { id := id.toNat, source := if anySource = 1 then none else some source.toNat, first := first.toNat,
                      last := last.toNat, placedOn := s.ret.day }
    let back := s.vols.filter fun v => h.covers v && s.returnable v
    let late := s.vols.find? fun v => h.covers v && s.tooLate v
    (∀ v, h.covers v = true ↔ (anySource = 1 ∨ v.source = source.toNat) ∧ first.toNat ≤ v.day ∧ v.day ≤ last.toNat)
    ∧ (∀ v, s.returnable v = true ↔ v.state = .expiring
        ∧ ∃ q ∈ s.ret.queue, q.window = v.window ∧ q.serial = v.serial ∧ q.cut = false)
    ∧ (∀ v, s.tooLate v = true ↔ v.state = .expiring
        ∧ ∀ q ∈ s.ret.queue, q.window = v.window → q.serial = v.serial → q.cut = true)
    ∧ (∀ (w n : Nat) (x : State), x.unexpire w n (fun v => v) = State.callCatalogue w [] { x with
        vols := x.vols.map fun v => if v.window = w then { v with state := .closed } else v
        ret := { x.ret with queue := x.ret.queue.filter fun q => ¬(q.window = w ∧ q.serial = n) }
        set := { x.set with catWrites := x.set.catWrites.map fun c => { c with
          waiters := c.waiters.filter (· ≠ .expiring w n), gathered := c.gathered.map (·.filter (· ≠ .expiring w n)) } } })
    ∧ (bad → refused .refused (some .badField))
    ∧ (¬bad → listed → refused .refused (some .holdExists))
    ∧ (¬bad → ¬listed → 64 ≤ s.ret.holds.length → refused .refused (some .holdTableFull))
    ∧ (¬bad → ¬listed → s.ret.holds.length < 64 → s.journalFull = true → refused .refused (some .journalFull))
    ∧ (¬bad → ¬listed → s.ret.holds.length < 64 → s.journalFull = false → s.lossFail = true → refused .unavailable none)
    ∧ (¬bad → ¬listed → s.ret.holds.length < 64 → s.HasRoom → exec c s = .next
        ((State.callSettings (.directive o)
          (each (fun (v : Volume) => State.unexpire v.window v.serial fun x => x) back
            { u with ret := { u.ret with holds := insertBy (·.id) h u.ret.holds } })).append
          { code := 0x0008
            body := be 4 ref.toNat ++ holdFields h ++ be 2 back.length
              ++ optBytes 6 (late.map fun v => be 2 v.window ++ be 4 v.serial) }))

/-- RELEASE (7.5): HALTED or BUSY_RETRY; NO_SUCH_HOLD; JOURNAL_FULL; UNAVAILABLE; else the hold leaves the list, a settings write is
called for and a RELEASE entry appended with the reference, the hold's fields and its placed-on day. No volume changes.
That NO_SUCH_HOLD is answered whatever JOURNAL_FULL and the store link say is the model's choice (log entry 43), and so is the source
id 0 of a hold for ANY source (log entry 17). -/
def Obligations.ReleaseRemovesItsHold : Prop :=
  ∀ (tag : Byte) (ref : BitVec 32) (id : BitVec 16) (s : State), s.resetHeld = false →
    let c : Instr := .release tag ref id
    let o := (s.takeUp tag c).1
    let u := (s.takeUp tag c).2
    let refused (st : Status) (r : Option Reason) : Prop := exec c s = .next (u.answer o st r)
    (s.isHalted = true → refused .halted none)
    ∧ (s.isHalted = false → s.startup.isSome = true → refused .busyRetry none)
    ∧ (s.TakesDirectives → (∀ h ∈ s.ret.holds, h.id ≠ id.toNat) → refused .refused (some .noSuchHold))
    ∧ (s.TakesDirectives → ∀ h, s.ret.holds.find? (fun x => x.id == id.toNat) = some h →
        (s.journalFull = true → refused .refused (some .journalFull))
        ∧ (s.journalFull = false → s.lossFail = true → refused .unavailable none)
        ∧ (s.HasRoom → ∃ t, exec c s = .next t
            ∧ t = (State.callSettings (.directive o)
                { u with ret := { u.ret with holds := u.ret.holds.filter (·.id ≠ id.toNat) } }).append
                { code := 0x0009
                  body := be 4 ref.toNat ++ (be 2 h.id ++ [if h.source = none then 1 else 0] ++ be 2 (h.source.getD 0)
                    ++ be 2 h.first ++ be 2 h.last ++ be 2 h.placedOn) }
            ∧ t.vols = s.vols))

/-- ACCEPT of a named volume (8.2): WRONG_STATE unless it is CLOSED and not RECONCILED; GOOD and no change when it is ACCEPTED already;
JOURNAL_FULL; else the audit state is ACCEPTED and the flags are gone, the catalogue record is rewritten, an ACCEPT entry names what
was replaced, with flags 0 where the state replaced was not DISCREPANT (the model's choice, log entry 56), and the directive completes
GOOD. -/
def Obligations.AcceptReplacesTheAuditState : Prop :=
  ∀ (tag : Byte) (ref : BitVec 32) (window : BitVec 16) (serial : BitVec 32) (s : State) (v : Volume), s.TakesDirectives →
    s.Names window serial v →
    let c : Instr := .accept tag ref window serial
    let o := (s.takeUp tag c).1
    let u := (s.takeUp tag c).2
    let flags : Nat := match v.flags with
      | some f => f.code
      | none => 0
    (v.state ≠ .closed ∨ v.audit = .reconciled → exec c s = .next (u.answer o .refused (some .wrongState)))
    ∧ (v.state = .closed → v.audit = .accepted → exec c s = .next (u.answer o .good none))
    ∧ (v.state = .closed → v.audit ≠ .reconciled → v.audit ≠ .accepted →
        (s.journalFull = true → exec c s = .next (u.answer o .refused (some .journalFull)))
        ∧ (s.journalFull = false → exec c s = .next
            (((State.callCatalogue v.window []
              { u with vols := u.vols.map fun x =>
                  if x.window = v.window then { x with audit := .accepted, flags := none } else x }).append
              { code := 0x000A
                body := be 4 ref.toNat ++ be 2 v.window ++ be 4 v.serial ++ be 1 v.audit.code ++ be 2 flags }).answer
              o .good none)))

/-- VERIFY of a named volume (8.8): WRONG_STATE unless it is CLOSED; GOOD and nothing added when it is queued or being verified;
QUEUE_FULL; else it joins the tail of the queue with the reference, VERIFY_QUEUED is set, and the directive completes GOOD. -/
def Obligations.VerifyJoinsTheQueue : Prop :=
  ∀ (tag : Byte) (ref : BitVec 32) (window : BitVec 16) (serial : BitVec 32) (s : State) (v : Volume), s.TakesDirectives →
    s.Names window serial v →
    let c : Instr := .verify tag ref window serial
    let o := (s.takeUp tag c).1
    let u := (s.takeUp tag c).2
    (v.state ≠ .closed → exec c s = .next (u.answer o .refused (some .wrongState)))
    ∧ (v.state = .closed → v.verifyQueued = true ∨ v.verifying = true → exec c s = .next (u.answer o .good none))
    ∧ (v.state = .closed → v.verifyQueued = false → v.verifying = false →
        (16 ≤ s.audit.queue.length → exec c s = .next (u.answer o .refused (some .queueFull)))
        ∧ (s.audit.queue.length < 16 → exec c s = .next
            (State.answer o .good none
              { u with
                vols := u.vols.map fun x => if x.window = v.window then { x with verifyQueued := true } else x
                audit := { u.audit with
                  queue := u.audit.queue ++ [{ window := v.window, serial := v.serial, ref := ref.toNat }] } })))

/-- REVOKE, whole: HALTED or BUSY_RETRY; BAD_FIELD for a window that is none or a body of another length; NO_SUCH_VOLUME; TOO_LATE once
the verification has begun; NO_SUCH_VOLUME when the volume is not queued; else the volume leaves the queue, VERIFY_QUEUED is cleared
and the directive completes GOOD, and nothing else changes. -/
def Obligations.RevokeLeavesTheQueue : Prop :=
  (∀ (tag : Byte) (ref : BitVec 32) (window : BitVec 16) (serial : BitVec 32) (s : State), s.resetHeld = false →
    let c : Instr := .revoke tag ref window serial
    let o := (s.takeUp tag c).1
    let u := (s.takeUp tag c).2
    let refused (st : Status) (r : Option Reason) : Prop := exec c s = .next (u.answer o st r)
    (s.isHalted = true → refused .halted none)
    ∧ (s.isHalted = false → s.startup.isSome = true → refused .busyRetry none)
    ∧ (s.TakesDirectives → 4095 ≤ window.toNat → refused .refused (some .badField))
    ∧ (s.TakesDirectives → window.toNat < 4095 → s.vol window.toNat = none → refused .refused (some .noSuchVolume))
    ∧ (s.TakesDirectives → window.toNat < 4095 → ∀ v, s.vol window.toNat = some v →
        (v.serial ≠ serial.toNat → refused .refused (some .noSuchVolume))
        ∧ (v.serial = serial.toNat → v.verifying = true → refused .refused (some .tooLate))
        ∧ (v.serial = serial.toNat → v.verifying = false → v.verifyQueued = false → refused .refused (some .noSuchVolume))
        ∧ (v.serial = serial.toNat → v.verifying = false → v.verifyQueued = true → exec c s = .next
            (State.answer o .good none
              { u with
                vols := u.vols.map fun x => if x.window = v.window then { x with verifyQueued := false } else x
                audit := { u.audit with
                  queue := u.audit.queue.filter fun q => ¬(q.window = v.window ∧ q.serial = v.serial) } }))))
  ∧ ∀ (tag : Byte) (b : Block), fld b 16 2 = 15 → fld b 22 2 ≠ 6 → decodeDirective tag b = .error .badField

/-- CLEAR_ATTENTION, whole: HALTED or BUSY_RETRY; BAD_FIELD for a body of another length, an empty set, or a set with an item that is
not latched, and nothing is cleared; else each named item is cleared, set or not, the directive completes GOOD, and nothing else
changes. -/
def Obligations.ClearAttentionClearsItsItems : Prop :=
  (∀ (tag : Byte) (ref : BitVec 32) (items : BitVec 16) (s : State), s.resetHeld = false →
    let c : Instr := .clearAttention tag ref items
    let o := (s.takeUp tag c).1
    let u := (s.takeUp tag c).2
    let latchedOnly : Prop := ∀ i, items.getLsbD i = true → 6 ≤ i ∧ i ≤ 10
    (s.isHalted = true → exec c s = .next (u.answer o .halted none))
    ∧ (s.isHalted = false → s.startup.isSome = true → exec c s = .next (u.answer o .busyRetry none))
    ∧ (s.TakesDirectives → items = 0 ∨ ¬latchedOnly → exec c s = .next (u.answer o .refused (some .badField)))
    ∧ (s.TakesDirectives → items ≠ 0 → latchedOnly → exec c s = .next
        (State.answer o .good none
          { u with latched :=
            { volumeStalled := s.latched.volumeStalled && !items.getLsbD 6
              discrepantClose := s.latched.discrepantClose && !items.getLsbD 7
              damageFound := s.latched.damageFound && !items.getLsbD 8
              storeFault := s.latched.storeFault && !items.getLsbD 9
              expiryBlocked := s.latched.expiryBlocked && !items.getLsbD 10 } })))
  ∧ ∀ (tag : Byte) (b : Block), fld b 16 2 = 16 → fld b 22 2 ≠ 2 → decodeDirective tag b = .error .badField


/-! ### Records, blocks and segments -/

/-- A completed call record (3.4, 3.5, 3.8, 3.9): every one adds to the call count; a bad CRC adds to the bad count and nothing else. A good
one is compared with the last sequence, adds its duration and data volume to the totals, and is rated with the entry of its tariff
class, or left unrated, with 0 units, when its class is 64 or more or its entry's step is 0. The totals saturate at 2^48 - 1; a total
that comes to stand there sets the overflow mark, which stays set. -/
def Obligations.GoodRecordsAreRated : Prop :=
  ∀ (bank : List TariffEntry) (r : List Byte) (c : Ctx), bank.length = 64 →
    let t := countCall bank r c
    let cls := callTariff r
    let top (a b m : Nat) : Nat := if a + b ≤ m then a + b else m
    let unratedCase : Prop := 64 ≤ cls ∨ ∃ e, bank[cls]? = some e ∧ e.step = 0
    (recCrcGood r = false → t = { c with counts := { c.counts with
        calls := top c.counts.calls 1 4294967295, bad := top c.counts.bad 1 4294967295 } })
    ∧ (recCrcGood r = true →
        t.counts.calls = top c.counts.calls 1 4294967295 ∧ t.counts.bad = c.counts.bad
        ∧ t.counts.duration = top c.counts.duration (callDuration r) 281474976710655
        ∧ t.counts.volume = top c.counts.volume (callVolume r) 281474976710655
        ∧ (unratedCase → t.counts.unrated = top c.counts.unrated 1 4294967295
            ∧ t.counts.units = top c.counts.units 0 281474976710655)
        ∧ (¬unratedCase → t.counts.unrated = c.counts.unrated ∧ ∃ e, bank[cls]? = some e
            ∧ t.counts.units = top c.counts.units (chargedUnits e (callDuration r)) 281474976710655
            ∧ (e.rate = 0 → t.counts.units = top c.counts.units 0 281474976710655))
        ∧ (c.lastSeq = none → t.lastSeq = some (callSeq r) ∧ t.counts.gaps = c.counts.gaps ∧ t.counts.disorder = c.counts.disorder)
        ∧ (∀ l, c.lastSeq = some l → l < callSeq r → t.lastSeq = some (callSeq r) ∧ t.counts.disorder = c.counts.disorder
            ∧ t.counts.gaps = top c.counts.gaps (callSeq r - l - 1) 4294967295)
        ∧ (∀ l, c.lastSeq = some l → callSeq r ≤ l → t.lastSeq = some l ∧ t.counts.gaps = c.counts.gaps
            ∧ t.counts.disorder = top c.counts.disorder 1 4294967295)
        ∧ (t.overflow = true ↔ c.overflow = true ∨ t.counts.duration = 281474976710655 ∨ t.counts.units = 281474976710655
            ∨ t.counts.volume = 281474976710655)
        ∧ t.carry = c.carry ∧ t.digest = c.digest ∧ t.seg = c.seg ∧ t.trailer = c.trailer ∧ t.framer = c.framer)

/-- The charge (3.8): nothing within the grace; the initial interval up to its end; beyond it the least sum of the interval and whole
steps that covers the call; without an interval the least number of whole steps. The units are the least whole number of sixtieths'
worth above, and the largest single charge is the one the spec works out. -/
def Obligations.ChargesCoverTheCall : Prop :=
  (∀ g i s d : Nat, 0 < s →
    let cs := chargedSeconds g i s d
    (d ≤ g → cs = 0)
    ∧ (g < d → 0 < i → d ≤ i → cs = i)
    ∧ (g < d → i = 0 ∨ i < d → d ≤ cs ∧ cs < d + s ∧ ∃ k, cs = i + k * s))
  ∧ (∀ (e : TariffEntry) (d : Nat),
      let cs := chargedSeconds e.grace.toNat e.initial.toNat e.step.toNat d
      cs * e.rate.toNat ≤ 60 * chargedUnits e d ∧ 60 * chargedUnits e d < cs * e.rate.toNat + 60)
  ∧ (∀ (e : TariffEntry) (d : Nat), e.initial.toNat ≤ 3600 → e.step.toNat ≤ 3600 → e.step ≠ 0 → d ≤ 16777215 →
      chargedUnits e d ≤ 18328844092)
  ∧ chargedUnits { grace := 0, initial := 1214, step := 3600, rate := 65535 } 16777215 = 18328844092

/-- The framer takes the HELD block at the ingest point (3.3, 3.6, 4.6), all effects together. In RAW, or when the block loses framing,
it joins the digest and the payload whole; else its records are taken. The slot becomes FREE, the ingest point advances, and a COMMITTED
write whose last block this is waits on the open segment. Said of an OPEN volume, and of a CLOSING one while its contiguous blocks are
taken (1.9): there the taking ends, after the block and its closes, if none is HELD at the ingest point (said with CLOSE). Else, past the
trailer, or with no block HELD there, nothing is taken.
Closes (4.6, 4.7): one that the block calls for (loss of framing, block limit, reserve) comes first: TAKE_BLOCK does what it does in the
state that HELD_CLOSE leaves the held close in, so the block goes into a fresh segment or, while the close must wait, stays. One due
after the block (block limit; sixteen writes waiting on the segment, or any and no next block HELD; a SYNC's target) is made or held as
HELD_CLOSE finds it. With a close held none is due, and a block that calls for one stays. A block that completes the trailer gives the
record its totals, makes an OPEN volume CLOSING and stops the framer: its slots are gone (3.5, 3.6); a close held by then stays held, and
step 1 waits for it. The model's choices: that in a HALTED part (log entry 52), the condition recorded where two call (53), and, CLOSING,
a block staged late (39) and the close for a SYNC (40).
Taking the records (3.3, 4.4): carry and block together are cut into records of 40 bytes, up to the trailer; each call record is counted
in order; a record begun in an earlier segment is stored raw in its last bytes, the others coded against the record before, or whole: the
header, the trailer, a bad one; the bytes left are the carry, or those after the trailer. So an open segment that holds the bytes of its
blocks holds those of the next behind them. The coded form is log entry 9's. -/
def Obligations.TakeBlockFramesTheBlock : Prop :=
  (∀ (window : BitVec 12) (s : State) (v : Volume) (c : Ctx) (b : Block), s.resetHeld = false → s.startup = none →
    s.vol window.toNat = some v → s.ctx window.toNat = some c → c.serial = v.serial →
    (v.state = .opened ∧ c.close = none) ∨ (v.state = .closing ∧ ∃ y, c.close = some y ∧ y.stage = .taking) →
    s.heldAt v.serial v.ingest = some b → c.framer ≠ .afterTrailer →
    let loss : Prop := c.framer = .inCalls ∧ isLossBlock v c b = true
    let full : Prop := (if c.seg.kind = .raw then 15 else 256) ≤ c.seg.blocks ∨ c.reserveShort = true
    let raw (k : Ctx) : Ctx := { k with
      headerTaken := true, digest := crc64Run k.digest b
      seg := { k.seg with payload := k.seg.payload ++ b, blocks := k.seg.blocks + 1 } }
    let tags := s.client.tags.map fun x =>
      if x.phase = .waitingCommit ∧ x.serial = some v.serial ∧ x.offset + x.count = v.ingest + 1 then
        { x with waitingOn := some c.seg.index } else x
    let taken (k : Ctx) : State := { s with
      ctxs := s.ctxs.map fun x => if x.window = window.toNat then k else x
      vols := s.vols.map fun x => if x.window = window.toNat then { x with ingest := x.ingest + 1 } else x
      client := { s.client with
        slots := s.client.slots.filter fun x => ¬(x.serial = v.serial ∧ x.offset = v.ingest), tags } }
    let held (cond : CloseCond) (u : State) : State := { u with ctxs := u.ctxs.map fun x =>
      if x.window = window.toNat then { x with seg := { x.seg with held := some cond } } else x }
    let limit (k : Ctx) : Prop := (if k.seg.kind = .raw then 15 else 256) ≤ k.seg.blocks
    let waiting : Nat := (tags.filter fun x => x.serial = some v.serial ∧ x.waitingOn = some c.seg.index).length
    let committed : Prop := 16 ≤ waiting ∨ (0 < waiting ∧ s.heldAt v.serial (v.ingest + 1) = none)
    let synced : Prop :=
      ∃ x ∈ s.client.tags, x.phase = .syncing ∧ x.serial = some v.serial ∧ x.target = some (v.ingest + 1)
    let stopped (k : Ctx) (u : State) : State :=
      let t : State := { u with vols := u.vols.map fun x => if x.window = window.toNat then { x with trailer := k.trailer } else x }
      State.framerStop window.toNat (if v.state = .opened then State.callCatalogue window.toNat [] { t with
          ctxs := t.ctxs.map fun x =>
            if x.window = window.toNat then { x with idle := none, close := some { stage := .segments } } else x
          vols := t.vols.map fun x => if x.window = window.toNat then { x with state := .closing, stalled := false } else x }
        else t)
    let ends (k : Ctx) (u : State) : State :=
      if k.framer = .afterTrailer then stopped k u
      else if v.state = .closing then u.endTaking window.toNat
      else u
    let closes (cond : CloseCond) (k : Ctx) : Prop := ∃ t, exec (.heldClose window) (held cond (taken k)) = .next t
      ∧ exec (.takeBlock window) s = .next (ends k t)
    let made (k : Ctx) : Prop :=
      (c.seg.held.isSome = true ∨ (¬limit k ∧ ¬committed ∧ ¬synced) → exec (.takeBlock window) s = .next (ends k (taken k)))
      ∧ (c.seg.held = none →
        (limit k → closes .blockLimit k)
        ∧ (¬limit k → committed → closes .committed k)
        ∧ (¬limit k → ¬committed → synced → closes .sync k))
    let room : Prop := s.isHalted = true ∨ ¬(c.openCatalogue = true ∧ c.openSettings = true) ∨ ∃ z, s.alloc.filling = some z
      ∧ (z.fill + c.sealLen ≤ 4096 ∨ s.alloc.fifo ≠ [] ∨ (z.live = 0 ∧ z.list = []))
    (c.framer = .raw → (c.seg.blocks = 0 ∨ ¬full) → made (raw c))
    ∧ (loss → c.seg.blocks = 0 → made (raw { c with framer := .raw, carry := [], seg := { c.seg with kind := .raw } }))
    ∧ (c.framer = .inCalls → ¬loss → (c.seg.blocks = 0 ∨ ¬full) → made (takeCalls (s.tariff.bank c.bank) b c))
    ∧ (c.framer = .inCalls → ¬loss → (c.seg.blocks = 0 ∨ ¬full) →
        let k := takeCalls (s.tariff.bank c.bank) b c
        k.framer = .afterTrailer → ∃ t x, exec (.takeBlock window) s = .next t
          ∧ t.vol window.toNat = some { v with
              ingest := v.ingest + 1, state := .closing, stalled := if v.state = .closing then v.stalled else false
              trailer := k.trailer }
          ∧ (∀ y ∈ t.client.slots, y.serial ≠ v.serial)
          ∧ t.ctx window.toNat = some x ∧ x.trailer = k.trailer ∧ x.counts = k.counts ∧ x.digest = k.digest
          ∧ x.idle = (if v.state = .closing then c.idle else none)
          ∧ ∃ y, x.close = some y ∧ y.ref = c.close.bind (·.ref) ∧ (y.stage = .segments ∨ y.stage = .verdict)
            ∧ (c.seg.held.isSome = true → y.stage = .segments ∧ x.seg = k.seg ∧ t.pend = s.pend))
    ∧ (c.seg.blocks ≠ 0 → loss ∨ full → c.seg.held.isSome = true → exec (.takeBlock window) s = .next s)
    ∧ (c.seg.blocks ≠ 0 → loss ∨ full → c.seg.held = none → 3 ≤ (s.pendOf c.serial).length →
        ∃ t, exec (.takeBlock window) s = .next t ∧ t.vols = s.vols ∧ t.client = s.client ∧ t.pend = s.pend
        ∧ ∃ cond, t.ctxs = s.ctxs.map fun x =>
            if x.window = window.toNat then { x with seg := { x.seg with held := some cond } } else x)
    ∧ (c.seg.blocks ≠ 0 → loss ∨ full → c.seg.held = none →
        let now : State := held (if c.framer = .inCalls ∧ isLossBlock v c b = true then .framingLoss
          else if (if c.seg.kind = .raw then 15 else 256) ≤ c.seg.blocks then .blockLimit else .payloadReserve) s
        ∃ t, exec (.heldClose window) now = .next t ∧ exec (.takeBlock window) s = exec (.takeBlock window) t
          ∧ t.vols = s.vols ∧ t.client = s.client
          ∧ ((s.pendOf c.serial).length < 3 → 0 < s.alloc.mapFree → room →
            t.ctx window.toNat = some { c with
              next := c.next + 1, reference := zeroRecord
              seg := { index := c.next + 1, first := c.seg.first + c.seg.blocks
                       kind := if c.framer = .raw then .raw else .coded } })))
  ∧ (∀ (window : BitVec 12) (s : State),
    (s.vol window.toNat = none ∨ s.ctx window.toNat = none → exec (.takeBlock window) s = .next s)
    ∧ ∀ v c, s.vol window.toNat = some v → s.ctx window.toNat = some c →
      (v.state ≠ .opened ∧ v.state ≠ .closing) ∨ (v.state = .closing ∧ ∀ y, c.close = some y → y.stage ≠ .taking)
        ∨ c.framer = .afterTrailer ∨ s.heldAt v.serial v.ingest = none → exec (.takeBlock window) s = .next s)
  ∧ (∀ (bank : List TariffEntry) (block : Block) (c : Ctx) (recs : List (List Byte)) (tr : Option (List Byte)) (rest : List Byte),
    block.length = 4096 → c.carry.length < 40 → c.framer = .inCalls →
    c.carry ++ block = recs.flatten ++ tr.getD [] ++ rest → (∀ r ∈ recs, r.length = 40 ∧ recKind r ≠ kindT) →
    (∀ r, tr = some r → r.length = 40 ∧ recKind r = kindT) → (tr = none → rest.length < 40) →
    (c.headerTaken = false → recs ≠ []) →
    let t := takeCalls bank block c
    let all := recs ++ tr.toList
    let k := (if c.headerTaken then recs else recs.drop 1).foldl (fun x r => countCall bank r x) c
    let flagged (r : List Byte) : Bool × List Byte := (recKind r != kindT && recCrcGood r, r)
    let coded : List (Bool × List Byte) := match all with
      | [] => []
      | r :: rs => (c.headerTaken && (flagged r).1, r) :: rs.map flagged
    let split : Prop := c.seg.blocks = 0 ∧ c.carry ≠ []
    t.headerTaken = true ∧ t.counts = k.counts ∧ t.lastSeq = k.lastSeq ∧ t.overflow = k.overflow
    ∧ t.digest = crc64Run c.digest block ∧ t.seg.blocks = c.seg.blocks + 1
    ∧ (tr = none → t.carry = rest ∧ t.afterTrailer = [] ∧ t.framer = .inCalls ∧ t.trailer = c.trailer)
    ∧ (∀ r, tr = some r → t.carry = [] ∧ t.afterTrailer = rest ∧ t.framer = .afterTrailer ∧ t.trailer = some (trailerTotals r))
    ∧ t.reference = ((if c.seg.blocks = 0 ∧ c.carry ≠ [] then all.drop 1 else all).getLast?).getD c.reference
    ∧ (split → t.seg.payload = c.seg.payload ++ block.take (40 - c.carry.length) ++ encodeRecords c.reference (coded.drop 1)
        ∧ t.seg.lead = 40 - c.carry.length ∧ t.seg.recs + 1 = c.seg.recs + all.length)
    ∧ (¬split → t.seg.payload = c.seg.payload ++ encodeRecords c.reference coded ∧ t.seg.lead = c.seg.lead
        ∧ t.seg.recs = c.seg.recs + all.length))
  ∧ ∀ (bank : List TariffEntry) (block : Block) (v : Volume) (c : Ctx) (bytes : List Byte), block.length = 4096 →
    c.framer = .inCalls → c.carry.length < 40 → isLossBlock v c block = false → (c.headerTaken = false → c.carry = []) →
    (∀ b bs, c.carry = b :: bs → b = kindC ∨ b = kindT) →
    let t := takeCalls bank block c
    (∀ b bs, t.carry = b :: bs → b = kindC ∨ b = kindT)
    ∧ (c.seg.blocks ≠ 0 → c.Holds bytes → t.Holds (bytes ++ block))
    ∧ (c.seg = { index := c.seg.index, first := c.seg.first } → c.reference = zeroRecord → t.Holds block)

/-- HELD_CLOSE (4.7, 4.8, 4.12, 5.4, 5.6, 1.4). With fewer than three segments pending, a free map entry and room for a placement it makes
the held close: the open segment is sealed, its tail bytes join its payload, it takes the next index, and a fresh open segment begins.
Then it is placed: in the FILLING zone's fill point with the next write stamp where it fits there, else as every placement is (said with
the open's writes, 5.4), and its write is asked for. In a HALTED part it is sealed UNWRITTEN, and while the open's two writes are out it
is sealed WRITING, both without a placement, a stamp or a write, and no room is needed. While three are pending the close stays held;
where a map entry or room is what it lacks the seal joins the waiting list, once. Where no close is held, nothing happens. That a
HALTED part takes such a seal off the waiting list (log entry 58), and that a close which was held for three pending segments alone joins
the list here (log entry 62), is the model's choice. -/
def Obligations.HeldCloseSealsTheSegment : Prop :=
  (∀ (window : BitVec 12) (s : State), s.ctx window.toNat = none → exec (.heldClose window) s = .next s)
  ∧ ∀ (window : BitVec 12) (s : State) (c : Ctx), s.resetHeld = false → s.startup = none → s.ctx window.toNat = some c →
    let row : Instr := .heldClose window
    let pending := (s.pendOf c.serial).length
    let written : Prop := c.openCatalogue = true ∧ c.openSettings = true
    let room : Prop := s.isHalted = true ∨ ¬written ∨ ∃ z, s.alloc.filling = some z
      ∧ (z.fill + c.sealLen ≤ 4096 ∨ s.alloc.fifo ≠ [] ∨ (z.live = 0 ∧ z.list = []))
    let item : WaitItem := .seal window.toNat c.serial
    let h (stamp : Nat) : SegHeader :=
      { window := c.window, serial := c.serial, index := c.next, first := c.seg.first, count := c.seg.blocks, kind := c.seg.kind,
        lead := c.seg.lead, tail := c.tailBytes.length, recs := c.seg.recs,
        payloadLen := (c.seg.payload ++ c.tailBytes).length, stamp, run := c.run }
    let sealed (p : PendSeg) (alloc : Alloc) : State := { s with
      pend := s.pend ++ [p]
      ctxs := s.ctxs.map fun x => if x.window = window.toNat then
        { x with
          next := x.next + 1
          seg := { index := x.next + 1, first := x.seg.first + x.seg.blocks, kind := if x.framer = .raw then .raw else .coded }
          reference := zeroRecord } else x
      alloc := { alloc with mapFree := s.alloc.mapFree - 1, waiting := s.alloc.waiting.filter (· ≠ item) } }
    (c.seg.held = none → exec row s = .next s)
    ∧ (c.seg.held.isSome = true →
      (3 ≤ pending → 0 < s.alloc.mapFree → room → exec row s = .next s)
      ∧ (s.alloc.mapFree = 0 ∨ ¬room →
        (item ∈ s.alloc.waiting → exec row s = .next s)
        ∧ (item ∉ s.alloc.waiting →
          exec row s = .next { s with alloc := { s.alloc with waiting := s.alloc.waiting ++ [item] } }))
      ∧ (pending < 3 → 0 < s.alloc.mapFree → s.isHalted = true ∨ ¬written → exec row s = .next (sealed
          { hdr := h 0, payload := c.seg.payload ++ c.tailBytes, status := if s.isHalted then .unwritten else .writing } s.alloc))
      ∧ (pending < 3 → 0 < s.alloc.mapFree → room → s.halted = none → written →
        exec row s = .next ((sealed { hdr := h 0, payload := c.seg.payload ++ c.tailBytes } s.alloc).placeOrWait c.serial c.next)
        ∧ ((∀ x ∈ s.pend, ¬(x.hdr.serial = c.serial ∧ x.hdr.index = c.next)) →
          (∃ t p x, exec row s = .next t ∧ p ∈ t.pend ∧ p.hdr = h p.hdr.stamp ∧ p.place.isSome = true ∧ p.status = .writing
            ∧ t.ctx window.toNat = some x ∧ x.next = c.next + 1 ∧ x.seg.blocks = 0 ∧ x.seg.first = c.seg.first + c.seg.blocks)
          ∧ ∀ z, s.alloc.filling = some z → z.fill + c.sealLen ≤ 4096 →
            let len := (h s.alloc.stamp).len
            let place : Place := { zone := z.zone, off := z.fill, len, stamp := s.alloc.stamp }
            let u := sealed { hdr := h s.alloc.stamp, payload := c.seg.payload ++ c.tailBytes, place := some place }
              { s.alloc with
                stamp := s.alloc.stamp + 1
                zones := s.alloc.zones.map fun x => if x.zone = z.zone then
                  { x with fill := x.fill + len
                           list := x.list ++ [{ window := c.window, serial := c.serial, index := c.next, off := z.fill, len
                                                stamp := s.alloc.stamp }] } else x }
            exec row s = .next { u with port := { s.port with queue := s.port.queue ++ [{
              cls := 3, user := .segment c.serial c.next s.alloc.stamp, op := .write, block := z.zone * 4096 + z.fill, count := len
              data := segmentBlocks (h s.alloc.stamp) (c.seg.payload ++ c.tailBytes) }] } })))

/-- The idle timer of an OPEN volume runs out (1.5): STALLED and VOLUME_STALLED are set, the timer stands stopped, a STALL entry is
appended with the ingest point and the committed point, and the close due on the open segment is made or held. No close is due with no
block in the segment or with one held already. With fewer than three segments pending, a free map entry and room for a placement it is
made: the segment is sealed and placed, or, in a HALTED part and while the open's writes are out, sealed without a placement. Else it
is held for the idle timer, and joins the waiting list when a map entry or room is what it lacks. A timer that does not run, or a volume
that is not OPEN, makes nothing happen.
That the timer runs out when its command is taken is the model's choice (log entry 27). -/
def Obligations.IdleTimerStallsItsVolume : Prop :=
  ∀ (window : BitVec 12) (s : State) (v : Volume) (c : Ctx), s.resetHeld = false →
    s.vol window.toNat = some v → s.ctx window.toNat = some c →
    let entry : Append := { code := 0x0005, body := be 2 window.toNat ++ be 4 v.serial ++ be 4 v.ingest ++ be 4 c.committed }
    let stalls (u : State) : Prop := exec (.idleTimerExpiry window) s = .next
      (State.append entry { u with
        vols := u.vols.map fun x => if x.window = window.toNat then { x with stalled := true } else x
        ctxs := u.ctxs.map fun x => if x.window = window.toNat then { x with idle := none } else x }).setStalled
    let pending := (s.pendOf c.serial).length
    let written : Prop := c.openCatalogue = true ∧ c.openSettings = true
    let room : Prop := s.isHalted = true ∨ ¬written ∨ ∃ z, s.alloc.filling = some z
      ∧ (z.fill + c.sealLen ≤ 4096 ∨ s.alloc.fifo ≠ [] ∨ (z.live = 0 ∧ z.list = []))
    let held : State := { s with ctxs := s.ctxs.map fun x =>
      if x.window = window.toNat then { x with seg := { x.seg with held := some .idleTimer } } else x }
    let item : WaitItem := .seal window.toNat c.serial
    let h (stamp : Nat) : SegHeader :=
      { window := c.window, serial := c.serial, index := c.next, first := c.seg.first, count := c.seg.blocks, kind := c.seg.kind,
        lead := c.seg.lead, tail := c.tailBytes.length, recs := c.seg.recs,
        payloadLen := (c.seg.payload ++ c.tailBytes).length, stamp, run := c.run }
    let sealed (p : PendSeg) (alloc : Alloc) : State := { s with
      pend := s.pend ++ [p]
      ctxs := s.ctxs.map fun x => if x.window = window.toNat then
        { x with
          next := x.next + 1
          seg := { index := x.next + 1, first := x.seg.first + x.seg.blocks, kind := if x.framer = .raw then .raw else .coded }
          reference := zeroRecord } else x
      alloc := { alloc with mapFree := s.alloc.mapFree - 1, waiting := s.alloc.waiting.filter (· ≠ item) } }
    (v.state ≠ .opened ∨ c.idle = none → exec (.idleTimerExpiry window) s = .next s)
    ∧ (v.state = .opened → c.idle.isSome = true →
        (∃ t, exec (.idleTimerExpiry window) s = .next t ∧ t.latched = { s.latched with volumeStalled := true }
          ∧ t.vol window.toNat = some { v with stalled := true } ∧ (∃ k, t.ctx window.toNat = some k ∧ k.idle = none)
          ∧ (3 ≤ pending → t.pend = s.pend) ∧ t.jr = (s.append entry).jr)
        ∧ (c.seg.blocks = 0 ∨ c.seg.held.isSome = true → stalls s)
        ∧ (c.seg.blocks ≠ 0 → c.seg.held = none →
          (3 ≤ pending → 0 < s.alloc.mapFree → room → stalls held)
          ∧ (s.alloc.mapFree = 0 ∨ ¬room →
            (item ∈ s.alloc.waiting → stalls held)
            ∧ (item ∉ s.alloc.waiting → stalls { held with alloc := { s.alloc with waiting := s.alloc.waiting ++ [item] } }))
          ∧ (pending < 3 → 0 < s.alloc.mapFree → s.isHalted = true ∨ ¬written → stalls (sealed
              { hdr := h 0, payload := c.seg.payload ++ c.tailBytes, status := if s.isHalted then .unwritten else .writing } s.alloc))
          ∧ (pending < 3 → 0 < s.alloc.mapFree → s.halted = none → written →
            (∀ x ∈ s.pend, ¬(x.hdr.serial = c.serial ∧ x.hdr.index = c.next)) →
            (room → ∃ t p x, exec (.idleTimerExpiry window) s = .next t ∧ p ∈ t.pend ∧ p.hdr = h p.hdr.stamp
              ∧ t.ctx window.toNat = some x ∧ x.next = c.next + 1 ∧ x.seg.blocks = 0 ∧ x.seg.first = c.seg.first + c.seg.blocks)
            ∧ ∀ z, s.alloc.filling = some z → z.fill + c.sealLen ≤ 4096 →
              let len := (h s.alloc.stamp).len
              let place : Place := { zone := z.zone, off := z.fill, len, stamp := s.alloc.stamp }
              let u := sealed { hdr := h s.alloc.stamp, payload := c.seg.payload ++ c.tailBytes, place := some place }
                { s.alloc with
                  stamp := s.alloc.stamp + 1
                  zones := s.alloc.zones.map fun x => if x.zone = z.zone then
                    { x with fill := x.fill + len
                             list := x.list ++ [{ window := c.window, serial := c.serial, index := c.next, off := z.fill, len
                                                  stamp := s.alloc.stamp }] } else x }
              stalls { u with port := { s.port with queue := s.port.queue ++ [{
                cls := 3, user := .segment c.serial c.next s.alloc.stamp, op := .write, block := z.zone * 4096 + z.fill, count := len
                data := segmentBlocks (h s.alloc.stamp) (c.seg.payload ++ c.tailBytes) }] } })))

/-! ### The store port -/

/-- The arbiter grants (5.7): the first request of the lowest class that may go out, a WRITE not while the part is HALTED; it takes the lowest
free tag (log entry 10) and the watchdog's load, and its REQUEST and its DATA are sent in order. Nothing is granted while the link
is DOWN, no tag is free or no request may go out. DATA of a read is kept once for each index the request asks for, and discarded
otherwise (2.12; other users' rows: log entry 29). A COMPLETION is read so (2.12): STORE_ERROR is a MEDIUM failure at the block its
block field names, any other status but GOOD one at block 0; GOOD gives a write its success and a read its blocks, or a MEDIUM failure
at the first block that did not arrive. That a verification read which waits at a halt may still be granted is the model's choice (log
entry 59). -/
def Obligations.TheArbiterGrantsInClassOrder : Prop :=
  (∀ (s : State) (pre post : List StoreReq) (r : StoreReq) (t : Nat), s.resetHeld = false → s.port.up = true →
    let mayGo (x : StoreReq) : Prop := s.halted = none ∨ x.op ≠ .write
    s.port.queue = pre ++ r :: post → mayGo r → 1 ≤ r.cls → r.cls ≤ 5 →
    (∀ x ∈ pre, mayGo x → r.cls < x.cls) → (∀ x ∈ post, mayGo x → r.cls ≤ x.cls) →
    t ≤ 15 → (∀ e ∈ s.port.table, e.tag ≠ t) → (∀ u, u < t → ∃ e ∈ s.port.table, e.tag = u) →
    exec .storeGrant s = .next { s with
      port := { s.port with
        queue := pre ++ post
        table := s.port.table ++ [{ tag := t, req := r, watchdog := s.set.work.storeTimeout }] }
      sent := s.sent ++ .storeRequest t r.op r.block r.count :: (r.data.zipIdx.map fun p => .storeData t p.2 p.1) })
  ∧ (∀ s : State, (s.port.up = false ∨ (∀ t ≤ 15, ∃ e ∈ s.port.table, e.tag = t)
        ∨ ∀ x ∈ s.port.queue, s.isHalted = true ∧ x.op = .write) → exec .storeGrant s = .next s)
  ∧ (∀ (tag : Byte) (index : BitVec 16) (b : Block) (s : State), s.resetHeld = false → b.length = 4096 →
      exec (.storeData tag index b) s = .next { s with port := { s.port with
        table := s.port.table.map fun e =>
          if e.tag = tag.toNat ∧ e.abandoned = false ∧ e.req.op = .read ∧ index.toNat < e.req.count
              ∧ (∀ p ∈ e.got, p.1 ≠ index.toNat) then { e with got := e.got ++ [(index.toNat, b)] } else e } })
  ∧ ∀ (status : Byte) (field : Nat) (e : StoreEntry),
      (status = 3 → e.outcome status field = .error { cls := .medium, block := field })
      ∧ (status ≠ 0 → status ≠ 3 → e.outcome status field = .error { cls := .medium, block := 0 })
      ∧ (status = 0 → e.req.op ≠ .read → e.outcome status field = .ok [])
      ∧ (status = 0 → e.req.op = .read →
          (∀ bs, bs.length = e.req.count → e.got = bs.zipIdx.map (fun p => (p.2, p.1)) → e.outcome status field = .ok bs)
          ∧ ∀ i, i < e.req.count → (∀ p ∈ e.got, p.1 ≠ i) → (∀ j, j < i → ∃ p ∈ e.got, p.1 = j) →
              e.outcome status field = .error { cls := .medium, block := i })

/-- A COMPLETION that no user waits for (2.12, 5.4, 5.7 to 5.9, 6.4, 8.7): for a tag without a request, or whose request is another user's
(log entry 29), nothing changes; for a request that was ABANDONED or disowned the tag becomes free and the completion is discarded.
An ABANDONED segment write then also leaves its zone's placement list, and a FULL zone that holds nothing any more is FREE and joins the
tail of the FIFO. -/
def Obligations.UnawaitedCompletionsOnlyFreeTheTag : Prop :=
  ∀ (tag status : Byte) (field : BitVec 64) (s : State), s.resetHeld = false →
    let rows : List (Instr × (StoreUser → Bool)) :=
      [(.segmentWriteCompletion tag status field, isSegment), (.catalogueWriteCompletion tag status field, isCatalogue),
       (.settingsWriteCompletion tag status field, isSettings), (.journalWriteCompletion tag status field, isJournal),
       (.fetchCompletion tag status field, isFetch), (.journalReadCompletion tag status field, isJournalRead),
       (.verificationReadCompletion tag status field, isVerification), (.startupReadCompletion tag status field, isStartup),
       (.capacityCompletion tag status field, isCapacity)]
    let freed : State := { s with port := { s.port with table := s.port.table.filter (·.tag ≠ tag.toNat) } }
    ∀ p ∈ rows,
      (s.entry tag.toNat = none → exec p.1 s = .next s)
      ∧ ∀ e, s.entry tag.toNat = some e →
          (p.2 e.req.user = false → exec p.1 s = .next s)
          ∧ (p.2 e.req.user = true → e.abandoned = false → e.discard = true → exec p.1 s = .next freed)
          ∧ (p.2 e.req.user = true → e.abandoned = true → isSegment e.req.user = false → exec p.1 s = .next freed)
          ∧ ∀ serial index stamp z, e.abandoned = true → e.req.user = .segment serial index stamp →
              s.alloc.zoneOfStamp stamp = some z → (∀ x ∈ s.alloc.zones, x.zone = z.zone → x = z) →
              let left := z.list.filter fun q => ¬(q.stamp = stamp ∧ q.status = .abandoned)
              let row : Instr := .segmentWriteCompletion tag status field
              (left ≠ [] ∨ z.live ≠ 0 → exec row s = .next { freed with alloc := { s.alloc with
                zones := s.alloc.zones.map fun x => if x.zone = z.zone then { x with list := left } else x } })
              ∧ (left = [] → z.live = 0 → z.filling = false → s.alloc.waiting = [] →
                exec row s = .next { freed with alloc := { s.alloc with
                  zones := s.alloc.zones.filter (·.zone ≠ z.zone), fifo := s.alloc.fifo ++ [z.zone] } })

/-- GOOD completions of the fixed-place writes (1.8, 9.2, 10.6). The values of a settings write come into force: an idle limit of 0
stops every idle timer (1.5), a patrol rate of 0 the patrol's, and a rate above 0 after 0 loads it (8.7). A gathered write is handed
over at once with the block as it then stands (log entry 23); then all that waited goes on, in the order of the calls (log entry 10):
a directive is answered, also a RESOLVE RESUME at its catalogue write; a CALENDAR is answered and its sweep begins, or waits behind
the one in progress in place of any that waited before (7.1, 7.4); an EXPIRING record is noted as stored; of an open the second of its
two writes has the segments sealed before it placed, in the order of the pending list, and the OPEN entry appended (1.4; a volume
without its context: log entry 34). A placement (5.4) goes to the FILLING zone's fill point; where it does not fit, that zone becomes
FULL, or FREE if it is idle (log entry 13), and the FIFO's head becomes FILLING and takes it at offset 0; with an empty FIFO it waits,
or goes to offset 0 of an idle FILLING zone. With the last write of a format the catalogue is read (11.5). A journal write that no one
waits for ends, and one answers the SYNC that waited for it alone.
A call for a write: with none outstanding the whole block as it stands is handed to class 1; behind an outstanding one the call is
gathered; in a HALTED part no settings write is handed over. A catalogue block holds the records of 16 windows: FREE for a FREE window
and from step 6 of a reclaim on; CLOSED from step 3 of a close on; before it a CLOSING record without a verdict (log entry 38); else
the volume table's. The layouts are log entry 8's. A journal write that ends has the reads that waited for it served from their source
again, then every SYNC it was waited on by, each with one write fewer to wait for, answered GOOD at its last; what was gathered behind
it is handed over last, the head's block with its content then. -/
def Obligations.FixedPlaceWritesComplete : Prop :=
  (∀ (tag : Byte) (field : BitVec 64) (s : State) (e : StoreEntry), s.Awaits tag e → e.req.op = .write → s.halted = none →
    let freed : State := { s with port := { s.port with table := s.port.table.filter (·.tag ≠ tag.toNat) } }
    (e.req.user = .settings → ∀ w, s.set.write = some w →
        let bytes := storedBlock s.stored
        let after : State := { freed with
          set := { s.set with
            work := w.settings, workMarker := w.marker, gathered := none
            write := s.set.gathered.map fun ws =>
              { settings := s.set.image, marker := s.set.imageMarker, day := s.ret.day, bytes, waiters := ws } }
          ctxs := if w.settings.idleLimit = 0 then s.ctxs.map fun c => { c with idle := none } else s.ctxs
          audit := { s.audit with patrol := { s.audit.patrol with timer :=
            if w.settings.patrolRate = 0 then false
            else if s.set.work.patrolRate = 0 ∧ s.startup = none then true else s.audit.patrol.timer } }
          port := { freed.port with queue := s.port.queue ++ if s.set.gathered = none then [] else
            [{ cls := 1, user := .settings, op := .write, block := 0, count := 1, data := [bytes] }] } }
        exec (.settingsWriteCompletion tag 0 field) s
          = .next (State.formatDone (w.waiters.foldl (fun u x => settingsWaiter w.day x u) after))
        ∧ (s.startup = none → ∀ os : List (Option Nat), w.waiters = os.map .directive →
          exec (.settingsWriteCompletion tag 0 field) s = .next (os.foldl (fun u o => u.answer o .good none) after))
        ∧ (s.startup = none → ∀ o ref, w.waiters = [.calendar o ref] →
          exec (.settingsWriteCompletion tag 0 field) s = .next { State.answer o .good none after with
            ret := if s.ret.sweep = none then { s.ret with sweep := some { day := w.day, ref } }
              else { s.ret with sweepNext := some (w.day, ref) } }))
    ∧ (∀ b, e.req.user = .catalogue b → ∀ w, s.catWrite b = some w →
        let after : State := { freed with
          set := { s.set with catWrites := s.set.catWrites.filter (·.block ≠ b) ++ match w.gathered with
            | none => []
            | some ws => [{ block := b, bytes := s.catBlock b, waiters := ws }] }
          port := { freed.port with queue := s.port.queue ++ if w.gathered = none then [] else
            [{ cls := 1, user := .catalogue b, op := .write, block := b, count := 1, data := [s.catBlock b] }] } }
        exec (.catalogueWriteCompletion tag 0 field) s
          = .next (State.formatDone (w.waiters.foldl (fun u x => catalogueWaiter x u) after))
        ∧ (s.startup = none → ∀ os : List (Option Nat), w.waiters = os.map .resume →
          exec (.catalogueWriteCompletion tag 0 field) s = .next (os.foldl (fun u o => u.answer o .good none) after))
        ∧ (s.startup = none → ∀ x n, w.waiters = [.expiring x n] →
          exec (.catalogueWriteCompletion tag 0 field) s = .next { after with ret := { s.ret with
            queue := s.ret.queue.map fun q => if q.window = x ∧ q.serial = n then { q with written := true } else q } }))
    ∧ (∀ ring, e.req.user = .journal ring → ∀ w, s.jr.writes.find? (fun x => x.ring == ring) = some w → w.gathered = none →
        (∀ x ∈ s.client.tags, x.wait ≠ .journalWrite ring) →
        let done : State := { freed with jr := { s.jr with writes := s.jr.writes.filter (·.ring ≠ ring) } }
        (w.waiters = [] → exec (.journalWriteCompletion tag 0 field) s = .next done)
        ∧ (∀ t x, w.waiters = [.sync t] → s.tag t = some x → x.journalWrites ≤ 1 →
          exec (.journalWriteCompletion tag 0 field) s = .next (done.complete t .good none 0)))
    ∧ (∀ ring, e.req.user = .journal ring → ∀ w, s.jr.writes.find? (fun x => x.ring == ring) = some w →
        let done : State := { freed with jr := { s.jr with writes := s.jr.writes.filter (·.ring ≠ ring) } }
        let readers := (s.client.tags.filter fun x => x.wait = .journalWrite ring).map (·.tag)
        let told := w.waiters.foldl (fun u x => journalWaiter x u) (readers.foldl (fun u t => wakeRead t u) done)
        (w.gathered = none → exec (.journalWriteCompletion tag 0 field) s = .next told)
        ∧ ∀ content ws, w.gathered = some (content, ws) → told.halted = none →
            let now := if ring = told.headRing then renderJournal told.jr.head told.jr.buf else content
            ((∀ x ∈ told.jr.writes, x.ring ≠ ring) → exec (.journalWriteCompletion tag 0 field) s = .next { told with
              jr := { told.jr with writes := told.jr.writes ++ [{ ring, content := now, waiters := ws }] }
              port := { told.port with queue := told.port.queue ++
                [{ cls := 1, user := .journal ring, op := .write, block := 4096 + ring, count := 1, data := [now] }] } })
            ∧ ((∃ x ∈ told.jr.writes, x.ring = ring) → exec (.journalWriteCompletion tag 0 field) s = .next { told with
              jr := { told.jr with writes := told.jr.writes.map fun x => if x.ring = ring then
                { x with gathered := some (now, (match x.gathered with
                  | none => []
                  | some (_, l) => l) ++ ws) } else x } })))
  ∧ (∀ (t : Byte) (x : TagEntry) (u : State), u.tag t.toNat = some x →
    let idle : State := { u with client := { u.client with tags := u.client.tags.map fun y =>
      if y.tag = t.toNat then { y with wait := .idle } else y } }
    (u.resetHeld = false → exec (.serveBlock t) idle = .next (wakeRead t.toNat u))
    ∧ (x.journalWrites ≤ 1 → journalWaiter (.sync t.toNat) u = u.complete t.toNat .good none 0)
    ∧ (1 < x.journalWrites → journalWaiter (.sync t.toNat) u = { u with client := { u.client with tags := u.client.tags.map fun y =>
        if y.tag = t.toNat then { y with journalWrites := y.journalWrites - 1 } else y } }))
  ∧ (∀ (day n : Nat) (u : State),
    let catalogue := catalogueWaiter (.opening n) u
    let settings := settingsWaiter day (.opening n) u
    let entry (v : Volume) : Append :=
      { code := 0x0002
        body := be 2 v.window ++ be 4 v.serial ++ (be 2 v.source ++ be 2 v.day ++ be 1 v.gen) ++ be 1 v.cls ++ be 1 v.bank
          ++ be 2 v.openedOn }
    (∀ o, settingsWaiter day (.directive o) u = u.answer o .good none ∧ catalogueWaiter (.resume o) u = u.answer o .good none)
    ∧ settingsWaiter day .format u = u ∧ catalogueWaiter .format u = u
    ∧ (u.volOf n = none → catalogue = u ∧ settings = u)
    ∧ ∀ v, u.volOf n = some v →
      (u.ctx v.window = none → catalogue = u ∧ settings = u.append (entry v))
      ∧ ∀ c, u.ctx v.window = some c →
        let put (k : Ctx) : State := { u with ctxs := u.ctxs.map fun x => if x.window = v.window then k else x }
        let sealed := (u.pendOf n).filter fun p => p.place = none ∧ p.status = .writing
        let opened (k : Ctx) : State := State.append (entry v) (sealed.foldl (fun x p => x.placeOrWait n p.hdr.index) (put k))
        (c.openSettings = false → catalogue = put { c with openCatalogue := true })
        ∧ (c.openSettings = true → catalogue = opened { c with openCatalogue := true })
        ∧ (c.openCatalogue = false → settings = put { c with openSettings := true })
        ∧ (c.openCatalogue = true → settings = opened { c with openSettings := true }))
  ∧ (∀ (serial index : Nat) (p : PendSeg) (z : Zone) (u : State), u.halted = none → u.pendSeg serial index = some p →
    u.alloc.filling = some z →
    let h : SegHeader := { p.hdr with stamp := u.alloc.stamp }
    let placed (zone off : Nat) (alloc : Alloc) : State := { u with
      pend := u.pend.map fun x => if x.hdr.serial = serial ∧ x.hdr.index = index then
        { p with place := some { zone, off, len := p.hdr.len, stamp := u.alloc.stamp }, hdr := h } else x
      alloc := { alloc with
        stamp := u.alloc.stamp + 1
        zones := alloc.zones.map fun x => if x.zone = zone then
          { x with fill := x.fill + p.hdr.len
                   list := x.list ++ [{ window := p.hdr.window, serial, index, off, len := p.hdr.len
                                        stamp := u.alloc.stamp }] } else x }
      port := { u.port with queue := u.port.queue ++ [{
        cls := 3, user := .segment p.hdr.serial p.hdr.index u.alloc.stamp, op := .write, block := zone * 4096 + off
        count := p.hdr.len, data := segmentBlocks h p.payload }] } }
    (z.fill + p.hdr.len ≤ 4096 → u.placeOrWait serial index = placed z.zone z.fill u.alloc)
    ∧ (∀ n rest, 4096 < z.fill + p.hdr.len → u.alloc.fifo = n :: rest →
      (∀ x ∈ u.alloc.zones, x.zone ≠ n ∧ (x.filling = true → x.zone = z.zone)) →
      (z.live ≠ 0 ∨ z.list ≠ [] → u.placeOrWait serial index = placed n 0 { u.alloc with
        fifo := rest
        zones := insertBy (·.zone) { zone := n, filling := true }
          (u.alloc.zones.map fun x => if x.zone = z.zone then { x with filling := false } else x) })
      ∧ (z.live = 0 → z.list = [] → u.alloc.waiting = [] → u.placeOrWait serial index = placed n 0 { u.alloc with
        fifo := rest ++ [z.zone]
        zones := insertBy (·.zone) { zone := n, filling := true } (u.alloc.zones.filter (·.zone ≠ z.zone)) }))
    ∧ (4096 < z.fill + p.hdr.len → u.alloc.fifo = [] → z.live = 0 → z.list = [] →
      u.placeOrWait serial index = placed z.zone 0 { u.alloc with
        zones := u.alloc.zones.map fun x => if x.zone = z.zone then { x with fill := 0 } else x })
    ∧ (4096 < z.fill + p.hdr.len → u.alloc.fifo = [] → z.live ≠ 0 ∨ z.list ≠ [] → WaitItem.place serial index ∉ u.alloc.waiting →
      u.placeOrWait serial index
        = { u with alloc := { u.alloc with waiting := u.alloc.waiting ++ [.place serial index] } }))
  ∧ (∀ s : State, (s.startup = none → s.formatDone = s)
    ∧ ∀ u, s.startup = some u →
      let last : Prop := u.phase = .format ∧ s.set.write = none ∧ s.set.gathered = none ∧ s.set.catWrites = []
      (¬last → s.formatDone = s)
      ∧ (last → s.formatDone = { s with
          startup := some { u with phase := .catalogue, pos := 0, second := false }
          port := { s.port with queue := s.port.queue ++
            [{ cls := 2, user := .startup, op := .read, block := 1, count := 1 }] } }))
  ∧ (∀ (w : SetWaiter) (s : State),
    let block := storedBlock
      { settings := s.set.image, marker := s.set.imageMarker, day := s.ret.day, table := s.ret.table, bank0 := s.tariff.bank0
        bank1 := s.tariff.bank1, active := s.tariff.active, holds := s.ret.holds, floor := s.audit.floor
        serial := s.serialCounter, j := s.alloc.j, readPtr := s.jr.readPtr }
    (s.set.write = none → s.halted = none → s.callSettings w = { s with
      set := { s.set with
        write := some { settings := s.set.image, marker := s.set.imageMarker, day := s.ret.day, bytes := block, waiters := [w] }
        gathered := none }
      port := { s.port with queue := s.port.queue ++
        [{ cls := 1, user := .settings, op := .write, block := 0, count := 1, data := [block] }] } })
    ∧ (s.set.write ≠ none ∨ s.isHalted = true →
        s.callSettings w = { s with set := { s.set with gathered := some (s.set.gathered.getD [] ++ [w]) } }))
  ∧ ∀ (w : Nat) (ws : List CatWaiter) (s : State), w < 4096 →
    let block := 1 + w / 16
    let record := slice (s.catBlock block) (256 * (w % 16)) 256
    ((∀ x ∈ s.set.catWrites, x.block ≠ block) → s.callCatalogue w ws = { s with
      set := { s.set with catWrites := s.set.catWrites ++ [{ block, bytes := s.catBlock block, waiters := ws }] }
      port := { s.port with queue := s.port.queue ++
        [{ cls := 1, user := .catalogue block, op := .write, block, count := 1, data := [s.catBlock block] }] } })
    ∧ ((∃ x ∈ s.set.catWrites, x.block = block) → s.callCatalogue w ws = { s with set := { s.set with
        catWrites := s.set.catWrites.map fun x =>
          if x.block = block then { x with gathered := some (x.gathered.getD [] ++ ws) } else x } })
    ∧ (w = 4095 → record = zeros 256)
    ∧ (w ≠ 4095 → s.vol w = none → record = catRecordBytes none)
    ∧ (w ≠ 4095 → ∀ v, s.vol w = some v →
        let freed : Prop := ∃ r, s.ret.reclaim = some r ∧ r.window = w ∧ r.freeIssued = true
        let closed : Prop := ∃ c k, s.ctx w = some c ∧ c.close = some k ∧ (k.stage = .writing ∨ k.stage = .journal)
        (freed → record = catRecordBytes none)
        ∧ (¬freed → closed → record = catRecordBytes (some { v with state := .closed }))
        ∧ (¬freed → ¬closed → v.state = .closing → record = catRecordBytes
            (some { v with audit := .pending, flags := none, counts := {}, digest := none, chain := none }))
        ∧ (¬freed → ¬closed → v.state ≠ .closing → record = catRecordBytes (some v)))

/-- Failures of the fixed-place writes (5.9, 11.2): the first failure asks for the same write once more; the second is a double fault and
makes the part HALTED, with the image back at the working settings and the sweep stopped. A journal block whose write has failed so
stays with the journal unit with what was gathered behind it, and no read waits for it any more (9.2). A double fault answers every
write, SYNC and directive HALTED, and every read of an OPEN, SUSPENDED or CLOSING volume; other reads go on (2.11). It ends a running
start-up, asks the store for nothing, and appends a FAULT entry DOUBLE that names the write, without a forced write. That the entries for
which a close, the sweep, a verification or the reclaim waits leave the wait list at the halt, with the SUPERSEDE entries behind such
a CLOSE, is the model's reading of 1.6, 7.4, 7.7 and 8.8 (log entry 24), that the patrol's entry stays its choice (log entry 64); what
such a write does in a HALTED part is log entry 15. The zeros of a FAULT entry's unused capture slots are log entry 55's. -/
def Obligations.FixedPlaceWritesAreRetriedOnce : Prop :=
  (∀ (tag status : Byte) (field : BitVec 64) (s : State) (e : StoreEntry), s.Awaits tag e → s.halted = none → status ≠ 0 →
    let freed : State := { s with port := { s.port with table := s.port.table.filter (·.tag ≠ tag.toNat) } }
    let asks (user : StoreUser) (block : Nat) (bytes : Block) (u : State) : State :=
      { u with port := { u.port with queue := s.port.queue ++
        [{ cls := 1, user, op := .write, block, count := 1, data := [bytes] }] } }
    let halts (c : Instr) : Prop := ∃ t, exec c s = .next t ∧ t.halted = some .medium ∧ t.set.image = s.set.work
      ∧ t.set.imageMarker = s.set.workMarker ∧ t.ret.sweep = none
    let newest (x : JournalWrite) : Nat × Block × Option Block := (x.ring, x.content, x.gathered.map (·.1))
    (e.req.user = .settings → ∀ w, s.set.write = some w →
        (w.retryUsed = false → exec (.settingsWriteCompletion tag status field) s = .next
          (asks .settings 0 w.bytes { freed with set := { s.set with write := some { w with retryUsed := true } } }))
        ∧ (w.retryUsed = true → halts (.settingsWriteCompletion tag status field)
          ∧ exec (.settingsWriteCompletion tag status field) s = .next
            (State.doubleFault .medium .settings 0 none none { freed with set := { s.set with write := none } })))
    ∧ (∀ b, e.req.user = .catalogue b → ∀ w, s.catWrite b = some w →
        (w.retryUsed = false → exec (.catalogueWriteCompletion tag status field) s = .next
          (asks (.catalogue b) b w.bytes { freed with set := { s.set with catWrites := s.set.catWrites.map fun x =>
            if x.block = b then { x with retryUsed := true } else x } }))
        ∧ (w.retryUsed = true → halts (.catalogueWriteCompletion tag status field)
          ∧ exec (.catalogueWriteCompletion tag status field) s
            = .next (State.doubleFault .medium .catalogue b none none freed)))
    ∧ (∀ ring, e.req.user = .journal ring → ∀ w, s.jr.writes.find? (fun x => x.ring == ring) = some w →
        (w.retryUsed = false → exec (.journalWriteCompletion tag status field) s = .next
          (asks (.journal ring) (4096 + ring) w.content { freed with jr := { s.jr with writes := s.jr.writes.map fun x =>
            if x.ring = ring then { x with retryUsed := true } else x } }))
        ∧ (w.retryUsed = true → halts (.journalWriteCompletion tag status field)
          ∧ (∃ t, exec (.journalWriteCompletion tag status field) s = .next t
            ∧ t.jr.writes.map newest = s.jr.writes.map newest ∧ (∀ x ∈ t.jr.writes, x.ring = ring → x.failed = true)
            ∧ ∀ x ∈ t.client.tags, x.wait ≠ .journalWrite ring)
          ∧ ((∀ x ∈ s.client.tags, x.wait ≠ .journalWrite ring) →
            let d := State.doubleFault .medium .journal (4096 + ring) none none freed
            let failed := d.jr.writes.map fun x => if x.ring = ring then { x with failed := true } else x
            exec (.journalWriteCompletion tag status field) s = .next { d with jr := { d.jr with writes := failed } }))))
  ∧ ∀ (cls : FaultClass) (kind : WriteKind) (block : Nat) (s : State), s.halted = none →
      let t := s.doubleFault cls kind block none none
      let write : Byte := match kind with
        | .settings => 0
        | .catalogue => 1
        | .journal => 2
        | .lostMarker => 3
      let entry : Append :=
        { code := 0x000C
          body := [4] ++ be 1 cls.code ++ optBytes 6 none ++ optBytes 12 none ++ optBytes 6 none ++ optBytes 6 none ++ [0] ++ zeros 39
            ++ optBytes 5 (some (write :: be 4 block)) }
      let stops (a : Append) : Bool := match a.who with
        | .close _ _ => true
        | .sweep => true
        | .verification => true
        | .purge => true
        | .supersede w n => s.jr.waitList.any (·.who == .close w n)
        | .patrol => false
        | .nobody => false
      let ends (e : TagEntry) : Prop := e.phase ≠ .serving ∨ ∃ n v, e.serial = some n ∧ s.volOf n = some v
        ∧ (v.state = .opened ∨ v.state = .suspended ∨ v.state = .closing)
      t.halted = some cls ∧ t.startup = none ∧ (∀ x ∈ t.client.tags, x.phase = .serving)
        ∧ (∀ e ∈ s.client.tags, ends e → .completion e.tag .halted none 0 ∈ t.sent ∧ t.tag e.tag = none)
        ∧ ((s.client.tags.map (·.tag)).Nodup → ∀ e ∈ s.client.tags, ¬ends e → ∃ w, t.tag e.tag = some { e with wait := w })
        ∧ (∀ r ∈ t.port.queue, r ∈ s.port.queue)
        ∧ t.jr = (State.append entry { s with
            halted := some cls
            jr := { s.jr with waitList := s.jr.waitList.filter (fun a => !stops a), writes := t.jr.writes } }).jr
        ∧ (∀ a ∈ t.jr.waitList, (∀ w n, a.who ≠ .close w n) ∧ a.who ≠ .sweep ∧ a.who ≠ .verification ∧ a.who ≠ .purge)

/-- Segment writes. A write that lands at the head of its zone's list commits, with the LANDED placements behind it and the WRITTEN
segments of higher index behind it in the pending list; behind a placement still out it waits LANDED; behind a segment not yet
WRITTEN it becomes WRITTEN and waits; after a first failure it sets STORE_FAULT and appends RECOVERED. The COMMITTED-mode writes
and SYNCs that a commit completes are answered, STORE_ERROR at the first lost block. The commit of the last segment of a CLOSING
volume ends step 1 of its close: the close joins those that wait for their verdict, and the SYNCs of the volume are answered, GOOD
or STORE_ERROR at the first lost block (1.6, 2.8). A first failure is placed afresh with its
retry used; what it stranded is placed afresh and keeps its retry; the failure of a retry makes the LOST marker, the FAULT entry
with its captures, DAMAGE_FOUND and the mark; the failure of a marker's retry halts the part.
A FULL zone that holds nothing becomes FREE; the FILLING one returns its fill point to 0 while something waits for a placement;
the waiting list is gone through in order, and what still cannot be placed keeps its place. Each placement takes the stamp counter's
value, which no placement has yet, and advances it. That a zone is tested before the fresh placements, and that an ended FILLING zone
that holds nothing takes them at offset 0, is the model's choice (log entry 13); so is that a segment which is WRITTEN and waits for a
lower index does not keep its zone (log entry 48), that a stranded write still queued is withdrawn (log entry 49), the stamp counter
past 64 bits (log entry 54), and the place and zeros of a FAULT entry's captures (log entry 55). -/
def Obligations.SegmentWritesCommit : Prop :=
  (∀ (tag : Byte) (field : BitVec 64) (s : State) (e : StoreEntry) (z : Zone) (q : Placement) (p : PendSeg) (place : Place),
    s.SegmentOut tag e z q p place →
    let freed : State := { s with port := { s.port with table := s.port.table.filter (·.tag ≠ tag.toNat) } }
    let name : List Byte := optBytes 6 (some (be 2 q.window ++ be 4 q.serial))
    let range : List Byte := be 4 p.hdr.index ++ be 4 p.hdr.first ++ be 4 p.hdr.count
    let fault (body : List Byte) (forced : Bool) : Append := { code := 0x000C, body, forced }
    let waitsOrGoes (t : State) (x : Placement) (stamps : Nat → Prop) : Prop := WaitItem.place x.serial x.index ∈ t.alloc.waiting
      ∨ ∃ n, stamps n ∧ ∃ r ∈ t.port.queue, r.user = .segment x.serial x.index n ∧ r.op = .write
    let entry (x : PendSeg × Place) : MapEntry :=
      { first := x.1.hdr.first, count := x.1.hdr.count, zone := x.2.zone, off := x.2.off, len := x.2.len, kind := x.1.hdr.kind
        lead := x.1.hdr.lead, tail := x.1.hdr.tail, recs := x.1.hdr.recs }
    let landed (l : List (PendSeg × Place)) (upto : Nat) : State := { freed with
      vols := s.vols.map fun x => if x.window = q.window then
        { x with map := x.map ++ l.map entry, segments := x.segments + l.length } else x
      ctxs := s.ctxs.map fun x => if x.window = q.window then { x with committed := upto } else x
      pend := s.pend.filter fun x => ∀ y ∈ l, ¬(x.hdr.serial = q.serial ∧ x.hdr.index = y.1.hdr.index)
      alloc := { s.alloc with zones := s.alloc.zones.map fun x =>
        { x with list := if x.zone = z.zone then [] else x.list
                 live := x.live + ((l.filter fun y => y.2.zone = x.zone).map (·.2.len)).sum } } }
    (∀ (v : Volume) (c : Ctx), s.OwnerOpen q v c →
      ((∀ x ∈ s.client.tags, x.serial ≠ some q.serial) → z.list = [q] → s.pendOf q.serial = [p] →
        (p.failure = none →
          exec (.segmentWriteCompletion tag 0 field) s = .next (landed [(p, place)] (p.hdr.first + p.hdr.count)))
        ∧ (∀ cls old, p.failure = some (cls, old) → exec (.segmentWriteCompletion tag 0 field) s = .next (State.append
            (fault ([0, BitVec.ofNat 8 cls.code] ++ name ++ optBytes 12 (some range)
              ++ optBytes 6 (some (be 4 old.zone ++ be 2 old.off)) ++ optBytes 6 (some (be 4 place.zone ++ be 2 place.off))
              ++ [0] ++ zeros 39 ++ optBytes 5 none) true)
            { landed [(p, place)] (p.hdr.first + p.hdr.count) with latched := { s.latched with storeFault := true } })))
      ∧ ((∀ x ∈ s.client.tags, x.serial ≠ some q.serial) → p.failure = none →
        ∀ (p' : PendSeg) (place' : Place), p'.hdr.window = q.window → p'.hdr.index ≠ q.index →
          (s.pendOf q.serial = [p, p'] → p'.place = some place' →
            (z.list = [q] → p'.status = .written →
              exec (.segmentWriteCompletion tag 0 field) s
                = .next (landed [(p, place), (p', place')] (p'.hdr.first + p'.hdr.count)))
            ∧ ∀ r : Placement, z.list = [q, r] → r.status = .landed → r.stamp ≠ q.stamp → r.window = q.window →
              r.serial = q.serial → r.index = p'.hdr.index → place'.stamp = r.stamp → place'.zone = z.zone → p'.failure = none →
              exec (.segmentWriteCompletion tag 0 field) s
                = .next (landed [(p, place), (p', place')] (p'.hdr.first + p'.hdr.count)))
          ∧ (s.pendOf q.serial = [p', p] → z.list = [q] → p'.status ≠ .written → 0 < z.live →
            exec (.segmentWriteCompletion tag 0 field) s = .next { freed with
              pend := s.pend.map fun x =>
                if x.hdr.serial = q.serial ∧ x.hdr.index = q.index then { x with status := .written } else x
              alloc := { s.alloc with zones := s.alloc.zones.map fun x =>
                if x.zone = z.zone then { x with list := [] } else x } }))
      ∧ (z.list = [q] → s.pendOf q.serial = [p] → (s.client.tags.map (·.tag)).Nodup → (∀ m ∈ v.map, m.kind ≠ .lost) →
        0 < p.hdr.count → ∃ t, exec (.segmentWriteCompletion tag 0 field) s = .next t ∧ ∀ x ∈ s.client.tags,
          x.serial = some q.serial →
          (x.phase = .waitingCommit → 0 < x.count → x.offset + x.count ≤ p.hdr.first + p.hdr.count →
            (p.hdr.kind ≠ .lost ∨ x.offset + x.count ≤ p.hdr.first → .completion x.tag .good none 0 ∈ t.sent)
            ∧ (p.hdr.kind = .lost → p.hdr.first < x.offset + x.count →
                .completion x.tag .storeError none (max x.offset p.hdr.first - x.offset) ∈ t.sent))
          ∧ (x.phase = .syncing → ∀ n, x.target = some n → n ≤ p.hdr.first + p.hdr.count →
            (p.hdr.kind ≠ .lost ∨ n ≤ p.hdr.first → .completion x.tag .good none 0 ∈ t.sent)
            ∧ (p.hdr.kind = .lost → p.hdr.first < n → .completion x.tag .storeError none p.hdr.first ∈ t.sent))))
    ∧ (∀ (v : Volume) (c : Ctx) (k : Closing), s.vol q.window = some v → v.serial = q.serial → v.state = .closing →
        s.ctx q.window = some c → c.serial = q.serial → c.close = some k → k.stage = .segments → c.seg.blocks = 0 →
        p.failure = none → z.list = [q] → s.pendOf q.serial = [p] →
        let whole := v.map ++ [entry (p, place)]
        let last : State := { landed [(p, place)] 0 with
          ctxs := s.ctxs.map fun x => if x.window = q.window then
            { x with committed := p.hdr.first + p.hdr.count, close := some { k with stage := .verdict } } else x
          audit := { s.audit with closes := s.audit.closes ++ [q.window] } }
        ((∀ x ∈ s.client.tags, x.serial ≠ some q.serial) → exec (.segmentWriteCompletion tag 0 field) s = .next last)
        ∧ ((s.client.tags.map (·.tag)).Nodup → ∃ t, exec (.segmentWriteCompletion tag 0 field) s = .next t
          ∧ t.ctxs = last.ctxs ∧ t.audit = last.audit ∧ t.vols = last.vols
          ∧ ∀ x ∈ s.client.tags, x.serial = some q.serial → x.phase = .syncing →
            ((∀ m ∈ whole, m.kind ≠ .lost) → .completion x.tag .good none 0 ∈ t.sent)
            ∧ ∀ pre m post, whole = pre ++ m :: post → (∀ y ∈ pre, y.kind ≠ .lost) → m.kind = .lost → 0 < m.count →
                m.first < 16777216 → .completion x.tag .storeError none m.first ∈ t.sent))
    ∧ (∀ (r : Placement) (rest : List Placement), z.list = r :: rest → r.status ≠ .landed → r.stamp ≠ q.stamp →
        exec (.segmentWriteCompletion tag 0 field) s = .next { freed with
          alloc := { s.alloc with zones := s.alloc.zones.map fun x => if x.zone = z.zone then
            { x with list := x.list.map fun y => if y.stamp = q.stamp then { y with status := .landed } else y } else x } })
    ∧ (s.StampsFresh z q → s.alloc.waiting = [] → ∀ status, status ≠ 0 →
        (z.list = [q] → p.retryUsed = false →
          ∃ t, exec (.segmentWriteCompletion tag status field) s = .next t
            ∧ (∀ x ∈ t.alloc.zones, ∀ y ∈ x.list, y.stamp ≠ q.stamp)
            ∧ (z.filling = true → ∀ x ∈ t.alloc.zones, x.zone = z.zone → 4096 ≤ x.fill ∨ x.fill = p.hdr.len)
            ∧ waitsOrGoes t q (· = s.alloc.stamp)
            ∧ ∃ p', t.pendSeg q.serial q.index = some p' ∧ p'.retryUsed = true ∧ p'.failure = some (.medium, place)
                ∧ p'.status = p.status ∧ p'.payload = p.payload)
        ∧ (∀ (r : Placement) (p' : PendSeg) (place' : Place), z.list = [q, r] → r.status ≠ .abandoned → r.stamp ≠ q.stamp →
            ¬(r.serial = q.serial ∧ r.index = q.index) → s.pendSeg r.serial r.index = some p' → p'.place = some place' →
            place'.stamp = r.stamp → (∀ x ∈ s.alloc.zones, x ≠ z → ∀ y ∈ x.list, y.stamp ≠ r.stamp) → p.retryUsed = false →
          ∃ t, exec (.segmentWriteCompletion tag status field) s = .next t
            ∧ (∀ x ∈ t.alloc.zones, ∀ y ∈ x.list, y.stamp ≠ r.stamp)
            ∧ waitsOrGoes t q (s.alloc.stamp ≤ ·) ∧ waitsOrGoes t r (s.alloc.stamp ≤ ·)
            ∧ (∀ x ∈ t.port.queue, x.user ≠ .segment r.serial r.index r.stamp)
            ∧ (∀ x ∈ t.port.table, x.req.user = .segment r.serial r.index r.stamp → x.discard = true)
            ∧ ∃ x, t.pendSeg r.serial r.index = some x ∧ x.retryUsed = p'.retryUsed ∧ x.failure = p'.failure
                ∧ x.status = p'.status ∧ x.payload = p'.payload)
        ∧ (z.list = [q] → p.retryUsed = true → p.status ≠ .marking →
          ∃ t, exec (.segmentWriteCompletion tag status field) s = .next t
            ∧ waitsOrGoes t q (· = s.alloc.stamp)
            ∧ t.latched = { s.latched with damageFound := true }
            ∧ t.vols = (s.vols.map fun x =>
                if x.window = q.window ∧ x.serial = q.serial then { x with markDamaged := true } else x)
            ∧ t.jr = (s.append (fault ([1, 1] ++ name ++ optBytes 12 none ++ optBytes 6 none ++ optBytes 6 none
                ++ [BitVec.ofNat 8 (min 3 (s.pendOf q.serial).length)]
                ++ padTo 39 (((s.pendOf q.serial).take 3).flatMap fun x =>
                    be 4 x.hdr.index ++ be 4 x.hdr.first ++ be 4 x.hdr.count
                      ++ [if x.hdr.index = q.index ∨ x.status = .marking then 1 else if x.status = .written then 0 else 2])
                ++ optBytes 5 none) true)).jr
            ∧ ∃ p', t.pendSeg q.serial q.index = some p' ∧ p'.status = .marking ∧ p'.retryUsed = false ∧ p'.failure = none
                ∧ p'.payload = []
                ∧ ∃ n, p'.hdr = { p.hdr with kind := .lost, recs := 0, payloadLen := 0, stamp := n }
                  ∧ ∀ r ∈ t.port.queue, r.user = .segment q.serial q.index s.alloc.stamp →
                      r ∉ s.port.queue → n = s.alloc.stamp ∧ r.count = 1 ∧ r.data = segmentBlocks p'.hdr [])
        ∧ (z.list = [q] → p.retryUsed = true → p.status = .marking → s.client.tags = [] → s.jr.waitList = [] →
          ∃ t, exec (.segmentWriteCompletion tag status field) s = .next t ∧ t.halted = some .medium ∧ t.pend = s.pend
            ∧ t.jr = (State.append (fault ([4, 1] ++ name ++ optBytes 12 (some range) ++ optBytes 6 none ++ optBytes 6 none ++ [0]
                ++ zeros 39 ++ optBytes 5 (some (3 :: be 4 (place.zone * 4096 + place.off)))) false)
                { s with halted := some .medium }).jr)))
  ∧ (∀ (n : Nat) (s : State) (z : Zone), s.alloc.zone n = some z →
      (z.live ≠ 0 ∨ z.list ≠ [] → s.zoneTest n = s)
      ∧ (z.live = 0 → z.list = [] → s.alloc.waiting = [] → s.zoneTest n = if z.filling = true then s else
          { s with alloc := { s.alloc with zones := s.alloc.zones.filter (·.zone ≠ n), fifo := s.alloc.fifo ++ [n] } })
      ∧ (s.halted = none →
          let taken (t : State) (p : PendSeg) (len : Nat) : Prop := t.alloc.waiting = [] ∧ t.alloc.fifo = []
            ∧ t.alloc.filling = some { zone := n, filling := true, fill := len, live := 0, list := [
                { window := p.hdr.window, serial := p.hdr.serial, index := p.hdr.index, off := 0, len, stamp := s.alloc.stamp }] }
            ∧ t.pendSeg p.hdr.serial p.hdr.index = some { p with
                place := some { zone := n, off := 0, len, stamp := s.alloc.stamp }, hdr := { p.hdr with stamp := s.alloc.stamp } }
            ∧ t.port.queue = s.port.queue ++ [{
                cls := 3, user := .segment p.hdr.serial p.hdr.index s.alloc.stamp, op := .write, block := n * 4096, count := len
                data := segmentBlocks { p.hdr with stamp := s.alloc.stamp } p.payload }]
          (∀ serial index p, s.alloc.waiting = [.place serial index] → s.pendSeg serial index = some p →
              s.OnlyRoom n p.hdr.len z → taken (s.zoneTest n) p p.hdr.len)
          ∧ ∀ (w : Nat) (c : Ctx), s.alloc.waiting = [.seal w c.serial] → s.ctx w = some c → c.seg.held.isSome = true →
              (s.pendOf c.serial).length < 3 → 0 < s.alloc.mapFree → c.openCatalogue = true → c.openSettings = true →
              (∀ x ∈ s.pend, ¬(x.hdr.serial = c.serial ∧ x.hdr.index = c.next)) →
              let h : SegHeader :=
                { window := c.window, serial := c.serial, index := c.next, first := c.seg.first, count := c.seg.blocks
                  kind := c.seg.kind, lead := c.seg.lead, tail := c.tailBytes.length, recs := c.seg.recs
                  payloadLen := (c.seg.payload ++ c.tailBytes).length, stamp := 0, run := c.run }
              s.OnlyRoom n h.len z →
              taken (s.zoneTest n) { hdr := h, payload := c.seg.payload ++ c.tailBytes } h.len
              ∧ (s.zoneTest n).alloc.mapFree = s.alloc.mapFree - 1))
  ∧ (∀ (window serial index len : Nat) (a a' : Alloc) (p : Place), a.takePlace window serial index len = some (p, a') →
      (∀ x ∈ a.zones, ∀ y ∈ x.list, y.stamp < a.stamp) →
      p.stamp = a.stamp ∧ a'.stamp = a.stamp + 1 ∧ ∀ x ∈ a'.zones, ∀ y ∈ x.list, y.stamp < a'.stamp)
  ∧ ∀ s : State, (s.halted.isSome = true → s.passWaiting = s)
      ∧ ∀ (a b : Nat × Nat) (p q : PendSeg) (y : Zone), s.halted = none → a ≠ b →
          s.alloc.waiting = [.place a.1 a.2, .place b.1 b.2] → s.pendSeg a.1 a.2 = some p → s.pendSeg b.1 b.2 = some q →
          s.alloc.filling = some y → s.alloc.fifo = [] → (y.live ≠ 0 ∨ y.list ≠ []) → 4096 < y.fill + p.hdr.len →
          y.fill + q.hdr.len ≤ 4096 →
          s.passWaiting.alloc.waiting = [.place a.1 a.2] ∧ s.passWaiting.pendSeg a.1 a.2 = some p
          ∧ s.passWaiting.pendSeg b.1 b.2 = some { q with
              place := some { zone := y.zone, off := y.fill, len := q.hdr.len, stamp := s.alloc.stamp }
              hdr := { q.hdr with stamp := s.alloc.stamp } }

/-- The watchdog and the link (5.8, 5.10, 2.11). An expiry makes the request ABANDONED and sends an ABORT, and its user is told of a
TIMEOUT, which counts as a failure like any other: a settings, catalogue or journal write is asked for once more and then makes the
part HALTED; a segment's placement stays in its list as ABANDONED, its zone is ended and the segment is placed afresh with its retry
used; start-up's requests are made once more, and a second expiry of the CAPACITY request, of the settings block's read or of a
catalogue block's halts the part, while a block of a zone or of the ring is then left unread: it counts as not readable where its zone is
judged (what that does is said with start-up, 11.5), as invalid in the ring, and the next block is asked for, or the phase ends with
it (fetches, client ring reads and verifications: with their completions). A stopped watchdog, or one already run out, does nothing. A DOWN empties the request table, entry by entry: a disowned request is gone,
an ABANDONED one with its placement; a write waits again in its queue; an AHEAD fetch leaves the cache; start-up's requests are asked
for again. In HOLD mode demand fetches and ring reads are asked for again; in FAIL mode they end UNAVAILABLE, and so do the other
requests that wait for the store and the directives that wait for a settings or catalogue write; a demand fetch that is still queued
stays so (6.4). An UP lets the queues be granted again.
The requests that FAIL mode ends are the model's reading (log entry 16), as are the order in which it ends them (log entry 10), that
the mode at the DOWN decides for each of them (log entry 51), that a stranded write is not issued again (log entry 61), a HALTED
part's end of the wait for a write that does not go out (log entry 21), and that a watchdog that ends the CAPACITY request counts as
one of its two failures (log entry 11). -/
def Obligations.WatchdogAndLinkEndRequests : Prop :=
  (∀ (tag : Byte) (s : State), s.resetHeld = false →
    (s.entry tag.toNat = none → exec (.storeWatchdogExpiry tag) s = .next s)
    ∧ ∀ e, s.entry tag.toNat = some e →
        let row : Instr := .storeWatchdogExpiry tag
        let gone : State := { s with
          sent := s.sent ++ [.storeAbort tag.toNat]
          port := { s.port with table := s.port.table.map fun x =>
            if x.tag = tag.toNat then { x with abandoned := true } else x } }
        let asks (r : StoreReq) (u : State) : State := { u with port := { u.port with queue := u.port.queue ++ [r] } }
        let halts : Prop := ∃ t, exec row s = .next t ∧ t.halted = some .timeout ∧ t.startup = none
        (e.abandoned = true ∨ e.watchdog = 0 → exec row s = .next s)
        ∧ (e.abandoned = false → e.watchdog ≠ 0 →
            (∃ t, exec row s = .next t ∧ s.sent ++ [.storeAbort tag.toNat] <+: t.sent)
            ∧ (e.discard = true → exec row s = .next gone)
            ∧ (e.discard = false → s.halted = none → e.req.user = .settings → ∀ w, s.set.write = some w →
              (w.retryUsed = false → exec row s = .next (asks
                { cls := 1, user := .settings, op := .write, block := 0, count := 1, data := [w.bytes] }
                { gone with set := { s.set with write := some { w with retryUsed := true } } }))
              ∧ (w.retryUsed = true → exec row s
                = .next (State.doubleFault .timeout .settings 0 none none { gone with set := { s.set with write := none } })))
            ∧ (e.discard = false → s.halted = none → ∀ b, e.req.user = .catalogue b → ∀ w, s.catWrite b = some w →
              (w.retryUsed = false → exec row s = .next (asks
                { cls := 1, user := .catalogue b, op := .write, block := b, count := 1, data := [w.bytes] }
                { gone with set := { s.set with catWrites := s.set.catWrites.map fun x =>
                  if x.block = b then { x with retryUsed := true } else x } }))
              ∧ (w.retryUsed = true → exec row s = .next (State.doubleFault .timeout .catalogue b none none gone)))
            ∧ (e.discard = false → s.halted = none → ∀ ring, e.req.user = .journal ring →
              ∀ w, s.jr.writes.find? (fun x => x.ring == ring) = some w →
              (w.retryUsed = false → exec row s = .next (asks
                { cls := 1, user := .journal ring, op := .write, block := 4096 + ring, count := 1, data := [w.content] }
                { gone with jr := { s.jr with writes := s.jr.writes.map fun x =>
                  if x.ring = ring then { x with retryUsed := true } else x } }))
              ∧ (w.retryUsed = true → halts ∧ ((∀ x ∈ s.client.tags, x.wait ≠ .journalWrite ring) →
                let d := State.doubleFault .timeout .journal (4096 + ring) none none gone
                let failed := d.jr.writes.map fun x => if x.ring = ring then { x with failed := true } else x
                exec row s = .next { d with jr := { d.jr with writes := failed } })))
            ∧ (∀ z q p place, s.SegmentOut tag e z q p place → s.StampsFresh z q → s.alloc.waiting = [] → z.list = [q] →
              p.retryUsed = false → ∃ t, exec row s = .next t ∧ t.port.table = gone.port.table
                ∧ (∃ x ∈ t.alloc.zones, x.zone = z.zone ∧ { q with status := .abandoned } ∈ x.list ∧ (z.filling = true → 4096 ≤ x.fill))
                ∧ ∃ p', t.pendSeg q.serial q.index = some p' ∧ p'.retryUsed = true ∧ p'.failure = some (.timeout, place))
            ∧ (e.discard = false → e.req.user = .startup → ∀ u, s.startup = some u →
              (u.second = false → exec row s = .next (asks
                { cls := 2, user := .startup, op := .read, block := s.startBlock u, count := 1 }
                { gone with startup := some { u with second := true } }))
              ∧ (u.second = true → u.phase = .settings ∨ u.phase = .catalogue → halts)
              ∧ (u.second = true → u.phase = .scan →
                let i := u.pos % 4096
                let goes (y : Startup) : Prop := exec row s = .next (asks
                  { cls := 2, user := .startup, op := .read, block := (s.alloc.j + 1) * 4096 + (u.pos + 1), count := 1 }
                  { gone with startup := some { y with pos := u.pos + 1 } })
                (u.redo = none →
                  let y : Startup := { u with zoneBlocks := none :: u.zoneBlocks }
                  (i ≠ 4095 → goes { y with second := false }) ∧ (i = 4095 → exec row s = .next (gone.zoneRead y)))
                ∧ ∀ stop, u.redo = some stop →
                  let y : Startup := { u with zoneBlocks := u.zoneBlocks.set (4095 - i) none }
                  (i + 1 ≠ stop → goes y) ∧ (i + 1 = stop → exec row s = .next (gone.zoneRead { y with redo := none })))
              ∧ (u.second = true → u.phase = .journal →
                (u.pos + 1 ≠ s.ringLen → exec row s = .next (asks
                  { cls := 2, user := .startup, op := .read, block := 4096 + (u.pos + 1), count := 1 }
                  { gone with startup := some { u with pos := u.pos + 1, second := false } }))
                ∧ (u.pos + 1 = s.ringLen →
                  let set := (((gone.setJournal u).setChain).requeue u).setSerial u
                  let begun : State := { set with startup := some { u with phase := .finish, cut := set.ret.queue.any (·.cut) } }
                  let given := (set.vols.filter fun v => v.state = .opened ∨ v.state = .suspended ∨ v.state = .closing).foldl
                    (fun x v => giveContext u v x) begun
                  exec row s = .next (given.vols.foldl (fun x v => settleVolume u v x) given))))
            ∧ (e.discard = false → e.req.user = .capacity → ∀ u, s.startup = some u → u.phase = .capacity →
              (u.second = false → exec row s = .next { gone with startup := some { u with issued := false, second := true } })
              ∧ (u.second = true → halts))))
  ∧ (∀ s : State, s.resetHeld = false → s.set.work.linkLoss = .hold → s.halted = none →
      (∀ e ∈ s.port.table, e.req.op = .write ∧ e.abandoned = false ∧ e.discard = false) →
      exec .storeLinkDown s = .next { s with port := { up := false, reported := true, table := []
                                                       queue := s.port.queue ++ s.port.table.map (·.req) } })
  ∧ (∀ s : State, s.resetHeld = false → s.set.work.linkLoss = .fail → s.port.table = [] →
      ∃ t, exec .storeLinkDown s = .next t
        ∧ (∀ e ∈ s.client.tags, e.phase = .waitingCommit ∨ e.phase = .syncing
              ∨ (e.phase = .serving ∧ e.wait ≠ .idle ∧ (s.halted = none ∨ ∀ ring, e.wait ≠ .journalWrite ring)) →
            .completion e.tag .unavailable none 0 ∈ t.sent)
        ∧ ∀ r ∈ s.port.queue, (∃ n i, r.user = .fetch n i) → r ∈ t.port.queue)
  ∧ (∀ s : State, s.resetHeld = false →
      let told := s.port.table.foldl (fun u e => entryDown e u)
        { s with port := { s.port with up := false, reported := true, table := [] } }
      exec .storeLinkDown s = .next
        (if told.set.work.linkLoss = .fail then told.wakeHeldBack.failAtDown else told.wakeHeldBack))
  ∧ (∀ u : State, u.wakeHeldBack = { u with client := { u.client with tags := u.client.tags.map fun e => match e.wait with
      | .journalWrite ring =>
        if u.isHalted = true ∧ ∃ r ∈ u.port.queue, r.user = .journal ring then { e with wait := .idle } else e
      | _ => e } })
  ∧ (∀ u : State,
      let t := u.failAtDown
      let owed (x : SettingsUnit) (a : Nat) : Prop :=
        (∃ l : List SetWaiter, ((∃ w, x.write = some w ∧ l = w.waiters) ∨ x.gathered = some l)
          ∧ (.directive (some a) ∈ l ∨ ∃ r, .calendar (some a) r ∈ l))
        ∨ ∃ c ∈ x.catWrites, .resume (some a) ∈ c.waiters ∨ ∃ l, c.gathered = some l ∧ .resume (some a) ∈ l
      let waits (e : TagEntry) : Prop := e.phase = .waitingCommit ∨ e.phase = .syncing ∨ (e.phase = .serving ∧ e.wait ≠ .idle)
      (∀ a, owed u.set a → .completion a .unavailable none 0 ∈ t.sent) ∧ (∀ a, ¬owed t.set a)
      ∧ (∀ e ∈ u.client.tags, waits e → .completion e.tag .unavailable none 0 ∈ t.sent ∧ t.tag e.tag = none)
      ∧ ((u.client.tags.map (·.tag)).Nodup → ∀ e ∈ u.client.tags, ¬waits e → (e.phase = .directive → ¬owed u.set e.tag) →
          t.tag e.tag = some e)
      ∧ (∀ r ∈ u.port.queue, (∀ n i, r.user ≠ .journalRead n i) → r ∈ t.port.queue))
  ∧ (∀ (e : StoreEntry) (u : State),
      let asks (r : StoreReq) (x : State) : State := { x with port := { x.port with queue := x.port.queue ++ [r] } }
      (e.abandoned = true → (∀ n i x, e.req.user ≠ .segment n i x) → entryDown e u = u)
      ∧ (∀ n i stamp, e.abandoned = true → e.req.user = .segment n i stamp →
        (u.alloc.zoneOfStamp stamp = none → entryDown e u = u)
        ∧ ∀ z, u.alloc.zoneOfStamp stamp = some z → (∀ x ∈ u.alloc.zones, x.zone = z.zone → x = z) →
          let left := z.list.filter fun q => ¬(q.stamp = stamp ∧ q.status = .abandoned)
          (left ≠ [] ∨ z.live ≠ 0 → entryDown e u = { u with alloc := { u.alloc with
            zones := u.alloc.zones.map fun x => if x.zone = z.zone then { x with list := left } else x } })
          ∧ (left = [] → z.live = 0 → z.filling = false → u.alloc.waiting = [] → entryDown e u = { u with alloc := { u.alloc with
            zones := u.alloc.zones.filter (·.zone ≠ z.zone), fifo := u.alloc.fifo ++ [z.zone] } }))
      ∧ (e.abandoned = false → e.discard = true → entryDown e u = u)
      ∧ (e.abandoned = false → e.discard = false →
        (e.req.op = .write → entryDown e u = asks e.req u)
        ∧ (e.req.op = .read → ∀ n i c ahead first ws, e.req.user = .fetch n i → u.cached n i = some c →
          c.st = .fetching ahead first ws →
          let uncached : State := { u with rd := { u.rd with cache := u.rd.cache.filter fun y => ¬(y.serial = n ∧ y.index = i) } }
          (ahead = true → u.rd.roomWait = [] → entryDown e u = uncached)
          ∧ (ahead = false → u.set.work.linkLoss = .hold → entryDown e u = asks
            { cls := 2, user := .fetch n i, op := .read, block := c.entry.zone * 4096 + c.entry.off, count := c.entry.len } u)
          ∧ (ahead = false → u.set.work.linkLoss = .fail → u.rd.roomWait = [] →
            entryDown e u = ws.foldl (fun y t => y.complete t .unavailable none 0) uncached))
        ∧ (e.req.op = .read → ∀ t ring x r second, e.req.user = .journalRead t ring → u.tag t = some x →
          x.wait = .journalRead r second →
          (u.set.work.linkLoss = .hold → entryDown e u = asks
            { cls := 2, user := .journalRead t ring, op := .read, block := 4096 + ring, count := 1 } u)
          ∧ (u.set.work.linkLoss = .fail → entryDown e u = u.complete t .unavailable none 0))
        ∧ (e.req.op = .read → e.req.user = .startup → ∀ y, u.startup = some y → entryDown e u = asks
            { cls := 2, user := .startup, op := .read, block := u.startBlock y, count := 1 } u)
        ∧ (e.req.op ≠ .write → e.req.user = .capacity → ∀ y, u.startup = some y → y.phase = .capacity →
          entryDown e u = { u with startup := some { y with issued := false } })))
  ∧ ∀ s : State, s.resetHeld = false →
      exec .storeLinkUp s = .next { s with port := { s.port with up := true, reported := true } }

/-! ### Reading back -/

/-- SERVE_BLOCK sends the next block of a SERVING read from the region that holds it now (6.1, 6.2, 6.4): zeros where nothing stands; a pending
segment's, the open segment's or a HELD slot's block past the committed point; a READY cache entry's block; a demand fetch or a ring
block's read where it must be waited for; STORE_ERROR for a LOST range. The last block completes the read GOOD.
A demand fetch finds room in the cache by the loss of the least recent entry that is not FETCHING; where all are, the read waits. One that
meets an AHEAD fetch takes it over: it waits there, and a read still queued moves to the demand reads' tail. A GOOD completion with the last
block of a map entry asks ahead for the next entry, when read-ahead is on and that entry is neither LOST nor in the cache.
What FAIL mode and a lost journal write do to a read is the model's reading (log entries 16 and 21), and that in FAIL mode a read leaves
the AHEAD entry it meets as it is, its choice (log entry 63). -/
def Obligations.ReadsAreServedFromTheirRegion : Prop :=
  (∀ (v : Volume) (k block : Nat) (m : MapEntry) (u : State), v.map[k]? = some m →
    let asked (m' : MapEntry) (cache : List CacheEntry) : State := { u with
      rd := { u.rd with cache := { window := v.window, serial := v.serial, index := k + 1, entry := m'
                                   st := .fetching true none [] } :: cache }
      port := { u.port with queue := u.port.queue ++
        [{ cls := 4, user := .fetch v.serial (k + 1), op := .read, block := m'.zone * 4096 + m'.off, count := m'.len }] } }
    let wanted (m' : MapEntry) : Prop := u.set.work.readAhead = true ∧ block + 1 = m.first + m.count
      ∧ v.map[k + 1]? = some m' ∧ m'.kind ≠ .lost ∧ u.cached v.serial (k + 1) = none
    ((∀ m', ¬wanted m') → u.readAhead v k block = u)
    ∧ ∀ m', wanted m' →
      (u.rd.cache.length < 8 → u.readAhead v k block = asked m' u.rd.cache)
      ∧ (8 ≤ u.rd.cache.length → (∀ x ∈ u.rd.cache, x.isFetching = true) → u.readAhead v k block = u)
      ∧ ∀ pre x post, u.rd.cache = pre ++ x :: post → 8 ≤ u.rd.cache.length → x.isFetching = false →
          (∀ y ∈ post, y.isFetching = true) → u.readAhead v k block = asked m' (pre ++ post))
  ∧ ∀ (tag : Byte) (s : State) (e : TagEntry), s.resetHeld = false → s.tag tag.toNat = some e → e.phase = .serving → e.wait = .idle →
    let block := e.offset + e.done
    let given (b : Block) : State :=
      let u : State := { s with sent := s.sent ++ [.clientData tag.toNat e.done b] }
      if e.done + 1 = e.count then u.complete tag.toNat .good none 0
        else { u with client := { s.client with tags := s.client.tags.map fun x =>
          if x.tag = tag.toNat then { x with done := x.done + 1, wait := .idle } else x } }
    let gives (b : Block) : Prop := exec (.serveBlock tag) s = .next (given b)
    let fails : Prop := exec (.serveBlock tag) s = .next (s.complete tag.toNat .storeError none e.done)
    let waits (w : ReadWait) (u : State) : Prop :=
      exec (.serveBlock tag) s = .next { u with client := { s.client with tags := s.client.tags.map fun x =>
        if x.tag = tag.toNat then { x with wait := w } else x } }
    (e.serial = none → e.window ≠ 4095 → gives zeroBlock)
    ∧ (∀ n, e.serial = some n → s.volOf n = none → gives zeroBlock)
    ∧ (∀ n v, e.serial = some n → s.volOf n = some v →
        (∀ c, v.state ≠ .closed → v.state ≠ .expiring → s.ctx v.window = some c → c.committed ≤ block →
          (∀ p, s.pendCovering v.serial block = some p →
            (p.status = .marking ∨ p.hdr.kind = .lost → fails)
            ∧ (p.status ≠ .marking → p.hdr.kind ≠ .lost → gives (p.blocks.getD (block - p.hdr.first) zeroBlock)))
          ∧ (s.pendCovering v.serial block = none →
            (c.seg.first ≤ block → block < v.ingest → gives (c.openBlocks.getD (block - c.seg.first) zeroBlock))
            ∧ (v.ingest ≤ block → gives ((s.heldAt v.serial block).getD zeroBlock))))
        ∧ (v.state = .closed ∨ v.state = .expiring → v.ingest ≤ block → gives zeroBlock)
        ∧ (v.state = .closed ∨ v.state = .expiring → block < v.ingest →
            (∀ m ∈ v.map, ¬(m.first ≤ block ∧ block < m.first + m.count)) → fails)
        ∧ (((v.state = .closed ∨ v.state = .expiring) ∧ block < v.ingest)
              ∨ (v.state ≠ .closed ∧ v.state ≠ .expiring ∧ ∃ c, s.ctx v.window = some c ∧ block < c.committed) →
          ∀ k m, findEntry block 0 v.map = some (k, m) →
          let fetching (cache : List CacheEntry) : State := { s with
            rd := { s.rd with cache := { window := v.window, serial := v.serial, index := k, entry := m
                                         st := .fetching false none [tag.toNat] } :: cache }
            port := { s.port with queue := s.port.queue ++
              [{ cls := 2, user := .fetch v.serial k, op := .read, block := m.zone * 4096 + m.off, count := m.len }] } }
          (s.cached v.serial k = none → m.kind = .lost → fails)
          ∧ (s.cached v.serial k = none → m.kind ≠ .lost → s.lossFail = true →
              exec (.serveBlock tag) s = .next (s.complete tag.toNat .unavailable none 0))
          ∧ (s.cached v.serial k = none → m.kind ≠ .lost → s.lossFail = false → s.rd.cache.length < 8 →
              waits (.fetch v.serial k) (fetching s.rd.cache))
          ∧ (s.cached v.serial k = none → m.kind ≠ .lost → s.lossFail = false → 8 ≤ s.rd.cache.length →
              (∀ x ∈ s.rd.cache, ∃ ahead first ws, x.st = .fetching ahead first ws) →
              waits .room { s with rd := { s.rd with roomWait := s.rd.roomWait ++ [tag.toNat] } })
          ∧ (∀ pre x post, s.cached v.serial k = none → m.kind ≠ .lost → s.lossFail = false → 8 ≤ s.rd.cache.length →
              s.rd.cache = pre ++ x :: post → x.isFetching = false → (∀ y ∈ post, y.isFetching = true) →
              waits (.fetch v.serial k) (fetching (pre ++ post)))
          ∧ (∀ x ahead first ws, s.cached v.serial k = some x → x.st = .fetching ahead first ws → s.lossFail = true →
              exec (.serveBlock tag) s = .next (s.complete tag.toNat .unavailable none 0))
          ∧ (∀ x first ws, s.cached v.serial k = some x → x.st = .fetching true first ws → s.lossFail = false →
              let ahead (q : StoreReq) : Bool := isFetchOf v.serial k q.user && q.cls == 4
              waits (.fetch v.serial k) { s with
                rd := { s.rd with cache := s.rd.cache.map fun y =>
                  if y.serial = v.serial ∧ y.index = k then { y with st := .fetching false first (ws ++ [tag.toNat]) } else y }
                port := { s.port with queue := (s.port.queue.filter fun q => !ahead q)
                  ++ (s.port.queue.filter fun q => ahead q).map fun q => { q with cls := 2 } } })
          ∧ (∀ x first ws, s.cached v.serial k = some x → x.st = .fetching false first ws → s.lossFail = false →
              waits (.fetch v.serial k) { s with rd := { s.rd with cache := s.rd.cache.map fun y =>
                if y.serial = v.serial ∧ y.index = k then { y with st := .fetching false first (ws ++ [tag.toNat]) } else y } })
          ∧ (∀ x cls, s.cached v.serial k = some x → x.st = .failed cls → s.lossFail = false → s.rd.cache.length ≤ 8 →
              waits (.fetch v.serial k)
                (fetching (s.rd.cache.filter fun y => ¬(y.serial = v.serial ∧ y.index = k))))
          ∧ (∀ x blocks, s.cached v.serial k = some x → x.st = .ready blocks →
              let u : State := { s with
                sent := s.sent ++ [.clientData tag.toNat e.done (blocks.getD (block - m.first) zeroBlock)]
                rd := { s.rd with cache := x :: s.rd.cache.filter fun y => ¬(y.serial = v.serial ∧ y.index = k) } }
              exec (.serveBlock tag) s = .next
                (if e.done + 1 = e.count then State.readAhead v k block (u.complete tag.toNat .good none 0)
                  else { u with client := { s.client with tags := s.client.tags.map fun x =>
                    if x.tag = tag.toNat then { x with done := x.done + 1, wait := .idle } else x } }))))
    ∧ (e.serial = none → e.window = 4095 →
        (s.ringLen ≤ block → gives zeroBlock)
        ∧ (block < s.ringLen → block = s.headRing → s.jr.readPtr % s.ringLen ≠ block →
            gives (renderJournal s.jr.head s.jr.buf))
        ∧ (block < s.ringLen → block = s.headRing → s.jr.readPtr ≤ s.jr.head → s.jr.readPtr % s.ringLen = block →
            let u := given (renderJournal s.jr.head s.jr.buf)
            exec (.serveBlock tag) s = .next (State.drain { u with jr := { u.jr with readPtr := s.jr.readPtr + 1 } }))
        ∧ (block < s.ringLen → block ≠ s.headRing → ∀ w, s.jr.writes.find? (fun x => x.ring == block) = some w →
            let keeps : Prop := w.failed = true ∨ (s.halted.isSome = true ∧ ∃ r ∈ s.port.queue, r.user = .journal block)
            (keeps → s.jr.readPtr % s.ringLen ≠ block → gives (match w.gathered with
              | none => w.content
              | some g => g.1))
            ∧ (¬keeps → s.lossFail = true → exec (.serveBlock tag) s = .next (s.complete tag.toNat .unavailable none 0))
            ∧ (¬keeps → s.lossFail = false → waits (.journalWrite block) s))
        ∧ (block < s.ringLen → block ≠ s.headRing → (∀ w ∈ s.jr.writes, w.ring ≠ block) →
            (s.lossFail = true → exec (.serveBlock tag) s = .next (s.complete tag.toNat .unavailable none 0))
            ∧ (s.lossFail = false → waits (.journalRead block false) { s with port := { s.port with queue := s.port.queue ++
                [{ cls := 2, user := .journalRead tag.toNat block, op := .read, block := 4096 + block, count := 1 }] } })))

/-- The store's answer to a read (6.3, 6.4). A fetched segment that decodes becomes READY, and its waiter is sent its block; where a
MEDIUM or CHECK failure came before, STORE_FAULT is set and a FAULT entry RECOVERED appended. A failure is MEDIUM, CHECK where the
segment fetched does not decode, or TIMEOUT. A first failure asks once more; a second leaves the entry FAILED, or, with a waiter, the entry
goes and the read ends STORE_ERROR. After MEDIUM or CHECK that is damage: a CLOSED volume becomes DAMAGED, one that still waits in the
reclaim queue returns to CLOSED as DAMAGED, one that holds a context is marked to close DAMAGED; a FAULT entry is appended and
DAMAGE_FOUND set. A TIMEOUT records no damage. A ring block is sent and reported to the journal unit, which moves the read pointer when
it stands there; where the journal head has come to that ring block meanwhile the buffer is sent instead, and where a write of it
is out the read waits for that write (6.2, 6.1); its second failure ends the read STORE_ERROR, whatever the head has done (log entry 50).
Said of a part where no read waits for room. A FAULT entry's unused capture slots are zeros (log entry 55). -/
def Obligations.StoreReadsAreDelivered : Prop :=
  ∀ (tag : Byte) (field : BitVec 64) (s : State) (e : StoreEntry), s.Awaits tag e → e.req.op = .read →
    let freed : State := { s with port := { s.port with table := s.port.table.filter (·.tag ≠ tag.toNat) } }
    let gone : State := { s with
      sent := s.sent ++ [.storeAbort tag.toNat]
      port := { s.port with table := s.port.table.map fun x => if x.tag = tag.toNat then { x with abandoned := true } else x } }
    let asks (r : StoreReq) (u : State) : State := { u with port := { u.port with queue := u.port.queue ++ [r] } }
    (∀ serial index c ahead first ws, e.req.user = .fetch serial index →
      s.cached serial index = some c → c.st = .fetching ahead first ws → s.rd.roomWait = [] →
      let becomes (st : FetchState) (u : State) : State := { u with rd := { u.rd with cache := s.rd.cache.map fun x =>
        if x.serial = serial ∧ x.index = index then { x with st } else x } }
      let report (kind : Byte) (cls : FaultClass) (place : Option (List Byte)) (u : State) : State := u.append
        { code := 0x000C, forced := true
          body := [kind] ++ be 1 cls.code ++ optBytes 6 (some (be 2 c.window ++ be 4 serial))
            ++ optBytes 12 (some (be 4 index ++ be 4 c.entry.first ++ be 4 c.entry.count)) ++ optBytes 6 place ++ optBytes 6 none
            ++ [0] ++ zeros 39 ++ optBytes 5 none }
      let failed (cls : FaultClass) (row : Instr) (base : State) : Prop :=
        (cls = .medium ∧ base = freed ∧ ∃ status, (status ≠ 0 ∨ gather e.got e.req.count = none)
          ∧ row = .fetchCompletion tag status field)
        ∨ (cls = .check ∧ base = freed ∧ row = .fetchCompletion tag 0 field ∧ ∃ bs, gather e.got e.req.count = some bs
          ∧ decodeStored c.window serial index c.entry bs = none)
        ∨ (cls = .timeout ∧ base = gone ∧ row = .storeWatchdogExpiry tag ∧ e.watchdog ≠ 0)
      (∀ bs h blocks, gather e.got e.req.count = some bs → decodeStored c.window serial index c.entry bs = some (h, blocks) →
        (ws = [] → exec (.fetchCompletion tag 0 field) s = .next (becomes (.ready blocks) freed))
        ∧ (∀ t x, ws = [t] → s.tag t = some x →
            let block := x.offset + x.done
            let ready : State := becomes (.ready blocks) freed
            let recovers : Prop := ahead = false ∧ (first = some .medium ∨ first = some .check)
            ∀ u, (recovers → u = report 2 (first.getD .medium) none { ready with latched := { s.latched with storeFault := true } }) →
                (¬recovers → u = ready) →
              let given : State := { u with
                sent := u.sent ++ [.clientData t x.done (blocks.getD (block - c.entry.first) zeroBlock)]
                rd := { u.rd with cache := { c with st := .ready blocks } ::
                  s.rd.cache.filter fun y => ¬(y.serial = serial ∧ y.index = index) } }
              (x.done + 1 ≠ x.count → exec (.fetchCompletion tag 0 field) s = .next
                { given with client := { s.client with tags := s.client.tags.map fun y =>
                  if y.tag = t then { y with done := y.done + 1, wait := .idle } else y } })
              ∧ (x.done + 1 = x.count → s.volOf serial = none →
                  exec (.fetchCompletion tag 0 field) s = .next (given.complete t .good none 0))
              ∧ (x.done + 1 = x.count → ∀ v, s.volOf serial = some v →
                  exec (.fetchCompletion tag 0 field) s = .next (State.readAhead v index block (given.complete t .good none 0)))))
      ∧ (∀ cls row base, failed cls row base →
        (first = none → exec row s = .next (asks
          { cls := if ahead then 4 else 2, user := .fetch serial index, op := .read
            block := c.entry.zone * 4096 + c.entry.off, count := c.entry.len } (becomes (.fetching ahead (some cls) ws) base)))
        ∧ (first ≠ none → ahead = true ∨ ws = [] → exec row s = .next (becomes (.failed cls) base))
        ∧ (∀ t x, first ≠ none → ahead = false → ws = [t] → s.tag t = some x →
            let ended : State := State.complete t .storeError none x.done { base with rd := { s.rd with
              cache := s.rd.cache.filter fun y => ¬(y.serial = serial ∧ y.index = index) } }
            let ends (u : State) : Prop :=
              let y := report 3 cls (some (be 4 c.entry.zone ++ be 2 c.entry.off)) u
              exec row s = .next { y with latched := { y.latched with damageFound := true } }
            let queued : Prop := ∃ q ∈ s.ret.queue, q.window = c.window ∧ q.serial = serial
            (cls = .timeout → exec row s = .next ended)
            ∧ (cls ≠ .timeout → s.vol c.window = none → ends ended)
            ∧ (cls ≠ .timeout → ∀ v, s.vol c.window = some v →
              (v.serial ≠ serial → ends ended)
              ∧ (v.serial = serial →
                (v.state = .closed → v.audit = .damaged → ends ended)
                ∧ (v.state = .closed → v.audit ≠ .damaged → ends (State.callCatalogue c.window [] { ended with
                    vols := s.vols.map fun y => if y.window = c.window then { y with audit := .damaged, flags := none } else y }))
                ∧ (v.state = .opened ∨ v.state = .suspended ∨ v.state = .closing → ends { ended with
                    vols := s.vols.map fun y => if y.window = c.window then { y with markDamaged := true } else y })
                ∧ (v.state = .expiring → queued →
                    ends (ended.unexpire c.window serial fun y => { y with audit := .damaged, flags := none }))
                ∧ (v.state = .expiring → ¬queued → ends ended))))))
    ∧ (∀ t ring x second, e.req.user = .journalRead t ring → s.tag t = some x → x.wait = .journalRead ring second →
      (∀ b, e.req.count = 1 → e.got = [(0, b)] →
        let sends (b : Block) : Prop :=
          let given : State := { freed with sent := s.sent ++ [.clientData t x.done b] }
          exec (.journalReadCompletion tag 0 field) s = .next (State.advancePointer ring
            (if x.done + 1 = x.count then given.complete t .good none 0
              else { given with client := { s.client with tags := s.client.tags.map fun y =>
                if y.tag = t then { y with done := y.done + 1, wait := .idle } else y } }))
        (ring ≠ s.headRing → (∀ w ∈ s.jr.writes, w.ring ≠ ring) → sends b)
        ∧ (ring < s.ringLen → ring = s.headRing → sends (renderJournal s.jr.head s.jr.buf))
        ∧ (ring < s.ringLen → ring ≠ s.headRing → ∀ w, s.jr.writes.find? (fun y => y.ring == ring) = some w →
          (w.failed = true → w.gathered = none → sends w.content)
          ∧ (w.failed = false → s.halted = none → s.lossFail = false → exec (.journalReadCompletion tag 0 field) s = .next
            { freed with client := { s.client with tags := s.client.tags.map fun y =>
              if y.tag = t then { y with wait := .journalWrite ring } else y } })))
      ∧ ∀ row base, (base = freed ∧ ∃ status, status ≠ 0 ∧ row = .journalReadCompletion tag status field)
          ∨ (base = gone ∧ row = .storeWatchdogExpiry tag ∧ e.watchdog ≠ 0) →
        (second = false → exec row s = .next (asks
          { cls := 2, user := .journalRead t ring, op := .read, block := 4096 + ring, count := 1 }
          { base with client := { s.client with tags := s.client.tags.map fun y =>
            if y.tag = t then { y with wait := .journalRead ring true } else y } }))
        ∧ (second = true → exec row s = .next (base.complete t .storeError none x.done)))

/-! ### The journal -/

/-- An entry joins the journal (9.2): behind others that wait, while JOURNAL_FULL holds, or when a HALTED part would have to write a
block for it, it waits. From the complete block that start-up loaded also a HALTED part passes on, since that needs no write (the
model's reading, log entry 45). Else it takes the next sequence and the archive day and stands at the bytes used; an entry that does not fit
first passes the buffer to the next block, a FILLER where 16 bytes or more remain, and the block passed is written unless it was
complete. A forced entry has its block written, or gathered behind that block's write; not while the part is HALTED. With the
append its appender is released (9.3): a CLOSE entry makes its volume CLOSED and releases the context, a SWEEP entry ends the sweep,
a patrol's VERIFY entry its wait, another VERIFY entry the verification; the PURGE entry's forced write is awaited.
The wait list (9.3): a ring block read at the read pointer advances the pointer by one, and the waiting entries are then appended from
the list's head, one after the other, until the list is empty or its head must wait again. -/
def Obligations.EntriesJoinTheJournal : Prop :=
  ∀ (a : Append) (s : State),
    let entry := entryBytes a.code s.jr.nextSeq s.ret.day a.body
    let buf := s.jr.buf
    let used := 32 + buf.body.length
    let fitsIn (x : Append) : Prop := buf.complete = false ∧ used + entryLen x.body ≤ 4096
    let fits : Prop := fitsIn a
    let noWrite (x : Append) : Prop := buf.complete = true ∨ fitsIn x
    let placed : JournalBuffer := { buf with count := buf.count + 1, body := buf.body ++ entry }
    let fresh : JournalBuffer := { firstSeq := s.jr.nextSeq, count := 1, body := entry }
    let next := (s.jr.head + 1) % s.ringLen
    let ws : List JournalWaiter := if a.who = .purge then [.purge] else []
    let writes (ring : Nat) (content : Block) (ws : List JournalWaiter) (u : State) : State := { u with
      jr := { u.jr with writes := u.jr.writes ++ [{ ring, content, waiters := ws }] }
      port := { u.port with queue := u.port.queue ++
        [{ cls := 1, user := .journal ring, op := .write, block := 4096 + ring, count := 1, data := [content] }] } }
    let released (u : State) : State := match a.who with
      | .nobody => u
      | .purge => u
      | .supersede _ _ => u
      | .close w _ => { u with
          vols := u.vols.map fun x => if x.window = w then { x with state := .closed } else x
          ctxs := u.ctxs.filter (·.window ≠ w) }
      | .sweep => { u with ret := { u.ret with
          sweep := u.ret.sweepNext.map (fun r => { day := r.1, ref := r.2 }), sweepNext := none } }
      | .patrol => { u with audit := { u.audit with patrol := { u.audit.patrol with entryWaits := false } } }
      | .verification => { u with
          audit := { u.audit with current := none }
          vols := u.vols.map fun x => if (∃ c, u.audit.current = some c ∧ c.window = x.window ∧ c.serial = x.serial) then
            { x with verifying := false } else x }
    let here : State := { s with jr := { s.jr with nextSeq := s.jr.nextSeq + 1, buf := placed } }
    let passed : State := { s with jr := { s.jr with
      head := s.jr.head + 1, nextSeq := s.jr.nextSeq + 1, buf := fresh } }
    let last : JournalBuffer :=
      if 16 ≤ 4096 - used then { buf with body := buf.body ++ fillerBytes (4096 - used) s.ret.day } else buf
    (s.jr.waitList ≠ [] ∨ s.journalFull = true ∨ (s.isHalted = true ∧ ¬noWrite a) →
      s.append a = { s with jr := { s.jr with waitList := s.jr.waitList ++ [a] } })
    ∧ (s.jr.waitList = [] → s.journalFull = false →
      (fits → a.forced = false ∨ s.isHalted = true → s.append a = released here)
      ∧ (fits → a.forced = true → s.halted = none → (∀ w ∈ s.jr.writes, w.ring ≠ s.headRing) →
        s.append a = released (writes s.headRing (renderJournal s.jr.head placed) ws here))
      ∧ (fits → a.forced = true → s.halted = none → (∃ w ∈ s.jr.writes, w.ring = s.headRing) →
        s.append a = released { here with jr := { here.jr with writes := s.jr.writes.map fun w => if w.ring = s.headRing then
          { w with gathered := some (renderJournal s.jr.head placed, (w.gathered.map (·.2)).getD [] ++ ws) } else w } })
      ∧ (buf.complete = true → a.forced = false ∨ s.isHalted = true → s.append a = released passed)
      ∧ (buf.complete = true → a.forced = true → s.halted = none → (∀ w ∈ s.jr.writes, w.ring ≠ next) →
        s.append a = released (writes next (renderJournal (s.jr.head + 1) fresh) ws passed))
      ∧ (s.halted = none → ¬fits → buf.complete = false → (∀ w ∈ s.jr.writes, w.ring ≠ s.headRing ∧ w.ring ≠ next) →
        (a.forced = false → s.append a = released (writes s.headRing (renderJournal s.jr.head last) [] passed))
        ∧ (a.forced = true → 2 ≤ s.ringLen →
          s.append a = released (writes next (renderJournal (s.jr.head + 1) fresh) ws
            (writes s.headRing (renderJournal s.jr.head last) [] passed)))))
    ∧ (s.jr.waitList = [] ∨ s.journalFull = true → s.drain = s)
    ∧ (∀ x rest, s.jr.waitList = x :: rest → s.journalFull = false →
      (s.isHalted = true → ¬noWrite x → s.drain = s)
      ∧ (s.halted = none ∨ noWrite x →
        let t := State.append x { s with jr := { s.jr with waitList := [] } }
        s.drain = State.drain { t with jr := { t.jr with waitList := rest } }))
    ∧ ∀ ring,
      let advances : Prop := s.jr.readPtr ≤ s.jr.head ∧ s.jr.readPtr % s.ringLen = ring
      (advances → s.advancePointer ring = State.drain { s with jr := { s.jr with readPtr := s.jr.readPtr + 1 } })
      ∧ (¬advances → s.advancePointer ring = s)

/-! ### Closes, sweeps, reclaims -/

/-- Steps 2 to 4 of a close (1.6, 1.7, 8.1, 8.4, 8.5). Each of the ten flags is set exactly when its condition of 8.1 holds. The closes
that have reached step 2 are taken in the order in which they did.
The verdict gives the audit state, the flags, the totals, the digest and the next chain link, supersedes the lower generations of the
switch-day, and sets DISCREPANT_CLOSE; a higher generation supersedes the volume itself, unless it was superseded before. Then the
catalogue record is written CLOSED, after the close that holds the chain index before. Its completion appends the CLOSE entry, forced,
with the fields of 12.4, and the SUPERSEDE entries behind it; with the CLOSE entry the volume is CLOSED and its context released, and
while that entry waits the volume stays CLOSING. A HALTED part takes no step. The lower generations' entries come before the volume's own
by the model's choice (log entry 37); what a record holds before step 3 is log entry 38. -/
def Obligations.ClosesReachTheirVerdict : Prop :=
  (∀ (window : BitVec 12) (s : State), s.halted.isSome = true →
    exec (.closeVerdict window) s = .next s ∧ exec (.closeCatalogue window) s = .next s)
  ∧ (∀ (trailer : Option TrailerTotals) (k : Counts) (overflow : Bool) (day openedOn : Nat),
      let f := reconcileFlags trailer k overflow day openedOn
      (f.countDiff = true ↔ ∃ t, trailer = some t ∧ t.crcGood = true ∧ t.count ≠ k.calls)
      ∧ (f.durationDiff = true ↔ ∃ t, trailer = some t ∧ t.crcGood = true ∧ t.duration ≠ k.duration)
      ∧ (f.unitsDiff = true ↔ ∃ t, trailer = some t ∧ t.crcGood = true ∧ t.units ≠ k.units)
      ∧ (f.volumeDiff = true ↔ ∃ t, trailer = some t ∧ t.crcGood = true ∧ t.volume ≠ k.volume)
      ∧ (f.seqGaps = true ↔ 0 < k.gaps ∨ 0 < k.disorder)
      ∧ (f.badRecords = true ↔ 0 < k.bad)
      ∧ (f.unrated = true ↔ 0 < k.unrated)
      ∧ (f.totalOverflow = true ↔ overflow = true)
      ∧ (f.trailerBad = true ↔ ∃ t, trailer = some t ∧ t.crcGood = false)
      ∧ (f.futureDay = true ↔ openedOn + 1 < day)
      ∧ (f.any = true ↔ f.code ≠ 0))
  ∧ ∀ (window : BitVec 12) (s : State) (v : Volume) (c : Ctx) (k : Closing), s.resetHeld = false →
    s.halted = none → (s.vols.map (·.window)).Nodup → s.vol window.toNat = some v → s.ctx window.toNat = some c → c.close = some k →
    let flags := reconcileFlags c.trailer c.counts c.overflow v.day v.openedOn
    let audit : AuditState :=
      if (∃ m ∈ v.map, m.kind = .lost) ∨ v.markDamaged = true then .damaged
      else if c.framer = .raw then .unparsed
      else if c.framer ≠ .afterTrailer then .unterminated
      else if flags.any then .discrepant else .reconciled
    let link : ChainLink :=
      { index := s.audit.head.index + 1
        value := crc64 (be 8 s.audit.head.value.toNat ++ be 4 v.serial ++ be 2 v.source ++ be 2 v.day ++ be 1 v.gen
          ++ be 8 (~~~ c.digest).toNat) }
    let twin (u : Volume) : Prop := u.source = v.source ∧ u.day = v.day
    let day := s.ret.day
    let bound (u : Volume) : Nat := match u.expiry with
      | none => day + (s.classEntry u.cls).grace
      | some x => min x (day + (s.classEntry u.cls).grace)
    let body (u : Volume) (serial gen : Nat) : List Byte :=
      be 2 u.window ++ be 4 u.serial ++ be 1 u.gen ++ be 4 serial ++ be 1 gen ++ be 2 day ++ be 3 (bound u)
    let lower := s.vols.filter fun u => u.source = v.source ∧ u.day = v.day ∧ u.gen < v.gen ∧ u.supersededOn = none
    let closed : Volume := { v with
      audit, flags := if audit = .discrepant then some flags else none, trailer := c.trailer, counts := c.counts
      digest := some (~~~ c.digest), chain := some link }
    let verdict (own : Volume) (bodies : List (List Byte)) : Prop := ∃ t, exec (.closeVerdict window) s = .next t
      ∧ t.vol window.toNat = some own
      ∧ t.audit = { s.audit with head := link, closes := s.audit.closes.tail }
      ∧ t.latched = { s.latched with discrepantClose := s.latched.discrepantClose || audit == .discrepant }
      ∧ t.ctx window.toNat = some { c with close := some { k with stage := .catalogue, flags, supersedes := bodies } }
      ∧ (∀ u ∈ lower, t.vol u.window = some { u with supersededOn := some day, expiry := some (bound u) }
          ∧ ∃ w ∈ t.set.catWrites, w.block = 1 + u.window / 16)
      ∧ (∀ u ∈ s.vols, u.window ≠ window.toNat → u ∉ lower → t.vol u.window = some u)
    let earlier : Prop := ∃ d ∈ s.ctxs, d.window ≠ v.window ∧ d.close.isSome = true ∧ ∃ u, s.vol d.window = some u
      ∧ ∃ l, u.chain = some l ∧ l.index + 1 = (v.chain.getD {}).index
    let stage (x : CloseStage) : List Ctx := s.ctxs.map fun y =>
      if y.window = window.toNat then { y with close := some { k with stage := x } } else y
    let entry : Append :=
      { code := 0x0003, forced := true, who := .close window.toNat v.serial
        body := be 2 v.window ++ be 4 v.serial ++ be 2 v.source ++ be 2 v.day ++ be 1 v.gen ++ be 1 v.audit.code
          ++ be 2 k.flags.code
          ++ optBytes 23 (v.trailer.map fun x => be 4 x.count ++ be 6 x.duration ++ be 6 x.units ++ be 6 x.volume
              ++ [if x.crcGood then 1 else 0])
          ++ be 4 v.counts.calls ++ be 4 v.counts.gaps ++ be 4 v.counts.disorder ++ be 4 v.counts.bad ++ be 4 v.counts.unrated
          ++ be 6 v.counts.duration ++ be 6 v.counts.units ++ be 6 v.counts.volume ++ be 4 v.ingest ++ be 4 v.segments
          ++ be 4 k.discarded ++ be 8 (v.digest.getD 0).toNat ++ be 8 (v.chain.getD {}).index
          ++ be 8 (v.chain.getD {}).value.toNat ++ optBytes 4 (k.ref.map (be 4)) }
    (k.stage = .verdict → s.audit.closes.head? ≠ some window.toNat → exec (.closeVerdict window) s = .next s)
    ∧ (k.stage = .verdict → s.audit.closes.head? = some window.toNat →
        (v.supersededOn ≠ none ∨ (∀ u ∈ s.vols, twin u → u.gen ≤ v.gen) →
          verdict closed (lower.map fun u => body u v.serial v.gen))
        ∧ ∀ u ∈ s.vols, v.supersededOn = none → twin u → v.gen < u.gen →
            (∀ x ∈ s.vols, twin x → x ≠ u → x.gen < u.gen) →
            verdict { closed with supersededOn := some day, expiry := some (bound v) }
              ((lower.map fun u => body u v.serial v.gen) ++ [body v u.serial u.gen]))
    ∧ (k.stage = .catalogue → earlier → exec (.closeCatalogue window) s = .next s)
    ∧ (k.stage = .catalogue → ¬earlier → exec (.closeCatalogue window) s = .next
          (State.callCatalogue window.toNat [.closing window.toNat v.serial] { s with ctxs := stage .writing }))
    ∧ (k.stage = .writing → s.startup = none → ∀ tag field e b w, s.Awaits tag e → e.req.op = .write →
        e.req.user = .catalogue b → s.catWrite b = some w → w.gathered = none → w.waiters = [.closing window.toNat v.serial] →
        ∃ t, exec (.catalogueWriteCompletion tag 0 field) s = .next t
          ∧ t = k.supersedes.foldl
              (fun u b => u.append { code := 0x0004, body := b, who := .supersede window.toNat v.serial })
              (State.append entry { s with
                port := { s.port with table := s.port.table.filter (·.tag ≠ tag.toNat) }
                set := { s.set with catWrites := s.set.catWrites.filter (·.block ≠ b) }
                ctxs := stage .journal })
          ∧ (s.jr.waitList = [] → s.journalFull = false →
              t.vol window.toNat = some { v with state := .closed } ∧ t.ctx window.toNat = none)
          ∧ (s.jr.waitList ≠ [] ∨ s.journalFull = true →
              t.vol window.toNat = some v ∧ t.ctx window.toNat = some { c with close := some { k with stage := .journal } }))

/-- A sweep examines one window at a time (7.4): a FREE window or a volume that is not due only moves it on; a due one is counted as held,
verifying or blocked, in that order, or joins the reclaim queue as EXPIRING with its catalogue record rewritten. With window 4094,
whatever it holds, the sweep ends: it sets EXPIRY_BLOCKED if it counted one blocked, that window's volume with it, and appends its
SWEEP entry with the four counts. -/
def Obligations.SweepExaminesInWindowOrder : Prop :=
  ∀ (s : State) (w : Sweep), s.Runs → s.ret.sweep = some w →
    let moved (x : Sweep) (u : State) : State :=
      let y : State := { u with ret := { u.ret with sweep := some { x with next := w.next + 1 } } }
      if w.next = 4094 then
        State.append
          { code := 0x0006, who := .sweep
            body := be 2 w.day ++ be 4 w.ref ++ be 2 x.queued ++ be 2 x.held ++ be 2 x.blocked ++ be 2 x.verifying }
          { y with latched := { u.latched with expiryBlocked := u.latched.expiryBlocked || 0 < x.blocked } }
      else y
    let due (v : Volume) : Prop := v.state = .closed ∧ ∃ d, v.expiry = some d ∧ d ≤ w.day
    let held (v : Volume) : Prop := ∃ h ∈ s.ret.holds, (h.source = none ∨ h.source = some v.source)
      ∧ h.first ≤ v.day ∧ v.day ≤ h.last
    (w.next ≤ 4094 →
      (s.vol w.next = none → exec .sweepExamine s = .next (moved w s))
      ∧ ∀ v, s.vol w.next = some v →
          (¬due v → exec .sweepExamine s = .next (moved w s))
          ∧ (due v → held v → exec .sweepExamine s = .next (moved { w with held := w.held + 1 } s))
          ∧ (due v → ¬held v → v.verifyQueued = true ∨ v.verifying = true →
              exec .sweepExamine s = .next (moved { w with verifying := w.verifying + 1 } s))
          ∧ (due v → ¬held v → v.verifyQueued = false → v.verifying = false →
              (v.audit ≠ .reconciled → v.audit ≠ .accepted →
                exec .sweepExamine s = .next (moved { w with blocked := w.blocked + 1 } s))
              ∧ (v.audit = .reconciled ∨ v.audit = .accepted →
                let rewritten : State := State.callCatalogue w.next [.expiring w.next v.serial] { s with vols := s.vols.map fun x =>
                  if x.window = w.next then { x with state := .expiring } else x }
                exec .sweepExamine s = .next (moved { w with queued := w.queued + 1 }
                  { rewritten with ret := { s.ret with queue := s.ret.queue ++ [{ window := w.next, serial := v.serial }] } }))))
    ∧ (4094 < w.next → exec .sweepExamine s = .next s)

/-- A reclaim (7.6, 7.7): it begins for the head of the queue once its EXPIRING record is written, no client reads it, and it is still
due: no hold matches it, its audit state is RECONCILED or ACCEPTED, its expiry day has come, and no verification has it; a reclaim that
a reset cut is exempt from that (log entry 18). The volume is marked, its cache entries, reads and map are gone, its map entries are
free again, its lengths leave the live counts, one that was never added too (log entry 48), and what then holds nothing becomes FREE, the chain floor rises to its link when that is
higher, with a settings write handed over or gathered, and the PURGE entry is appended, forced. Once both the block that holds the PURGE
entry and that settings write have reached the store, whichever comes last, the catalogue record is rewritten as FREE; not in a HALTED
part. When its FREE record is written the window is FREE and the reclaim ends. Said of a part where nothing waits for room or places. -/
def Obligations.ReclaimsFreeTheirWindow : Prop :=
  (∀ (s : State) (q : Expiring) (rest : List Expiring) (v : Volume), s.Runs → s.ret.reclaim = none → s.ret.queue = q :: rest →
    s.vol q.window = some v → v.serial = q.serial →
    let due : Prop := (∀ h ∈ s.ret.holds, ¬((h.source = none ∨ h.source = some v.source) ∧ h.first ≤ v.day ∧ v.day ≤ h.last))
      ∧ (v.audit = .reconciled ∨ v.audit = .accepted) ∧ (∃ d, v.expiry = some d ∧ d ≤ s.ret.day)
      ∧ v.verifyQueued = false ∧ v.verifying = false
    let ready : Prop := q.written = true ∧ (∀ e ∈ s.client.tags, ¬(e.phase = .serving ∧ e.serial = some q.serial))
      ∧ (q.cut = true ∨ due)
    let left (x : Zone) : Nat := x.live - ((v.map.filter (·.zone = x.zone)).map (·.len)).sum
    (¬ready → exec .reclaimBegin s = .next s)
    ∧ (ready → s.rd.roomWait = [] → s.alloc.waiting = [] → ∃ t, exec .reclaimBegin s = .next t
          ∧ t.ret.queue = rest
          ∧ t.ret.reclaim = some { window := q.window, serial := q.serial
                                   floorDone := !decide (s.audit.floor.index < (v.chain.getD {}).index) }
          ∧ (s.audit.floor.index < (v.chain.getD {}).index →
              let w : SettingsWrite :=
                { settings := s.set.image, marker := s.set.imageMarker, day := s.ret.day, bytes := storedBlock t.stored
                  waiters := [.floor] }
              (s.set.write = none → t.set = { s.set with gathered := none, write := some w }
                ∧ { cls := 1, user := .settings, op := .write, block := 0, count := 1, data := [storedBlock t.stored] } ∈ t.port.queue)
              ∧ (s.set.write ≠ none → t.set = { s.set with gathered := some (s.set.gathered.getD [] ++ [.floor]) }))
          ∧ ((v.chain.getD {}).index ≤ s.audit.floor.index → t.set = s.set)
          ∧ t.vol q.window = some { v with reclaimBegun := true, map := [] }
          ∧ (∀ w, w ≠ q.window → t.vol w = s.vol w)
          ∧ t.alloc.mapFree = s.alloc.mapFree + v.map.length
          ∧ t.rd.cache = s.rd.cache.filter (·.serial ≠ v.serial)
          ∧ (∀ r ∈ t.port.queue, ∀ i, r.user ≠ .fetch v.serial i ∧ r.user ≠ .patrol v.serial i)
          ∧ ((s.alloc.zones.map (·.zone)).Nodup → ∀ x ∈ s.alloc.zones,
              (left x ≠ 0 ∨ x.list ≠ [] ∨ x.filling = true → { x with live := left x } ∈ t.alloc.zones)
              ∧ (left x = 0 → x.list = [] → x.filling = false → (∃ m ∈ v.map, m.zone = x.zone) →
                  x.zone ∈ t.alloc.fifo ∧ ∀ y ∈ t.alloc.zones, y.zone ≠ x.zone))
          ∧ t.jr = (s.append
              { code := 0x0007, forced := true, who := .purge
                body := be 2 v.window ++ be 4 v.serial ++ be 2 v.source ++ be 2 v.day ++ be 1 v.gen
                  ++ be 8 (v.digest.getD 0).toNat ++ be 8 (v.chain.getD {}).index ++ be 8 (v.chain.getD {}).value.toNat }).jr
          ∧ t.audit.floor = (if s.audit.floor.index < (v.chain.getD {}).index then v.chain.getD {} else s.audit.floor)))
  ∧ (∀ (day : Nat) (u : State) (r : Reclaim), u.ret.reclaim = some r →
      let marked (r : Reclaim) : State := { u with ret := { u.ret with reclaim := some r } }
      let frees (r : Reclaim) : State :=
        State.callCatalogue r.window [.free r.window r.serial] (marked { r with freeIssued := true })
      (r.purgeStored = false ∨ r.freeIssued = true ∨ u.isHalted = true →
        settingsWaiter day .floor u = marked { r with floorDone := true })
      ∧ (r.purgeStored = true → r.freeIssued = false → u.halted = none →
        settingsWaiter day .floor u = frees { r with floorDone := true })
      ∧ (r.floorDone = false ∨ r.freeIssued = true ∨ u.isHalted = true →
        journalWaiter .purge u = marked { r with purgeStored := true })
      ∧ (r.floorDone = true → r.freeIssued = false → u.halted = none →
        journalWaiter .purge u = frees { r with purgeStored := true }))
  ∧ (∀ (tag : Byte) (field : BitVec 64) (s : State) (e : StoreEntry), s.Awaits tag e → e.req.op = .write → s.startup = none →
      s.halted = none →
      let freed : State := { s with port := { s.port with table := s.port.table.filter (·.tag ≠ tag.toNat) } }
      (e.req.user = .settings → ∀ w, s.set.write = some w → w.waiters = [.floor] → s.set.gathered = none →
        w.settings.idleLimit ≠ 0 → w.settings.patrolRate ≠ 0 → s.set.work.patrolRate ≠ 0 →
        exec (.settingsWriteCompletion tag 0 field) s = .next (settingsWaiter w.day .floor
          { freed with set := { s.set with work := w.settings, workMarker := w.marker, write := none } }))
      ∧ ∀ ring, e.req.user = .journal ring → ∀ w, s.jr.writes.find? (fun x => x.ring == ring) = some w → w.gathered = none →
        w.waiters = [.purge] → (∀ x ∈ s.client.tags, x.wait ≠ .journalWrite ring) →
        exec (.journalWriteCompletion tag 0 field) s = .next (journalWaiter .purge
          { freed with jr := { s.jr with writes := s.jr.writes.filter (·.ring ≠ ring) } }))
  ∧ ∀ (tag : Byte) (field : BitVec 64) (s : State) (e : StoreEntry) (b : Nat) (w : CatWrite) (r : Reclaim),
      s.Awaits tag e → e.req.op = .write → s.startup = none → e.req.user = .catalogue b → s.catWrite b = some w →
      w.gathered = none → s.ret.reclaim = some r → w.waiters = [.free r.window r.serial] →
      exec (.catalogueWriteCompletion tag 0 field) s = .next { s with
        port := { s.port with table := s.port.table.filter (·.tag ≠ tag.toNat) }
        set := { s.set with catWrites := s.set.catWrites.filter (·.block ≠ b) }
        vols := s.vols.filter (·.window ≠ r.window)
        ret := { s.ret with reclaim := none } }

/-! ### Verification -/

/-- Verifications (8.6 to 8.8). A patrol turn verifies the segment under the cursor, or moves on to the next CLOSED volume, the first
above the cursor, else the lowest, the cursor's own window last (how the patrol moves on is the model's reading, log entry 19). It
does nothing in a part that does not run, before its timer has run out or at rate 0, and while a verification or its entry is out or
one is queued. The verify queue's head is taken up with its first segment. A LOST segment gives
LOST at once; a volume without a segment is VERIFIED against the digest 0, or a MISMATCH; any other segment is read. A read is clean
whose blocks run the digest register to the value that the segment's header carries, and, for the last segment, to the recorded
digest: it moves the verification on, and after the last segment the volume is VERIFIED; a clean second attempt after MEDIUM or CHECK
sets STORE_FAULT and appends a FAULT entry RECOVERED. Else the verdict is MISMATCH. A first failure of the read, MEDIUM, CHECK or
TIMEOUT, asks once more; the second gives DAMAGED, after a TIMEOUT INCOMPLETE; the store link's DOWN gives INCOMPLETE. DAMAGED and
MISMATCH make a CLOSED volume DAMAGED and set DAMAGE_FOUND. A verdict appends its VERIFY entry. In a HALTED part a read that ends
changes nothing, and a patrol read whose volume is no longer there is discarded (reads that wait at a halt: log entry 59). A FAULT
entry's unused capture slots are zeros (log entry 55). -/
def Obligations.VerificationsFollowTheDigest : Prop :=
  (∀ (w serial clean : Nat) (ref : Option Nat) (d : Verdict) (failing : Option (Nat × FaultClass)) (u : State) (v : Volume),
    u.vol w = some v → v.serial = serial →
    let code : Nat := match d with
      | .verified => 0
      | .damaged => 1
      | .mismatch => 2
      | .lost => 3
      | .incomplete => 4
    let ends (x : State) (audit : AuditState) : Prop := u.endVerification w serial ref d clean failing = x.append
      { code := 0x000B, who := if ref = none then .patrol else .verification
        body := be 2 w ++ be 4 serial ++ [if ref = none then 0 else 1] ++ be 4 (ref.getD 0) ++ be 1 code ++ be 4 clean
          ++ optBytes 5 (failing.map fun p => be 4 p.1 ++ be 1 p.2.code) ++ be 1 audit.code }
    let found (x : State) : State := { x with latched := { u.latched with damageFound := true } }
    let bad : Prop := d = .damaged ∨ d = .mismatch
    (bad → v.state = .closed → v.audit = .damaged → ends (found u) .damaged)
    ∧ (bad → v.state = .closed → v.audit ≠ .damaged → ends (found (State.callCatalogue w []
        { u with vols := u.vols.map fun x => if x.window = w then { x with audit := .damaged, flags := none } else x })) .damaged)
    ∧ (¬bad ∨ v.state ≠ .closed → ends u v.audit))
  ∧ (∀ s : State, s.patrolReady = true ↔ s.Runs ∧ s.audit.patrol.timer = true ∧ s.audit.patrol.active = none
      ∧ s.audit.patrol.entryWaits = false ∧ s.audit.current = none ∧ s.audit.queue = [])
  ∧ (∀ s : State, s.patrolReady = false → exec .patrolTurn s = .next s)
  ∧ (∀ (w : Nat) (s : State), (s.nextClosed w = none ↔ ∀ v ∈ s.vols, v.state ≠ .closed)
      ∧ ∀ v, s.nextClosed w = some v → v.state = .closed ∧ v ∈ s.vols
        ∧ ((w < v.window ∧ ∀ x ∈ s.vols, x.state = .closed → w < x.window → v.window ≤ x.window)
          ∨ ∀ x ∈ s.vols, x.state = .closed → x.window ≤ w ∧ v.window ≤ x.window))
  ∧ (∀ s : State, s.patrolReady = true →
    let p := s.audit.patrol
    let takes (serial index : Nat) (digest : BitVec 64) (o : Option MapEntry) (q : Patrol) : Prop :=
      let judged (d : Verdict) (failing : Option (Nat × FaultClass)) (t : State) : Prop :=
        t = State.endVerification q.window serial none d index failing { s with audit := { s.audit with patrol :=
          { q with active := none, entryWaits := true, serial := if d = .verified then q.serial else none } } }
      ∃ t, exec .patrolTurn s = .next t ∧ match o with
        | none => if digest = 0 then judged .verified none t else judged .mismatch (some (0, .mismatch)) t
        | some m => if m.kind = .lost then judged .lost (some (index, .lost)) t else
          t = { s with
            audit := { s.audit with patrol := { q with active := some none } }
            port := { s.port with queue := s.port.queue ++
              [{ cls := 5, user := .patrol serial index, op := .read, block := m.zone * 4096 + m.off, count := m.len }] } }
    (∀ v m, s.vol p.window = some v → v.state = .closed → p.serial = some v.serial → v.map[p.index]? = some m →
      takes v.serial p.index 0 (some m) p)
    ∧ ((∀ v, s.vol p.window = some v → v.state ≠ .closed ∨ p.serial ≠ some v.serial ∨ v.map.length ≤ p.index) →
        (s.nextClosed p.window = none → exec .patrolTurn s = .next { s with audit := { s.audit with
          patrol := { p with index := 0, serial := none, reg := BitVec.allOnes 64 } } })
        ∧ ∀ v, s.nextClosed p.window = some v → takes v.serial 0 (v.digest.getD 0) v.map[0]?
          { p with window := v.window, index := 0, serial := some v.serial, reg := BitVec.allOnes 64 }))
  ∧ (∀ (s : State) (q : VerifyItem) (rest : List VerifyItem) (v : Volume), s.Runs → s.audit.current = none →
      s.audit.queue = q :: rest → s.vol q.window = some v → v.serial = q.serial →
      let c : Verification := { window := q.window, serial := q.serial, ref := q.ref }
      let begun (c : Verification) : State := { s with
        vols := s.vols.map fun x =>
          if x.window = q.window then { x with verifyQueued := false, verifying := true } else x
        audit := { s.audit with queue := rest, current := some c } }
      let judged (d : Verdict) (failing : Option (Nat × FaultClass)) : Prop := exec .queueVerificationBegin s = .next
        (State.endVerification q.window q.serial (some q.ref) d 0 failing (begun { c with entryWaits := true }))
      (∀ m, v.map[0]? = some m → m.kind ≠ .lost → exec .queueVerificationBegin s = .next { begun c with
        port := { s.port with queue := s.port.queue ++
          [{ cls := 5, user := .queueVerify q.serial 0, op := .read, block := m.zone * 4096 + m.off, count := m.len }] } })
      ∧ (∀ m, v.map[0]? = some m → m.kind = .lost → judged .lost (some (0, .lost)))
      ∧ (v.map = [] → v.digest.getD 0 = 0 → judged .verified none)
      ∧ (v.map = [] → v.digest.getD 0 ≠ 0 → judged .mismatch (some (0, .mismatch))))
  ∧ (∀ (tag : Byte) (field : BitVec 64) (s : State) (e : StoreEntry) (v : Volume) (m : MapEntry) (index : Nat), s.Awaits tag e →
      s.halted = none → e.req.op = .read → v.map[index]? = some m →
      let freed : State := { s with port := { s.port with table := s.port.table.filter (·.tag ≠ tag.toNat) } }
      let gone : State := { s with
        sent := s.sent ++ [.storeAbort tag.toNat]
        port := { s.port with table := s.port.table.map fun x => if x.tag = tag.toNat then { x with abandoned := true } else x } }
      let again (user : StoreUser) (u : State) : State := { u with port := { u.port with queue := u.port.queue ++
        [{ cls := 5, user, op := .read, block := m.zone * 4096 + m.off, count := m.len }] } }
      let row : Instr := .verificationReadCompletion tag 0 field
      let read (h : SegHeader) (blocks : List Block) : Prop := ∃ bs, gather e.got e.req.count = some bs
        ∧ decodeStored v.window v.serial index m bs = some (h, blocks)
      let failed (cls : FaultClass) (row : Instr) (base : State) : Prop :=
        (cls = .medium ∧ base = freed ∧ ∃ status, (status ≠ 0 ∨ gather e.got e.req.count = none)
          ∧ row = .verificationReadCompletion tag status field)
        ∨ (cls = .check ∧ base = freed ∧ row = .verificationReadCompletion tag 0 field ∧ ∃ bs,
          gather e.got e.req.count = some bs ∧ decodeStored v.window v.serial index m bs = none)
        ∨ (cls = .timeout ∧ base = gone ∧ row = .storeWatchdogExpiry tag ∧ e.watchdog ≠ 0)
      let second (cls : FaultClass) : Verdict := if cls = .timeout then .incomplete else .damaged
      let clean (reg : BitVec 64) (h : SegHeader) (blocks : List Block) : Prop := crc64Run reg blocks.flatten = h.run.digest
        ∧ (index + 1 = v.map.length → ~~~ h.run.digest = v.digest.getD 0)
      let recovered (first : Option FaultClass) : State := if first = some .medium ∨ first = some .check then
        State.append
          { code := 0x000C, forced := true
            body := [2] ++ be 1 (first.getD .medium).code ++ optBytes 6 (some (be 2 v.window ++ be 4 v.serial))
              ++ optBytes 12 (some (be 4 index ++ be 4 m.first ++ be 4 m.count)) ++ optBytes 6 none ++ optBytes 6 none
              ++ [0] ++ zeros 39 ++ optBytes 5 none }
          { freed with latched := { s.latched with storeFault := true } }
        else freed
      (∀ first, let p := s.audit.patrol
        e.req.user = .patrol v.serial index → p.index = index → s.vol p.window = some v → v.state = .closed →
        p.serial = some v.serial → p.active = some first →
        let turned (q : Patrol) (u : State) : State := { u with audit := { s.audit with patrol := q } }
        let judged (d : Verdict) (n : Nat) (failing : Option (Nat × FaultClass)) (q : Patrol) (u : State) : State :=
          State.endVerification p.window v.serial none d n failing (turned
            { q with active := none, entryWaits := true, serial := if d = .verified then q.serial else none } u)
        (∀ h blocks, read h blocks →
          let on : Patrol := { p with active := none, index := index + 1, reg := h.run.digest }
          (clean p.reg h blocks → index + 1 < v.map.length → exec row s = .next (turned on (recovered first)))
          ∧ (clean p.reg h blocks → index + 1 = v.map.length →
              exec row s = .next (judged .verified (index + 1) none on (recovered first)))
          ∧ (¬clean p.reg h blocks → exec row s = .next (judged .mismatch index (some (index, .mismatch)) p freed)))
        ∧ (∀ cls row base, failed cls row base →
          (first = none → exec row s = .next (again (.patrol v.serial index) (turned { p with active := some (some cls) } base)))
          ∧ (first ≠ none → exec row s = .next (judged (second cls) index (some (index, cls)) p base)))
        ∧ entryDown e s = judged .incomplete index (some (index, .linkDown)) p s)
      ∧ ∀ c, s.audit.current = some c → e.req.user = .queueVerify v.serial index → c.index = index → c.serial = v.serial →
        s.vol c.window = some v → c.entryWaits = false →
        let turned (x : Verification) (u : State) : State := { u with audit := { s.audit with current := some x } }
        let judged (d : Verdict) (n : Nat) (failing : Option (Nat × FaultClass)) (x : Verification) (u : State) : State :=
          State.endVerification c.window c.serial (some c.ref) d n failing (turned { x with entryWaits := true } u)
        (∀ h blocks, read h blocks →
          let on : Verification := { c with index := index + 1, reg := h.run.digest, firstFail := none }
          let u := recovered c.firstFail
          (clean c.reg h blocks → index + 1 = v.map.length → exec row s = .next (judged .verified (index + 1) none on u))
          ∧ (clean c.reg h blocks → ∀ m', v.map[index + 1]? = some m' →
            (m'.kind = .lost → exec row s = .next (judged .lost (index + 1) (some (index + 1, .lost)) on u))
            ∧ (m'.kind ≠ .lost →
              let x := turned on u
              exec row s = .next { x with port := { x.port with queue := x.port.queue ++
                [{ cls := 5, user := .queueVerify v.serial (index + 1), op := .read, block := m'.zone * 4096 + m'.off
                   count := m'.len }] } }))
          ∧ (¬clean c.reg h blocks → exec row s = .next (judged .mismatch index (some (index, .mismatch)) c freed)))
        ∧ (∀ cls row base, failed cls row base →
          (c.firstFail = none →
            exec row s = .next (again (.queueVerify v.serial index) (turned { c with firstFail := some cls } base)))
          ∧ (c.firstFail ≠ none → exec row s = .next (judged (second cls) index (some (index, cls)) c base)))
        ∧ entryDown e s = judged .incomplete index (some (index, .linkDown)) c s)
  ∧ ∀ (tag status : Byte) (field : BitVec 64) (s : State) (e : StoreEntry) (serial index : Nat), s.Awaits tag e →
      let freed : State := { s with port := { s.port with table := s.port.table.filter (·.tag ≠ tag.toNat) } }
      let row : Instr := .verificationReadCompletion tag status field
      let p := s.audit.patrol
      (s.isHalted = true → e.req.user = .patrol serial index ∨ e.req.user = .queueVerify serial index → exec row s = .next freed)
      ∧ (s.halted = none → e.req.user = .patrol serial index → p.active.isSome = true → p.serial = some serial → p.index = index →
          (∀ v, s.vol p.window = some v → v.state ≠ .closed ∨ v.serial ≠ serial) →
          exec row s = .next { freed with audit := { s.audit with patrol := { p with active := none, serial := none } } })

/-! ### Start-up -/

/-- Start-up (11.5): the CAPACITY request goes out once the link is UP, its answer gives the zone count and begins the settings read;
a failure is asked for again once, and the second makes the part HALTED. A valid settings block loads every owner, an invalid one has
the store formatted, with R159's fresh values and every record FREE; a store without room for the journal and two data zones is
GEOMETRY, a blank one before any write. The catalogue, the data zones and the ring
are read block by block (log entry 11), a block of a zone or of the ring that fails twice counting as not readable, and a segment that
fails its checks being asked for once more before its zone is scanned. The maps are the
segments kept, index by index and block by block, the highest stamp of each; the zone table, the FIFO, the stamp counter and map
memory follow from them; the chain head is the highest link above the floor; EXPIRING volumes are requeued, cut ones first; the serial
counter passes every serial seen. An OPEN, SUSPENDED or CLOSING volume gets the lowest context, restored from its last kept segment,
its record without a verdict (log entry 38). Of a trailer whose bytes are lost the totals that the record holds stand (log entry 12).
By the resume rules it closes, resumes or is suspended; a CLOSED volume short of its final block count gets a LOST marker (whose lead,
tail, records, run and map entry are the model's reading, log entry 22), DAMAGED, a FAULT entry and DAMAGE_FOUND. START_ENTRY appends
START, loads the idle timers and the patrol's, and begins a cut reclaim. What it waits for is the model's choice (log entries 18 and
24), and so are the store tag of the CAPACITY request (log entry 10), the class of start-up's requests and which blocks are asked for
again (log entry 11), records behind a lost RAW segment (log entry 57), the abandoned count of a volume behind a LOST marker with
trailer-seen (log entry 65), and the zeros of a FAULT entry's unused capture slots (log entry 55). -/
def Obligations.StartUpRunsItsPhases : Prop :=
  (∀ (s : State) (u : Startup) (t : Nat), s.resetHeld = false → s.startup = some u → u.phase = .capacity → u.issued = false →
    (s.port.up = false → exec .startupCapacity s = .next s)
    ∧ (s.port.up = true → t ≤ 15 → (∀ e ∈ s.port.table, e.tag ≠ t) → (∀ n, n < t → ∃ e ∈ s.port.table, e.tag = n) →
        exec .startupCapacity s = .next { s with
          startup := some { u with issued := true }
          port := { s.port with table := s.port.table ++
            [{ tag := t, req := { cls := 2, user := .capacity, op := .capacity, block := 0, count := 0 }
               watchdog := s.set.work.storeTimeout }] }
          sent := s.sent ++ [.storeRequest t .capacity 0 0] }))
  ∧ (∀ (tag : Byte) (field : BitVec 64) (s : State) (e : StoreEntry) (u : Startup), s.Awaits tag e → s.startup = some u →
      let freed : State := { s with port := { s.port with table := s.port.table.filter (·.tag ≠ tag.toNat) } }
      let reads (block : Nat) (x : State) (y : Startup) : State := { x with
        startup := some y
        port := { freed.port with queue := s.port.queue ++
          [{ cls := 2, user := .startup, op := .read, block, count := 1 }] } }
      let halts (c : Instr) (cls : FaultClass) : Prop := ∃ t, exec c s = .next t ∧ t.halted = some cls ∧ t.startup = none
      (e.req.user = .capacity → u.phase = .capacity →
        exec (.capacityCompletion tag 0 field) s = .next
          (reads 0 { freed with alloc := { s.alloc with zoneCount := min (field.toNat / 4096) 262144 } }
            { u with phase := .settings, second := false, pos := 0 })
        ∧ ∀ status, status ≠ 0 →
            (u.second = false → exec (.capacityCompletion tag status field) s = .next
              { freed with startup := some { u with issued := false, second := true } })
            ∧ (u.second = true → halts (.capacityCompletion tag status field) .medium))
      ∧ (e.req.user = .startup → e.req.op = .read → e.req.count = 1 →
        (∀ status, status ≠ 0 → u.second = false → exec (.startupReadCompletion tag status field) s = .next
          (reads (s.startBlock u) freed { u with second := true }))
        ∧ (∀ status, status ≠ 0 → u.second = true → u.phase = .settings ∨ u.phase = .catalogue →
            halts (.startupReadCompletion tag status field) .medium)
        ∧ ∀ b, e.got = [(0, b)] →
            (u.phase = .settings → ∀ x, parseStored b = some x →
              (s.alloc.zoneCount < x.j + 3 → halts (.startupReadCompletion tag 0 field) .geometry)
              ∧ (x.j + 3 ≤ s.alloc.zoneCount → exec (.startupReadCompletion tag 0 field) s = .next
                (reads 1 { freed with
                    set := { s.set with
                      work := x.settings, workMarker := x.marker, image := x.settings, imageMarker := x.marker }
                    ret := { s.ret with day := x.day, table := x.table, holds := x.holds }
                    tariff := { bank0 := x.bank0, bank1 := x.bank1, active := x.active }
                    audit := { s.audit with floor := x.floor }
                    serialCounter := x.serial
                    alloc := { s.alloc with j := x.j }
                    jr := { s.jr with readPtr := x.readPtr } }
                  { u with phase := .catalogue, pos := 0, second := false })))
            ∧ (u.phase = .settings → parseStored b = none → s.alloc.zoneCount < s.straps + 3 →
                ∃ t, exec (.startupReadCompletion tag 0 field) s = .next t ∧ t.halted = some .geometry ∧ t.startup = none
                  ∧ ∀ r ∈ t.port.queue, r ∈ s.port.queue)
            ∧ (u.phase = .settings → parseStored b = none → s.straps + 3 ≤ s.alloc.zoneCount → s.halted = none →
                s.set.write = none → s.set.catWrites = [] → ∃ t, exec (.startupReadCompletion tag 0 field) s = .next t
                  ∧ t.startup = some { u with phase := .format, formatted := true, second := false }
                  ∧ t.alloc = { s.alloc with j := s.straps }
                  ∧ (let fresh : Settings :=
                      { mode := .posted, policy := .preserve, idleLimit := 30, idleUnit := .minutes, storeTimeout := 250
                        linkLoss := .hold, spaceLow := 64, journalHigh := 32, maskLevel := 0, patrolRate := 4, readAhead := true }
                    let block := storedBlock
                      { settings := fresh, marker := freshMarker, day := 0
                        table := List.replicate 8 { days := 0, grace := 3650, choice := .resume }
                        bank0 := List.replicate 64 ⟨0, 0, 0, 0⟩, bank1 := List.replicate 64 ⟨0, 0, 0, 0⟩, active := 0, holds := []
                        floor := { index := 0, value := 0 }, serial := 1, j := s.straps, readPtr := 0 }
                    t.set.write = some { settings := fresh, marker := freshMarker, day := 0, bytes := block, waiters := [.format] }
                    ∧ { cls := 1, user := .settings, op := .write, block := 0, count := 1, data := [block] } ∈ t.port.queue)
                  ∧ t.set.catWrites.map (·.block) = (List.range 256).map (· + 1)
                  ∧ ∀ x ∈ t.set.catWrites,
                    { cls := 1, user := .catalogue x.block, op := .write, block := x.block, count := 1, data := [x.bytes] }
                      ∈ t.port.queue
                    ∧ ∀ k, k < 16 → 16 * (x.block - 1) + k ≠ 4095 → slice x.bytes (256 * k) 256 = catRecordBytes none)
            ∧ (u.phase = .catalogue → u.pos < 255 → exec (.startupReadCompletion tag 0 field) s = .next
                (reads (2 + u.pos) { freed with vols := s.vols ++ catalogueRecords 16 (16 * u.pos) b }
                  { u with pos := u.pos + 1, second := false }))
            ∧ (u.phase = .catalogue → u.pos = 255 → exec (.startupReadCompletion tag 0 field) s = .next
                (reads ((s.alloc.j + 1) * 4096) { freed with vols := s.vols ++ catalogueRecords 16 4080 b }
                  { u with phase := .scan, pos := 0, second := false })))
      ∧ (e.req.user = .startup → e.req.op = .read → e.req.count = 1 → ∀ (status : Byte) (got : Option Block),
          (status = 0 ∧ ∃ b, e.got = [(0, b)] ∧ got = some b) ∨ (status ≠ 0 ∧ u.second = true ∧ got = none) →
          (u.phase = .scan →
            let i := u.pos % 4096
            let goes (y : Startup) : Prop := exec (.startupReadCompletion tag status field) s = .next
              (reads ((s.alloc.j + 1) * 4096 + (u.pos + 1)) freed { y with pos := u.pos + 1 })
            let judges (y : Startup) : Prop := exec (.startupReadCompletion tag status field) s = .next (freed.zoneRead y)
            (u.redo = none →
              let y : Startup := { u with zoneBlocks := got :: u.zoneBlocks }
              (i ≠ 4095 → goes { y with second := false }) ∧ (i = 4095 → judges y))
            ∧ ∀ stop, u.redo = some stop →
              let y : Startup := { u with zoneBlocks := u.zoneBlocks.set (4095 - i) got }
              (i + 1 ≠ stop → goes y) ∧ (i + 1 = stop → judges { y with redo := none }))
          ∧ (u.phase = .journal →
            let y := u.takeRing s.ringLen got
            (u.pos + 1 ≠ s.ringLen → exec (.startupReadCompletion tag status field) s = .next
              (reads (4096 + (u.pos + 1)) freed { y with pos := u.pos + 1, second := false }))
            ∧ (u.pos + 1 = s.ringLen →
              let set := ((({ freed with startup := some y }.setJournal y).setChain).requeue y).setSerial y
              let begun : State :=
                { set with startup := some { y with phase := .finish, cut := set.ret.queue.any (·.cut) } }
              let given := (set.vols.filter fun v => v.state = .opened ∨ v.state = .suspended ∨ v.state = .closing).foldl
                (fun x v => giveContext y v x) begun
              exec (.startupReadCompletion tag status field) s
                = .next (given.vols.foldl (fun x v => settleVolume y v x) given)))))
  ∧ (∀ (u : Startup) (s : State), u.phase = .scan →
      let reads (block : Nat) (x : State) (y : Startup) : State := { x with
        startup := some y
        port := { s.port with queue := s.port.queue ++ [{ cls := 2, user := .startup, op := .read, block, count := 1 }] } }
      let bs := u.zoneBlocks.reverse
      let zone := u.pos / 4096
      let bad (off n : Nat) : Prop := (scanKept 0 4096 0 bs).2 ≤ off ∧ off < 4096 ∧ off ∉ u.checked
        ∧ segmentCheck (4096 - off) (bs.drop off) = some n
      let y : Startup := { u.scanZone (s.alloc.j + 1 + zone) bs with checked := [], second := false }
      (∀ off n, bad off n → (∀ o m, o < off → ¬bad o m) →
        s.zoneRead u = reads ((s.alloc.j + 1) * 4096 + (zone * 4096 + off)) s
          { u with pos := zone * 4096 + off, second := true, checked := off :: u.checked, redo := some (off + n) })
      ∧ ((∀ off n, ¬bad off n) →
        ((zone + 1) * 4096 ≠ (s.alloc.zoneCount - s.alloc.j - 1) * 4096 →
          s.zoneRead u = reads ((s.alloc.j + 1) * 4096 + (zone + 1) * 4096) s { y with pos := (zone + 1) * 4096 })
        ∧ ((zone + 1) * 4096 = (s.alloc.zoneCount - s.alloc.j - 1) * 4096 →
          s.zoneRead u = reads 4096 (s.rebuildMaps y) { y with phase := .journal, pos := 0 })))
  ∧ (∀ (room n : Nat) (bs : List (Option Block)), segmentCheck room bs = some n ↔
      ∃ b rest, bs = some b :: rest ∧ fld b 0 8 = Config.segmentMarker.toNat ∧ segmentAt room bs = none
        ∧ ((∃ h, parseHeader b = some h ∧ h.len ≤ room ∧ n = h.len ∧ (blockBytes h.len bs).isSome = true)
          ∨ ((∀ h, parseHeader b = some h → room < h.len) ∧ n = 1)))
  ∧ (∀ (u : Startup) (v : Volume),
      let l := u.kept v
      let of (f : Found) (i : Nat) : Prop := f ∈ u.found ∧ f.hdr.window = v.window ∧ f.hdr.serial = v.serial ∧ f.hdr.index = i
      let start (i : Nat) : Nat := ((l.take i).map (·.hdr.count)).sum
      (∀ i f, l[i]? = some f → of f i ∧ f.hdr.first = start i ∧ ∀ g, of g i → g.hdr.stamp ≤ f.hdr.stamp)
      ∧ ∀ f, of f l.length → f.hdr.first = start l.length → ∃ g, of g l.length ∧ f.hdr.stamp ≤ g.hdr.stamp ∧ g.hdr.first ≠ start l.length)
  ∧ (∀ (u : Startup) (s : State),
      let t := s.rebuildMaps u
      let lies (z : Nat) : List MapEntry := (t.vols.flatMap (·.map)).filter (·.zone = z)
      let filling := (u.top.map (·.2)).getD (s.alloc.j + 1)
      let zone (z : Nat) (f : Bool) : Zone := { zone := z, filling := f, fill := ((u.ends.find? (·.1 = z)).map (·.2)).getD 0
                                                live := ((lies z).map (·.len)).sum }
      t = { s with vols := t.vols, alloc := t.alloc }
      ∧ t.vols = (s.vols.map fun v => { v with segments := (u.kept v).length, map := (u.kept v).map fun f =>
          { first := f.hdr.first, count := f.hdr.count, zone := f.zone, off := f.off, len := f.hdr.len, kind := f.hdr.kind
            lead := f.hdr.lead, tail := f.hdr.tail, recs := f.hdr.recs } })
      ∧ t.alloc = { s.alloc with
          ready := true, zones := t.alloc.zones, fifo := t.alloc.fifo, stamp := (u.top.map (·.1 + 1)).getD 1
          mapFree := 4194304 - (t.vols.flatMap (·.map)).length }
      ∧ t.alloc.fifo.Pairwise (· < ·)
      ∧ (∀ z ∈ t.alloc.fifo, s.alloc.j + 1 ≤ z ∧ z < s.alloc.zoneCount)
      ∧ ∀ z, s.alloc.j + 1 ≤ z → z < s.alloc.zoneCount →
          (z = filling → t.alloc.zone z = some (zone z true) ∧ z ∉ t.alloc.fifo)
          ∧ (z ≠ filling → lies z ≠ [] → t.alloc.zone z = some (zone z false) ∧ z ∉ t.alloc.fifo)
          ∧ (z ≠ filling → lies z = [] → t.alloc.zone z = none ∧ z ∈ t.alloc.fifo))
  ∧ (∀ (u : Startup) (s : State),
      let cut (v : Volume) : Bool := (v.map.getLast?.map fun e => e.first + e.count).getD 0 < v.ingest || u.purged.contains v.serial
      let seen := s.vols.foldl (fun m v => max m v.serial) u.maxSerial
      (∃ l, s.setChain = { s with audit := { s.audit with head := l } }
        ∧ (∀ v ∈ s.vols, ∀ x, v.chain = some x → x.index ≤ l.index)
        ∧ (l = s.audit.floor ∨ (s.audit.floor.index < l.index ∧ ∃ v ∈ s.vols, v.chain = some l)))
      ∧ (∃ a b, s.vols.filter (fun v => v.state == .expiring && cut v) = a
        ∧ s.vols.filter (fun v => v.state == .expiring && !cut v) = b
        ∧ s.requeue u = { s with ret := { s.ret with
            queue := (a.map fun v => { window := v.window, serial := v.serial, written := true, cut := true })
              ++ b.map fun v => { window := v.window, serial := v.serial, written := true } } })
      ∧ s.setSerial u = { s with serialCounter :=
          if s.serialCounter = 0 ∨ 4294967295 < max s.serialCounter (seen + 1) then 0 else max s.serialCounter (seen + 1) })
  ∧ (∀ (u : Startup) (v : Volume) (s : State) (n : Nat), n < 32 → (∀ d ∈ s.ctxs, d.num ≠ n) →
      (∀ m, m < n → ∃ d ∈ s.ctxs, d.num = m) →
      let l := u.kept v
      let fresh : Ctx := { num := n, window := v.window, serial := v.serial, bank := v.bank, reference := zeroRecord
                           seg := { index := 0, first := 0 } }
      let gives (c : Ctx) : Prop := giveContext u v s = { s with
        ctxs := s.ctxs ++ [c]
        vols := s.vols.map fun x => if x.window = v.window then
          { x with ingest := c.committed, trailer := c.trailer, audit := .pending, flags := none, counts := {}, digest := none
                   chain := none } else x }
      (l = [] → gives fresh)
      ∧ ∀ f, l.getLast? = some f →
          let framer : FramerState :=
            if f.hdr.kind = .raw then .raw else if f.hdr.run.trailerSeen = true then .afterTrailer else .inCalls
          let k := f.hdr.run.counts
          let restored (trailer : Option TrailerTotals) : Ctx := { fresh with
            framer, headerTaken := true, carry := if framer = .inCalls then f.tail else [], lastSeq := f.hdr.run.lastSeq, counts := k
            overflow := k.duration == 2 ^ 48 - 1 || k.units == 2 ^ 48 - 1 || k.volume == 2 ^ 48 - 1
            digest := f.hdr.run.digest, bank := f.hdr.run.bank, trailer
            seg := { index := l.length, first := f.hdr.first + f.hdr.count, kind := if framer = .raw then .raw else .coded }
            next := l.length, committed := f.hdr.first + f.hdr.count }
          (framer ≠ .afterTrailer → gives (restored none))
          ∧ (framer = .afterTrailer → f.hdr.kind ≠ .lost → 0 < f.hdr.recs → gives (restored (some (trailerTotals f.last))))
          ∧ (framer = .afterTrailer → f.hdr.kind ≠ .lost → f.hdr.recs = 0 → ∀ p, l.dropLast.getLast? = some p → p.hdr.kind ≠ .lost →
              gives (restored (some (trailerTotals (p.tail ++ f.lead)))))
          ∧ (framer = .afterTrailer →
              f.hdr.kind = .lost ∨ (f.hdr.recs = 0 ∧ ∃ p, l.dropLast.getLast? = some p ∧ p.hdr.kind = .lost) →
              (∀ t, v.trailer = some t → gives (restored (some t)))
              ∧ (v.trailer = none → ∃ t, gives (restored (some t))))
          ∧ (framer = .afterTrailer → f.hdr.kind ≠ .lost → f.hdr.recs = 0 → l.dropLast = [] →
              gives (restored (some (trailerTotals f.lead)))))
  ∧ (∀ (u y : Startup) (v : Volume) (s : State), s.startup = some y →
      let l := u.kept v
      let last := (v.map.getLast?.map fun e => e.first + e.count).getD 0
      (v.state = .suspended ∨ v.state = .expiring ∨ (v.state = .closed ∧ v.ingest ≤ last) → settleVolume u v s = s)
      ∧ (∀ c, v.state = .opened ∨ v.state = .closing → s.ctx v.window = some c →
          let closes (x : State) : State := State.framerStop v.window (if v.state = .opened then
            x.enterClosing v.window .segments none
            else { x with ctxs := x.ctxs.map fun d =>
              if d.window = v.window then { d with close := some { stage := .segments } } else d })
          let turned (st : LifeState) : State := State.callCatalogue v.window []
            { s with vols := s.vols.map fun x => if x.window = v.window then { x with state := st } else x }
          let counted (y' : Startup) (x : State) : State := { x with startup := some y' }
          let name := be 2 v.window ++ be 4 v.serial ++ be 4 c.committed
          let abandons : Prop := settleVolume u v s = (closes s).modStartup fun z => { z with abandoned := z.abandoned + 1 }
          let resumes : Prop := settleVolume u v s = counted { y with resumed := y.resumed + 1 }
            (State.append { code := 0x000D, body := optBytes 4 none ++ name } (if v.state = .closing then turned .opened else s))
          let preserves : Prop := settleVolume u v s = counted { y with suspended := y.suspended + 1 }
            (State.append { code := 0x000E, body := name } (turned .suspended))
          let lostTail : Prop := ∃ f, l.getLast? = some f ∧ f.hdr.kind = .lost ∧ 0 < f.hdr.tail
          let seen : Prop := ∃ f, l.getLast? = some f ∧ f.hdr.run.trailerSeen = true
          let choice := (s.ret.table.getD v.cls {}).choice
          (lostTail → abandons)
          ∧ (¬lostTail → seen → settleVolume u v s = closes s)
          ∧ (¬lostTail → ¬seen →
              (s.set.work.policy = .abandon ∨ (s.set.work.policy = .byClass ∧ choice = .abandon) → abandons)
              ∧ (s.set.work.policy = .resume ∨ (s.set.work.policy = .byClass ∧ choice = .resume) → resumes)
              ∧ (s.set.work.policy = .preserve → preserves)))
      ∧ (v.state = .closed → last < v.ingest → s.alloc.waiting = [] → (∀ p ∈ s.pend, p.hdr.serial ≠ v.serial) →
          let marker : SegHeader :=
            { window := v.window, serial := v.serial, index := l.length, first := last, count := v.ingest - last, kind := .lost, lead := 0
              tail := 0, recs := 0, payloadLen := 0, stamp := 0, run := (l.getLast?.map (·.hdr.run)).getD { bank := v.bank } }
          let t := settleVolume u v s
          t.startup = some { y with rebuilt := true } ∧ t.latched = { s.latched with damageFound := true }
          ∧ t.vols = (s.vols.map fun x => if x.window = v.window then { x with audit := .damaged, flags := none } else x)
          ∧ (∃ w ∈ t.set.catWrites, w.block = 1 + v.window / 16)
          ∧ t.alloc.mapFree = s.alloc.mapFree - 1
          ∧ (∃ p n, t.pend = s.pend ++ [p] ∧ p.hdr = { marker with stamp := n } ∧ p.status = .marking ∧ p.payload = []
              ∧ p.retryUsed = false)
          ∧ (s.halted = none → ∀ z, s.alloc.filling = some z → z.fill + 1 ≤ 4096 → ∃ r ∈ t.port.queue,
              r = { cls := 3, user := .segment v.serial l.length s.alloc.stamp, op := .write, block := z.zone * 4096 + z.fill, count := 1
                    data := segmentBlocks { marker with stamp := s.alloc.stamp } [] })
          ∧ t.jr = (s.append { code := 0x000C, forced := true
                               body := [5, 2] ++ optBytes 6 (some (be 2 v.window ++ be 4 v.serial))
                                 ++ optBytes 12 (some (be 4 l.length ++ be 4 last ++ be 4 (v.ingest - last)))
                                 ++ optBytes 6 none ++ optBytes 6 none ++ [0] ++ zeros 39 ++ optBytes 5 none }).jr))
  ∧ ∀ (s : State) (u : Startup), s.resetHeld = false → s.startup = some u → u.phase = .finish →
      let behind (c : Ctx) : Prop := ∃ v, s.vol c.window = some v ∧ ∃ d ∈ s.ctxs, d.window ≠ v.window ∧ d.close.isSome = true
        ∧ ∃ x, s.vol d.window = some x ∧ ∃ l, x.chain = some l ∧ l.index + 1 = (v.chain.getD {}).index
      let settled : Prop := s.set.write = none ∧ s.set.gathered = none ∧ s.set.catWrites = [] ∧ s.pend = []
        ∧ ∀ c ∈ s.ctxs, ∀ k, c.close = some k → k.stage = .journal ∨ (k.stage = .catalogue ∧ behind c)
      (¬settled → exec .startEntry s = .next s)
      ∧ (settled → (∀ q ∈ s.ret.queue, q.cut = false) → ∃ t, exec .startEntry s = .next t ∧ t.startup = none
          ∧ t.audit.patrol = { s.audit.patrol with timer := decide (0 < s.set.work.patrolRate) }
          ∧ t.jr = (s.append
              { code := 0x0001, forced := true
                body := [(if u.formatted then 1 else 0) + (if u.rebuilt then 2 else 0) + (if u.cut then 4 else 0)]
                  ++ be 8 s.audit.head.index ++ be 8 s.audit.head.value.toNat ++ be 4 s.alloc.fifo.length ++ be 2 u.resumed
                  ++ be 2 u.suspended ++ be 2 u.abandoned }).jr
          ∧ t.vols = s.vols
          ∧ t.ctxs = s.ctxs.map fun x => if (∃ v ∈ s.vols, v.window = x.window ∧ v.state = .opened) then
              { x with idle := s.set.work.idleLoad } else x)
      ∧ (settled → s.rd.roomWait = [] → s.alloc.waiting = [] → s.ret.reclaim = none → ∀ q rest v, s.ret.queue = q :: rest →
          q.cut = true → s.vol q.window = some v → v.serial = q.serial → ∃ t, exec .startEntry s = .next t ∧ t.startup = none
            ∧ t.ret.queue = rest ∧ t.vol q.window = some { v with reclaimBegun := true, map := [] }
            ∧ ∃ r, t.ret.reclaim = some r ∧ r.window = q.window ∧ r.serial = q.serial)
end

