-- ==== Sys2Proof/Laws/Bytes.lean ====
section
/-! SUPPORT. Lengths and values of the byte operations: a number written as bytes reads back, and a directive block's check is the
comparison of two numbers. -/

namespace Sys2Proof.Machine

@[simp] theorem length_be (n v : Nat) : (be n v).length = n := by
  induction n with
  | zero => rfl
  | succ n ih => simp [be, ih]

@[simp] theorem length_zeros (n : Nat) : (zeros n).length = n := List.length_replicate

theorem length_padTo (n : Nat) (bs : List Byte) (h : bs.length ≤ n) : (padTo n bs).length = n := by
  simp [padTo]; omega

theorem ofBE_foldl (bs : List Byte) (a : Nat) :
    bs.foldl (fun (a : Nat) (b : Byte) => a * 256 + b.toNat) a = a * 256 ^ bs.length + ofBE bs := by
  induction bs generalizing a with
  | nil => simp [ofBE]
  | cons b bs ih =>
    simp only [List.foldl_cons, List.length_cons, ofBE]
    rw [ih, ih (0 * 256 + b.toNat)]
    ring

theorem ofBE_cons (b : Byte) (bs : List Byte) : ofBE (b :: bs) = b.toNat * 256 ^ bs.length + ofBE bs := by
  simp only [ofBE, List.foldl_cons]
  rw [ofBE_foldl]
  simp [ofBE]

/-- A number written as bytes reads back, without the bits above them (4.2). -/
theorem ofBE_be (n v : Nat) : ofBE (be n v) = v % 256 ^ n := by
  induction n with
  | zero => simp [be, ofBE, Nat.mod_one]
  | succ n ih =>
    have h8 : v >>> (8 * n) = v / 256 ^ n := by rw [Nat.shiftRight_eq_div_pow, Nat.pow_mul]
    have hm : v % 256 ^ (n + 1) = v % 256 ^ n + 256 ^ n * (v / 256 ^ n % 256) := Nat.mod_mul
    rw [be, ofBE_cons, ih, length_be, BitVec.toNat_ofNat, h8, hm, Nat.mul_comm, Nat.add_comm]

/-- A field that stands between two known runs of bytes. -/
theorem fld_append (a b c : List Byte) : fld (a ++ b ++ c) a.length b.length = ofBE b := by
  simp [fld, slice]

/-- The check of a block: its CRC-32 against the number in its last four bytes (R152). -/
theorem directiveCheckGood_append (bytes : List Byte) (h : bytes.length = 4092) (n : Nat) :
    directiveCheckGood (bytes ++ be 4 n) = ((crc32 bytes).toNat == n % 2 ^ 32) := by
  have h1 : (bytes ++ be 4 n).take 4092 = bytes := by rw [← h]; simp
  have h2 : fld (bytes ++ be 4 n) 4092 4 = n % 2 ^ 32 := by
    have := fld_append bytes (be 4 n) []
    rw [List.append_nil, h, length_be, ofBE_be] at this
    exact this
  rw [directiveCheckGood, h1, h2]

end Sys2Proof.Machine
end

