-- ==== Sys2Proof/Laws/Keeps.lean ====
section
/-! SUPPORT. The outline of a state: the queue, the messages sent, the pins, HALTED, the latched items and the sizes of the
bounded tables. Most operations leave it as it is; the others change it only in ways that `Keeps` allows. -/

namespace Sys2Proof.Machine

/-! ### The outline -/

/-- The parts of a state that the whole-machine laws speak of. -/
structure Outline where
  pending : List Instr
  sent : List Msg
  resetHeld : Bool
  halted : Option FaultClass
  latched : Latched
  tags : List Nat
  slots : Nat
  storeTags : List Nat
  cache : Nat
  bank0 : Nat
  bank1 : Nat
  classes : Nat
  holds : Nat
  verifyQueue : Nat

/-- The outline of a state. -/
def State.outline (s : State) : Outline where
  pending := s.pending
  sent := s.sent
  resetHeld := s.resetHeld
  halted := s.halted
  latched := s.latched
  tags := s.client.tags.map (·.tag)
  slots := s.client.slots.length
  storeTags := s.port.table.map (·.tag)
  cache := s.rd.cache.length
  bank0 := s.tariff.bank0.length
  bank1 := s.tariff.bank1.length
  classes := s.ret.table.length
  holds := s.ret.holds.length
  verifyQueue := s.audit.queue.length

/-- The limits of the tables, said of an outline. -/
structure Outline.Ok (o : Outline) : Prop where
  tagRange : ∀ t ∈ o.tags, t ≤ 31
  tagsOnce : o.tags.Nodup
  slots : o.slots ≤ 256
  storeRange : ∀ t ∈ o.storeTags, t ≤ 15
  storeOnce : o.storeTags.Nodup
  cache : o.cache ≤ 8
  bank0 : o.bank0 = 64
  bank1 : o.bank1 = 64
  classes : o.classes = 8
  holds : o.holds ≤ 64
  verifyQueue : o.verifyQueue ≤ 16

/-- The limits of the tables hold of a state exactly when they hold of its outline. -/
theorem capacities_iff (s : State) : s.Capacities ↔ s.outline.Ok := by
  constructor
  · intro h
    exact ⟨by simpa [State.outline] using h.tagRange, h.tagsOnce, h.slots, by simpa [State.outline] using h.storeRange,
      h.storeOnce, h.cache, h.bank0, h.bank1, h.classes, h.holds, h.verifyQueue⟩
  · intro h
    exact ⟨by simpa [State.outline] using h.tagRange, h.tagsOnce, h.slots, by simpa [State.outline] using h.storeRange,
      h.storeOnce, h.cache, h.bank0, h.bank1, h.classes, h.holds, h.verifyQueue⟩

/-- What a change of state keeps: the queue, the pins and a halt; latched items stay set; the messages sent stay sent, no
store REQUEST is added; the limits of the tables still hold. -/
structure Keeps (s t : State) : Prop where
  pending : t.pending = s.pending
  resetHeld : t.resetHeld = s.resetHeld
  halted : s.isHalted = true → t.isHalted = true
  latched : s.latched.le t.latched
  sent : ∃ ms, t.sent = s.sent ++ ms ∧ ∀ m ∈ ms, m.isStoreRequest = false
  ok : s.outline.Ok → t.outline.Ok

theorem Latched.le_refl (a : Latched) : a.le a := ⟨id, id, id, id, id⟩

theorem Latched.le_trans {a b c : Latched} (h : a.le b) (k : b.le c) : a.le c :=
  ⟨k.1 ∘ h.1, k.2.1 ∘ h.2.1, k.2.2.1 ∘ h.2.2.1, k.2.2.2.1 ∘ h.2.2.2.1, k.2.2.2.2 ∘ h.2.2.2.2⟩

theorem Keeps.refl (s : State) : Keeps s s :=
  ⟨rfl, rfl, id, s.latched.le_refl, ⟨[], by simp, by simp⟩, id⟩

theorem Keeps.trans {s t u : State} (h : Keeps s t) (k : Keeps t u) : Keeps s u := by
  obtain ⟨ms, h1, h2⟩ := h.sent
  obtain ⟨ns, k1, k2⟩ := k.sent
  refine ⟨k.pending.trans h.pending, k.resetHeld.trans h.resetHeld, k.halted ∘ h.halted,
    Latched.le_trans h.latched k.latched, ⟨ms ++ ns, by simp [k1, h1], ?_⟩, fun o => k.ok (h.ok o)⟩
  intro m hm
  rcases List.mem_append.mp hm with hm | hm
  · exact h2 m hm
  · exact k2 m hm

/-- A change that leaves the outline as it is keeps everything. -/
theorem Keeps.of_outline {s t : State} (h : t.outline = s.outline) : Keeps s t :=
  ⟨congrArg Outline.pending h, congrArg Outline.resetHeld h,
    fun hs => (congrArg (fun o : Outline => o.halted.isSome) h).trans hs,
    (show t.latched = s.latched from congrArg Outline.latched h) ▸ s.latched.le_refl,
    ⟨[], (show t.sent = s.sent from congrArg Outline.sent h).trans (by simp), by simp⟩, fun o => h ▸ o⟩

theorem Keeps.ite {s a b : State} {p : Prop} [Decidable p] (ha : Keeps s a) (hb : Keeps s b) :
    Keeps s (if p then a else b) := by
  split
  · exact ha
  · exact hb

/-- A list of changes each of which leaves the outline as it is. -/
theorem outline_each {α : Type} {f : α → State → State} (h : ∀ x s, (f x s).outline = s.outline) (xs : List α) (s : State) :
    (each f xs s).outline = s.outline := by
  induction xs generalizing s with
  | nil => rfl
  | cons x xs ih => simp [each, ih, h]

/-- A list of changes each of which keeps. -/
theorem keeps_each {α : Type} {f : α → State → State} (h : ∀ x s, Keeps s (f x s)) (xs : List α) (s : State) :
    Keeps s (each f xs s) := by
  induction xs generalizing s with
  | nil => exact Keeps.refl s
  | cons x xs ih => exact (h x s).trans (ih _)

/-! ### The shared operations (Ops) -/

@[simp] theorem outline_modVol (w : Nat) (f : Volume → Volume) (s : State) : (s.modVol w f).outline = s.outline := rfl
@[simp] theorem outline_addVol (v : Volume) (s : State) : (s.addVol v).outline = s.outline := rfl
@[simp] theorem outline_dropVol (w : Nat) (s : State) : (s.dropVol w).outline = s.outline := rfl
@[simp] theorem outline_modCtx (w : Nat) (f : Ctx → Ctx) (s : State) : (s.modCtx w f).outline = s.outline := rfl
@[simp] theorem outline_dropCtx (w : Nat) (s : State) : (s.dropCtx w).outline = s.outline := rfl
@[simp] theorem outline_modPend (n i : Nat) (f : PendSeg → PendSeg) (s : State) : (s.modPend n i f).outline = s.outline := rfl
@[simp] theorem outline_dropPend (n i : Nat) (s : State) : (s.dropPend n i).outline = s.outline := rfl
@[simp] theorem outline_enqueue (r : StoreReq) (s : State) : (s.enqueue r).outline = s.outline := rfl
@[simp] theorem outline_withdraw (p : StoreUser → Bool) (s : State) : (s.withdraw p).outline = s.outline := rfl
@[simp] theorem outline_muteWaiters (s : State) : s.muteWaiters.outline = s.outline := rfl
@[simp] theorem outline_muteDirectives (s : State) : s.muteDirectives.outline = s.outline := rfl

@[simp] theorem outline_disown (p : StoreUser → Bool) (s : State) : (s.disown p).outline = s.outline := by
  simp only [State.disown, State.outline, List.map_map]
  congr 1
  apply List.map_congr_left
  intro e _
  simp only [Function.comp_apply]
  split <;> rfl

/-- A change of a tag table entry that keeps its tag leaves the outline as it is. -/
theorem outline_modTag {f : TagEntry → TagEntry} (h : ∀ e, (f e).tag = e.tag) (t : Nat) (s : State) :
    (s.modTag t f).outline = s.outline := by
  simp only [State.modTag, State.outline, List.map_map]
  congr 1
  apply List.map_congr_left
  intro e _
  simp only [Function.comp_apply]
  split
  · exact h e
  · rfl

/-- A message other than a store REQUEST may be sent. -/
theorem keeps_send {m : Msg} (h : m.isStoreRequest = false) (s : State) : Keeps s (s.send m) :=
  ⟨rfl, rfl, id, s.latched.le_refl, ⟨[m], rfl, by simpa using h⟩, fun o => ⟨o.1, o.2, o.3, o.4, o.5, o.6, o.7, o.8, o.9, o.10, o.11⟩⟩

/-- Tables that only lose members keep their limits. -/
theorem keeps_shrink {s t : State} (hp : t.pending = s.pending) (hs : t.sent = s.sent) (hr : t.resetHeld = s.resetHeld)
    (hh : t.halted = s.halted) (hl : t.latched = s.latched)
    (ht : (t.client.tags.map (·.tag)).Sublist (s.client.tags.map (·.tag))) (hsl : t.client.slots.length ≤ s.client.slots.length)
    (hst : (t.port.table.map (·.tag)).Sublist (s.port.table.map (·.tag))) (hc : t.rd.cache.length ≤ s.rd.cache.length)
    (hb : t.tariff = s.tariff) (hct : t.ret.table.length = s.ret.table.length)
    (hho : t.ret.holds.length ≤ s.ret.holds.length) (hq : t.audit.queue.length ≤ s.audit.queue.length) : Keeps s t := by
  refine ⟨hp, hr, fun hs => (congrArg Option.isSome hh).trans hs, hl ▸ s.latched.le_refl, ⟨[], by simpa using hs, by simp⟩, fun o => ?_⟩
  exact ⟨fun x hx => o.tagRange x (ht.subset hx), o.tagsOnce.sublist ht, hsl.trans o.slots,
    fun x hx => o.storeRange x (hst.subset hx), o.storeOnce.sublist hst, hc.trans o.cache,
    (congrArg (fun (u : TariffUnit) => u.bank0.length) hb).trans o.bank0,
    (congrArg (fun (u : TariffUnit) => u.bank1.length) hb).trans o.bank1,
    hct.trans o.classes, hho.trans o.holds, hq.trans o.verifyQueue⟩

theorem keeps_dropTag (t : Nat) (s : State) : Keeps s (s.dropTag t) := by
  unfold State.dropTag
  refine Keeps.trans (t := _) ?_ (Keeps.of_outline ((outline_disown _ _).trans (outline_withdraw _ _)))
  refine keeps_shrink rfl rfl rfl rfl rfl ?_ ?_ (List.Sublist.refl _) ?_ rfl rfl (Nat.le_refl _) (Nat.le_refl _)
  · exact List.filter_sublist.map _
  · exact List.length_filter_le _ _
  · simp

theorem keeps_complete (t : Nat) (st : Status) (r : Option Reason) (n : Nat) (s : State) : Keeps s (s.complete t st r n) :=
  (keeps_dropTag t s).trans (keeps_send rfl _)

theorem keeps_finish (t : Nat) (st : Status) (s : State) : Keeps s (s.finish t st) := keeps_complete t st none 0 s

theorem keeps_refuse (t : Nat) (r : Reason) (s : State) : Keeps s (s.refuse t r) := keeps_complete t .refused (some r) 0 s

theorem keeps_answer (o : Option Nat) (st : Status) (r : Option Reason) (s : State) : Keeps s (s.answer o st r) := by
  unfold State.answer
  split
  · exact Keeps.refl s
  · split
    · exact keeps_complete _ _ _ _ s
    · exact keeps_send rfl s

theorem keeps_setStalled (s : State) : Keeps s s.setStalled :=
  ⟨rfl, rfl, id, ⟨fun _ => rfl, id, id, id, id⟩, ⟨[], by simp [State.setStalled], by simp⟩, fun o => ⟨o.1, o.2, o.3, o.4, o.5, o.6, o.7, o.8, o.9, o.10, o.11⟩⟩

theorem keeps_setDiscrepant (s : State) : Keeps s s.setDiscrepant :=
  ⟨rfl, rfl, id, ⟨id, fun _ => rfl, id, id, id⟩, ⟨[], by simp [State.setDiscrepant], by simp⟩, fun o => ⟨o.1, o.2, o.3, o.4, o.5, o.6, o.7, o.8, o.9, o.10, o.11⟩⟩

theorem keeps_setDamage (s : State) : Keeps s s.setDamage :=
  ⟨rfl, rfl, id, ⟨id, id, fun _ => rfl, id, id⟩, ⟨[], by simp [State.setDamage], by simp⟩, fun o => ⟨o.1, o.2, o.3, o.4, o.5, o.6, o.7, o.8, o.9, o.10, o.11⟩⟩

theorem keeps_setStoreFault (s : State) : Keeps s s.setStoreFault :=
  ⟨rfl, rfl, id, ⟨id, id, id, fun _ => rfl, id⟩, ⟨[], by simp [State.setStoreFault], by simp⟩, fun o => ⟨o.1, o.2, o.3, o.4, o.5, o.6, o.7, o.8, o.9, o.10, o.11⟩⟩

theorem keeps_setBlocked (s : State) : Keeps s s.setBlocked :=
  ⟨rfl, rfl, id, ⟨id, id, id, id, fun _ => rfl⟩, ⟨[], by simp [State.setBlocked], by simp⟩, fun o => ⟨o.1, o.2, o.3, o.4, o.5, o.6, o.7, o.8, o.9, o.10, o.11⟩⟩

end Sys2Proof.Machine
end

