-- ==== Sys2Proof/Laws/KeepsShared.lean ====
section
/-! SUPPORT. What the journal, the fixed-place writes, the zone allocator, the halt and the segment operations keep. -/

namespace Sys2Proof.Machine

/-! ### Journal -/

@[simp] theorem outline_callJournal (ring : Nat) (b : Block) (ws : List JournalWaiter) (s : State) :
    (s.callJournal ring b ws).outline = s.outline := by
  unfold State.callJournal
  split
  · rfl
  · split <;> rfl

@[simp] theorem outline_passBlock (s : State) : s.passBlock.outline = s.outline := by
  unfold State.passBlock
  dsimp only
  split
  · rfl
  · exact outline_callJournal _ _ _ s

@[simp] theorem outline_placeEntry (a : Append) (s : State) : (s.placeEntry a).outline = s.outline := rfl

@[simp] theorem outline_endSweep (s : State) : s.endSweep.outline = s.outline := by
  unfold State.endSweep
  split <;> rfl

@[simp] theorem outline_release (who : Appender) (s : State) : (s.release who).outline = s.outline := by
  unfold State.release
  split
  · rfl
  · rfl
  · rfl
  · simp
  · simp
  · rfl
  · dsimp only
    split
    · rfl
    · exact outline_modVol _ _ _

@[simp] theorem outline_appendNow (a : Append) (s : State) : (s.appendNow a).outline = s.outline := by
  unfold State.appendNow
  simp only [outline_release]
  split <;> split <;> simp

@[simp] theorem outline_append (a : Append) (s : State) : (s.append a).outline = s.outline := by
  unfold State.append
  split
  · exact outline_appendNow a s
  · rfl

@[simp] theorem outline_drainList (l : List Append) (s : State) : (s.drainList l).outline = s.outline := by
  induction l generalizing s with
  | nil => rfl
  | cons a rest ih =>
    unfold State.drainList
    split
    · exact (ih _).trans (outline_appendNow _ _)
    · rfl

@[simp] theorem outline_drain (s : State) : s.drain.outline = s.outline := outline_drainList _ _

@[simp] theorem outline_advancePointer (ring : Nat) (s : State) : (s.advancePointer ring).outline = s.outline := by
  unfold State.advancePointer
  split
  · exact outline_drain _
  · rfl

@[simp] theorem outline_appendFault (f : FaultInfo) (s : State) : (s.appendFault f).outline = s.outline := outline_append _ _

@[simp] theorem outline_wakeHeldBack (s : State) : s.wakeHeldBack.outline = s.outline := by
  simp only [State.wakeHeldBack, State.outline, List.map_map]
  congr 1
  apply List.map_congr_left
  intro e _
  simp only [Function.comp_apply]
  split
  · split <;> rfl
  · rfl

/-! ### Writes -/

@[simp] theorem outline_handSettings (ws : List SetWaiter) (s : State) : (s.handSettings ws).outline = s.outline := rfl

@[simp] theorem outline_callSettings (w : SetWaiter) (s : State) : (s.callSettings w).outline = s.outline := by
  unfold State.callSettings
  split <;> rfl

@[simp] theorem outline_handCatalogue (b : Nat) (ws : List CatWaiter) (s : State) :
    (s.handCatalogue b ws).outline = s.outline := rfl

@[simp] theorem outline_callCatalogue (w : Nat) (ws : List CatWaiter) (s : State) :
    (s.callCatalogue w ws).outline = s.outline := by
  unfold State.callCatalogue
  dsimp only
  split <;> rfl

@[simp] theorem outline_rewriteVol (w : Nat) (f : Volume → Volume) (ws : List CatWaiter) (s : State) :
    (s.rewriteVol w f ws).outline = s.outline := outline_callCatalogue _ _ _

@[simp] theorem outline_unexpire (w n : Nat) (f : Volume → Volume) (s : State) : (s.unexpire w n f).outline = s.outline :=
  outline_rewriteVol _ _ _ _

/-! ### The halt -/

theorem keeps_haltEntry (e : TagEntry) (s : State) : Keeps s (haltEntry e s) := by
  unfold haltEntry
  split
  · exact keeps_finish _ _ s
  · exact Keeps.refl s

theorem keeps_enterHalted (cls : FaultClass) (s : State) : Keeps s (s.enterHalted cls) := by
  unfold State.enterHalted
  refine Keeps.trans (t := _) ?_ (Keeps.of_outline (outline_muteDirectives _))
  refine Keeps.trans (t := _) ?_ (keeps_each keeps_haltEntry _ _)
  refine Keeps.trans (t := _) ?_ (Keeps.of_outline (outline_wakeHeldBack _))
  exact ⟨rfl, rfl, fun _ => rfl, s.latched.le_refl, ⟨[], by simp, by simp⟩,
    fun o => ⟨o.1, o.2, o.3, o.4, o.5, o.6, o.7, o.8, o.9, o.10, o.11⟩⟩

theorem keeps_doubleFault (cls : FaultClass) (k : WriteKind) (b : Nat) (v : Option (Nat × Nat)) (g : Option (Nat × Nat × Nat))
    (s : State) : Keeps s (s.doubleFault cls k b v g) := by
  unfold State.doubleFault
  exact Keeps.ite (Keeps.refl s) ((keeps_enterHalted cls s).trans (Keeps.of_outline (outline_append _ _)))

/-! ### Placing and sealing -/

theorem outline_tryPlace {n i : Nat} {s t : State} (h : s.tryPlace n i = some t) : t.outline = s.outline := by
  unfold State.tryPlace at h
  split at h
  · cases h
  · split at h
    · cases h
    · cases h
      rfl

@[simp] theorem outline_joinWaiting (i : WaitItem) (s : State) : (s.joinWaiting i).outline = s.outline := by
  unfold State.joinWaiting
  split <;> rfl

@[simp] theorem outline_leaveWaiting (i : WaitItem) (s : State) : (s.leaveWaiting i).outline = s.outline := rfl

@[simp] theorem outline_placeOnce (n i : Nat) (s : State) : (s.placeOnce n i).outline = s.outline := by
  unfold State.placeOnce
  split
  · rfl
  · split
    · rename_i h
      exact outline_tryPlace h
    · exact outline_joinWaiting _ _

@[simp] theorem outline_sealOnce (w : Nat) (s : State) : (s.sealOnce w).outline = s.outline := by
  unfold State.sealOnce
  split
  · rfl
  · dsimp only
    split
    · exact (outline_placeOnce _ _ _).trans rfl
    · rfl

@[simp] theorem outline_proceed (i : WaitItem) (s : State) : (s.proceed i).outline = s.outline := by
  unfold State.proceed
  split
  · split
    · rfl
    · split
      · rfl
      · split
        · exact outline_sealOnce _ _
        · rfl
  · split
    · rfl
    · split
      · rfl
      · rename_i h
        exact (outline_leaveWaiting _ _).trans (outline_tryPlace h)

@[simp] theorem outline_passAgain (n : Nat) (s : State) : (s.passAgain n).outline = s.outline := by
  induction n generalizing s with
  | zero => rfl
  | succ n ih =>
    have h := outline_each outline_proceed s.alloc.waiting s
    unfold State.passAgain
    dsimp only
    split
    · exact (ih _).trans h
    · exact h

@[simp] theorem outline_passWaiting (s : State) : s.passWaiting.outline = s.outline := by
  unfold State.passWaiting
  split
  · rfl
  · exact outline_passAgain _ _

@[simp] theorem outline_passIfJoined (old : Alloc) (s : State) : (s.passIfJoined old).outline = s.outline := by
  unfold State.passIfJoined
  split
  · exact outline_passWaiting s
  · rfl

@[simp] theorem outline_placeOrWait (n i : Nat) (s : State) : (s.placeOrWait n i).outline = s.outline :=
  (outline_passIfJoined _ _).trans (outline_placeOnce _ _ _)

@[simp] theorem outline_seal (w : Nat) (s : State) : (s.seal w).outline = s.outline :=
  (outline_passIfJoined _ _).trans (outline_sealOnce _ _)

@[simp] theorem outline_holdClose (k : CloseCond) (w : Nat) (c : Ctx) (s : State) :
    (s.holdClose k w c).outline = s.outline := by
  unfold State.holdClose
  dsimp only
  split
  · exact (outline_joinWaiting _ _).trans rfl
  · rfl

@[simp] theorem outline_closeDue (k : CloseCond) (w : Nat) (s : State) : (s.closeDue k w).outline = s.outline := by
  unfold State.closeDue
  split
  · rfl
  · split
    · rfl
    · split
      · exact outline_seal _ _
      · exact outline_holdClose _ _ _ _

@[simp] theorem outline_zoneTest (n : Nat) (s : State) : (s.zoneTest n).outline = s.outline := by
  unfold State.zoneTest
  split
  · rfl
  · split
    · rfl
    · split
      · exact outline_passWaiting _
      · split
        · exact outline_passWaiting _
        · rfl

/-! ### Answers, commits -/

theorem keeps_answerWrite (v : Volume) (e : TagEntry) (s : State) : Keeps s (answerWrite v e s) := by
  unfold answerWrite
  split
  · exact keeps_complete _ _ _ _ s
  · exact keeps_finish _ _ s

theorem keeps_answerSync (v : Volume) (hi : Nat) (e : TagEntry) (s : State) : Keeps s (answerSync v hi e s) := by
  unfold answerSync
  split
  · exact keeps_complete _ _ _ _ s
  · exact keeps_finish _ _ s

theorem keeps_answerOpenSyncs (w : Nat) (s : State) : Keeps s (s.answerOpenSyncs w) := by
  unfold State.answerOpenSyncs
  split
  · split
    · exact keeps_each (fun e s => keeps_answerSync _ _ e s) _ _
    · exact Keeps.refl s
  · exact Keeps.refl s

theorem keeps_endStep1 (w : Nat) (s : State) : Keeps s (s.endStep1 w) := by
  unfold State.endStep1
  split
  · split
    · exact Keeps.refl s
    · split
      · refine Keeps.trans (t := _) ?_ (keeps_each (fun e s => keeps_answerSync _ _ e s) _ _)
        exact Keeps.of_outline rfl
      · exact Keeps.refl s
  · exact Keeps.refl s

theorem keeps_afterCommit (w : Nat) (s : State) : Keeps s (s.afterCommit w) := by
  unfold State.afterCommit
  split
  · exact ((keeps_each (fun e s => keeps_answerWrite _ e s) _ _).trans (keeps_answerOpenSyncs _ _)).trans (keeps_endStep1 _ _)
  · exact Keeps.refl s

@[simp] theorem outline_commitOne (p : PendSeg) (q : Place) (s : State) : (s.commitOne p q).outline = s.outline := rfl

@[simp] theorem outline_commitChain (k n : Nat) (s : State) : (s.commitChain k n).outline = s.outline := by
  induction k generalizing s with
  | zero => rfl
  | succ k ih =>
    unfold State.commitChain
    split
    · rfl
    · split
      · exact (ih _).trans (outline_commitOne _ _ _)
      · rfl

theorem keeps_writeRecovered (p : PendSeg) (s : State) : Keeps s (s.writeRecovered p) := by
  unfold State.writeRecovered
  split
  · exact Keeps.refl s
  · exact (keeps_setStoreFault s).trans (Keeps.of_outline (outline_appendFault _ _))

theorem keeps_ownerGood (q : Placement) (s : State) : Keeps s (ownerGood q s) := by
  unfold ownerGood
  split
  · exact Keeps.refl s
  · split
    · exact ((Keeps.of_outline ((outline_commitChain _ _ _).trans (outline_modPend _ _ _ _))).trans
        (keeps_writeRecovered _ _)).trans (keeps_afterCommit _ _)
    · exact Keeps.refl s

theorem keeps_segmentGood (stamp : Nat) (s : State) : Keeps s (s.segmentGood stamp) := by
  unfold State.segmentGood
  split
  · exact Keeps.refl s
  · refine Keeps.trans (t := _) ?_ (Keeps.of_outline (outline_zoneTest _ _))
    refine Keeps.trans (t := _) ?_ (keeps_each keeps_ownerGood _ _)
    exact Keeps.of_outline rfl

/-! ### Failures -/

theorem keeps_segmentLost (cls : FaultClass) (p : PendSeg) (s : State) : Keeps s (s.segmentLost cls p) := by
  unfold State.segmentLost
  refine Keeps.trans (t := _) ?_ (Keeps.of_outline ((outline_placeOrWait _ _ _).trans (outline_modVol _ _ _)))
  exact (Keeps.of_outline ((outline_appendFault _ _).trans (outline_modPend _ _ _ _))).trans (keeps_setDamage _)

theorem keeps_ownerFailed (cls : FaultClass) (q : Placement) (s : State) : Keeps s (s.ownerFailed cls q) := by
  unfold State.ownerFailed
  split
  · exact Keeps.refl s
  · split
    · exact Keeps.refl s
    · split
      · exact Keeps.refl s
      · split
        · exact Keeps.of_outline ((outline_placeOrWait _ _ _).trans (outline_modPend _ _ _ _))
        · split
          · exact keeps_doubleFault _ _ _ _ _ _
          · exact keeps_segmentLost _ _ _

@[simp] theorem outline_replaceStranded (q : Placement) (s : State) : (replaceStranded q s).outline = s.outline := by
  unfold replaceStranded
  split
  · rfl
  · split
    · exact (outline_placeOrWait _ _ _).trans (outline_modPend _ _ _ _)
    · rfl

theorem keeps_segmentFailed (cls : FaultClass) (stamp : Nat) (a : Bool) (s : State) :
    Keeps s (s.segmentFailed cls stamp a) := by
  unfold State.segmentFailed
  split
  · exact Keeps.refl s
  · dsimp only
    split
    · exact Keeps.refl s
    · refine Keeps.trans (t := _) ?_ (Keeps.of_outline (outline_each outline_replaceStranded _ _))
      refine Keeps.trans (t := _) ?_ (keeps_ownerFailed _ _ _)
      exact Keeps.of_outline ((outline_zoneTest _ _).trans ((outline_disown _ _).trans (outline_withdraw _ _)))

@[simp] theorem outline_dropAbandoned (stamp : Nat) (s : State) : (s.dropAbandoned stamp).outline = s.outline := by
  unfold State.dropAbandoned
  split
  · rfl
  · exact outline_zoneTest _ _

/-! ### Entering CLOSING -/

@[simp] theorem outline_enterClosing (w : Nat) (st : CloseStage) (r : Option Nat) (s : State) :
    (s.enterClosing w st r).outline = s.outline := (outline_rewriteVol _ _ _ _).trans (outline_modCtx _ _ _)

theorem keeps_closingDiscard (w : Nat) (s : State) : Keeps s (s.closingDiscard w) := by
  unfold State.closingDiscard
  split
  · exact Keeps.refl s
  · refine Keeps.trans (t := _) ?_ (keeps_each (fun e s => keeps_refuse _ _ s) _ _)
    refine Keeps.trans (t := _) ?_ (Keeps.of_outline (outline_modCtx _ _ _))
    exact keeps_shrink rfl rfl rfl rfl rfl (List.Sublist.refl _) (List.length_filter_le _ _) (List.Sublist.refl _)
      (Nat.le_refl _) rfl rfl (Nat.le_refl _) (Nat.le_refl _)

theorem keeps_framerStop (w : Nat) (s : State) : Keeps s (s.framerStop w) := by
  unfold State.framerStop
  refine Keeps.trans (t := _) ?_ (keeps_endStep1 _ _)
  exact (keeps_closingDiscard w s).trans (Keeps.of_outline ((outline_closeDue _ _ _).trans (outline_modCtx _ _ _)))

theorem keeps_endTaking (w : Nat) (s : State) : Keeps s (s.endTaking w) := by
  unfold State.endTaking
  split
  · split
    · exact keeps_framerStop _ _
    · exact Keeps.refl s
  · exact Keeps.refl s

end Sys2Proof.Machine
end

