-- ==== Sys2Proof/Laws/KeepsClient.lean ====
section
/-! SUPPORT. What the client port, the ingest commands and the directives keep. -/

namespace Sys2Proof.Machine

/-! ### Table entries and slots -/

theorem perm_insertBy {α : Type} (key : α → Nat) (x : α) (l : List α) : (insertBy key x l).Perm (x :: l) := by
  induction l with
  | nil => exact List.Perm.refl _
  | cons y ys ih =>
    unfold insertBy
    split
    · exact List.Perm.refl _
    · exact (List.Perm.cons y ih).trans (List.Perm.swap x y ys)

/-- A tag that names no entry may get one. -/
theorem keeps_addTag (e : TagEntry) (s : State) (h31 : e.tag ≤ 31) (hnew : s.tag e.tag = none) : Keeps s (s.addTag e) := by
  have hp : ((insertBy (·.tag) e s.client.tags).map (·.tag)).Perm (e.tag :: s.client.tags.map (·.tag)) :=
    (perm_insertBy (·.tag) e s.client.tags).map _
  refine ⟨rfl, rfl, id, s.latched.le_refl, ⟨[], by simp [State.addTag], by simp⟩, fun o => ?_⟩
  refine ⟨fun t ht => ?_, ?_, o.3, o.4, o.5, o.6, o.7, o.8, o.9, o.10, o.11⟩
  · rcases List.mem_cons.mp (hp.mem_iff.mp ht) with rfl | ht
    · exact h31
    · exact o.tagRange t ht
  · refine hp.nodup_iff.mpr (List.nodup_cons.mpr ⟨?_, o.tagsOnce⟩)
    intro hm
    obtain ⟨x, hx, hxe⟩ := List.mem_map.mp hm
    have := List.find?_eq_none.mp hnew x hx
    simp [hxe] at this

/-- A request that passed R24 has a free tag of 31 or less. -/
theorem badTag_false {tag : Byte} {s : State} (h : s.badTag tag = false) : tag.toNat ≤ 31 ∧ s.tag tag.toNat = none := by
  simp only [State.badTag, Bool.or_eq_false_iff, decide_eq_false_iff_not, Nat.not_lt, Option.isSome_eq_false_iff,
    Option.isNone_iff_eq_none] at h
  exact h

theorem checkTransfer_none {tag : Byte} {a : BitVec 64} {n : BitVec 16} {s : State}
    (h : s.checkTransfer tag a n = none) : s.badTag tag = false := by
  unfold State.checkTransfer at h
  split at h
  · cases h
  · split at h
    · cases h
    · rename_i hb
      simp only [Bool.or_eq_true, not_or, Bool.not_eq_true] at hb
      exact hb.1.1

theorem checkSync_none {tag : Byte} {n : BitVec 16} {s : State} (h : s.checkSync tag n = none) : s.badTag tag = false := by
  unfold State.checkSync at h
  split at h
  · cases h
  · split at h
    · cases h
    · rename_i hb
      simp only [Bool.or_eq_true, not_or, Bool.not_eq_true] at hb
      exact hb.1

theorem keeps_turnAway (t : Byte) (st : Status) (r : Option Reason) (s : State) : Keeps s (s.turnAway t st r) :=
  keeps_send rfl s

theorem keeps_routeRead (t : Byte) (w off n : Nat) (s : State) (h : s.badTag t = false) :
    Keeps s (s.routeRead t w off n) := by
  have hb := badTag_false h
  unfold State.routeRead
  split
  · exact keeps_addTag _ s hb.1 hb.2
  · split
    · exact keeps_addTag _ s hb.1 hb.2
    · split
      · exact keeps_turnAway _ _ _ s
      · exact keeps_addTag _ s hb.1 hb.2
      · exact Keeps.ite (keeps_turnAway _ _ _ s) (keeps_addTag _ s hb.1 hb.2)

@[simp] theorem length_reserveSlots (n t off k : Nat) : (reserveSlots n t off k).length = k := by
  induction k generalizing off with
  | zero => rfl
  | succ k ih => simp [reserveSlots, ih]

theorem outline_loadIdle (w : Nat) (s : State) : (s.loadIdle w).outline = s.outline := rfl

/-- A write that passed the admission test may reserve its slots. -/
theorem keeps_admitWrite (t : Nat) (v : Volume) (off n : Nat) (s : State) (h : n ≤ s.freeSlots) :
    Keeps s (s.admitWrite t v off n) := by
  unfold State.admitWrite
  refine Keeps.trans (t := _) ?_
    (Keeps.of_outline ((outline_modVol _ _ _).trans ((outline_loadIdle _ _).trans
      (outline_modTag (f := admitEntry v.serial s.set.work.mode) (fun _ => rfl) _ _))))
  refine ⟨rfl, rfl, id, s.latched.le_refl, ⟨[], by simp, by simp⟩, fun o => ?_⟩
  refine ⟨o.1, o.2, ?_, o.4, o.5, o.6, o.7, o.8, o.9, o.10, o.11⟩
  have := o.slots
  simp only [State.outline] at this
  simp only [State.freeSlots] at h
  simp only [State.outline, List.length_append, length_reserveSlots]
  omega

theorem admission_none {v : Volume} {off n : Nat} {s : State} (h : s.admission v off n = none) : n ≤ s.freeSlots := by
  unfold State.admission at h
  split at h
  · cases h
  · split at h
    · cases h
    · split at h
      · cases h
      · omega

theorem keeps_execWriteBody (t : Byte) (w off n : Nat) (s : State) (h : s.badTag t = false) :
    Keeps s (match s.routeWrite false w off n with
      | .done st r => s.turnAway t st r
      | .await => s.putAside t w off n
      | .opening => s.putAside t w off n
      | .admitted v =>
        match s.admission v off n with
        | some (st, r) => s.turnAway t st r
        | none => (s.addTag (awaitEntry t w off n)).admitWrite t.toNat v off n) := by
  have hb := badTag_false h
  have ha : Keeps s (s.addTag (awaitEntry t w off n)) := keeps_addTag _ s hb.1 hb.2
  have hp : Keeps s (s.putAside t w off n) := keeps_addTag _ s hb.1 hb.2
  split
  · exact keeps_turnAway _ _ _ s
  · exact hp
  · exact hp
  · split
    · exact keeps_turnAway _ _ _ s
    · rename_i hadm
      exact ha.trans (keeps_admitWrite _ _ _ _ _ (admission_none hadm))

/-! ### SYNC -/

theorem keeps_failSync (t : Nat) (s : State) : Keeps s (s.failSync t) := by
  unfold State.failSync
  exact Keeps.ite (keeps_finish _ _ s) (Keeps.refl s)

theorem keeps_syncOpen (t : Byte) (v : Volume) (s : State) (h : s.badTag t = false) : Keeps s (s.syncOpen t v) := by
  have hb := badTag_false h
  unfold State.syncOpen
  refine Keeps.trans (t := _) ?_ (keeps_failSync _ _)
  refine Keeps.trans (t := _) ?_ (keeps_answerOpenSyncs _ _)
  have ha : Keeps s (s.addTag (syncEntry t v.window (some v.serial) (some (s.contiguous v.serial 256 v.ingest)) 0)) :=
    keeps_addTag _ s hb.1 hb.2
  exact ha.trans (Keeps.ite (Keeps.of_outline (outline_closeDue _ _ _)) (Keeps.refl _))

theorem keeps_syncClosing (t : Byte) (v : Volume) (s : State) (h : s.badTag t = false) : Keeps s (s.syncClosing t v) := by
  have hb := badTag_false h
  unfold State.syncClosing
  have ha : Keeps s (s.addTag (syncEntry t v.window (some v.serial) none 0)) := keeps_addTag _ s hb.1 hb.2
  exact Keeps.ite (ha.trans (keeps_answerSync _ _ _ _)) (ha.trans (keeps_failSync _ _))

theorem keeps_syncJournal (t : Byte) (s : State) (h : s.badTag t = false) : Keeps s (s.syncJournal t) := by
  have hb := badTag_false h
  unfold State.syncJournal
  refine Keeps.ite (keeps_turnAway _ _ _ s) (Keeps.ite (keeps_turnAway _ _ _ s) ?_)
  refine (keeps_addTag (syncEntry t 4095 none none (1 + (s.jr.writes.filter (·.ring != s.headRing)).length)) s hb.1 hb.2).trans ?_
  exact Keeps.of_outline ((outline_callJournal _ _ _ _).trans rfl)

theorem keeps_routeSync (t : Byte) (w : Nat) (s : State) (h : s.badTag t = false) : Keeps s (s.routeSync t w) := by
  unfold State.routeSync
  refine Keeps.ite (keeps_turnAway _ _ _ s) (Keeps.ite (keeps_syncJournal t s h) ?_)
  split
  · exact keeps_turnAway _ _ _ s
  · split
    · exact keeps_syncOpen t _ s h
    · exact keeps_syncClosing t _ s h
    · exact keeps_turnAway _ _ _ s

/-! ### DATA -/

theorem keeps_received (e : TagEntry) (s : State) : Keeps s (s.received e) := by
  unfold State.received
  split
  · exact Keeps.ite (keeps_finish _ _ s)
      (Keeps.of_outline (outline_modTag (f := fun e => { e with phase := .waitingCommit }) (fun _ => rfl) _ _))
  · exact keeps_finish _ _ s

theorem tag_of_tag {s : State} {t : Nat} {e : TagEntry} (h : s.tag t = some e) : e.tag = t := by
  have := List.find?_some h
  simpa using this

/-- The entry of a tag is replaced by one of the same tag. -/
theorem outline_setTag {e : TagEntry} {t : Nat} (h : e.tag = t) (s : State) : (s.modTag t fun _ => e).outline = s.outline := by
  simp only [State.modTag, State.outline, List.map_map]
  congr 1
  apply List.map_congr_left
  intro x _
  simp only [Function.comp_apply]
  split
  · rename_i hx
    simp only [beq_iff_eq] at hx
    rw [h, hx]
  · rfl

theorem keeps_placeData (t i : Nat) (b : Block) (s : State) : Keeps s (s.placeData t i b) := by
  unfold State.placeData
  split
  · exact Keeps.refl s
  · rename_i e he
    split
    · rename_i n _ _
      dsimp only
      split
      · have h0 : e.tag = t := tag_of_tag he
        have h1 : ∀ u : State, (u.modTag t fun _ => { e with done := e.done + 1 }).outline = u.outline :=
          fun u => outline_setTag (e := { e with done := e.done + 1 }) h0 u
        have h2 : Keeps s (State.modTag t (fun _ => { e with done := e.done + 1 })
            { s with client := { s.client with slots := s.client.slots.map (Slot.fill t n (e.offset + i) b) } }) := by
          refine Keeps.of_outline ((h1 _).trans ?_)
          simp [State.outline]
        exact Keeps.ite (h2.trans (keeps_received _ _)) h2
      · exact Keeps.refl s
    · exact Keeps.refl s

theorem keeps_takeLinkData (t : Nat) (s : State) : Keeps s (s.takeLinkData t) := by
  unfold State.takeLinkData
  refine Keeps.trans (t := _) ?_ (keeps_each (f := fun (d : LinkData) => State.placeData d.tag d.index d.block)
    (fun _ _ => keeps_placeData _ _ _ _) _ _)
  exact Keeps.of_outline rfl

/-! ### Examination -/

@[simp] theorem outline_openVolume (w : Nat) (h : List Byte) (s : State) : (s.openVolume w h).outline = s.outline :=
  (outline_callSettings _ _).trans ((outline_callCatalogue _ _ _).trans rfl)

theorem keeps_dispatch (t : Nat) (b : Block) (s : State) : Keeps s (s.dispatch t b) := by
  unfold State.dispatch
  split
  · exact keeps_refuse _ _ s
  · refine Keeps.trans (t := _) (Keeps.of_outline (outline_modTag (f := fun e => { e with phase := .directive, held := none })
      (fun _ => rfl) t s)) (Keeps.of_outline rfl)

theorem openRefusal_none {b : Block} {n : Nat} {s : State} (h : s.openRefusal b n = none) : n ≤ s.freeSlots := by
  unfold State.openRefusal at h
  dsimp only at h
  split at h
  · cases h
  · split at h
    · cases h
    · split at h
      · cases h
      · split at h
        · cases h
        · split at h
          · cases h
          · split at h
            · cases h
            · omega

theorem freeSlots_of_outline {s t : State} (h : t.outline = s.outline) : t.freeSlots = s.freeSlots := by
  have : t.client.slots.length = s.client.slots.length := congrArg Outline.slots h
  simp [State.freeSlots, this]

theorem keeps_stageHeld (t : Nat) (b : Block) (s : State) : Keeps s (s.stageHeld t b) :=
  (keeps_placeData _ _ _ s).trans (keeps_takeLinkData _ _)

theorem keeps_examine (e : TagEntry) (b : Block) (s : State) : Keeps s (s.examine e b) := by
  unfold State.examine
  refine Keeps.ite (keeps_finish _ _ s) (Keeps.ite ?_ ?_)
  · exact (Keeps.ite (keeps_dispatch _ _ s) (keeps_refuse _ _ s)).trans (keeps_takeLinkData _ _)
  · refine Keeps.ite (keeps_refuse _ _ s) ?_
    split
    · exact keeps_complete _ _ _ _ s
    · exact Keeps.refl s
    · split
      · exact keeps_complete _ _ _ _ s
      · rename_i h
        have ho := outline_openVolume e.window (b.take 40) s
        refine ((Keeps.of_outline ho).trans (keeps_admitWrite _ _ _ _ _ ?_)).trans (keeps_stageHeld _ _ _)
        rw [freeSlots_of_outline ho]
        exact openRefusal_none h
    · split
      · exact keeps_complete _ _ _ _ s
      · rename_i h
        exact (keeps_admitWrite _ _ _ _ s (admission_none h)).trans (keeps_stageHeld _ _ _)

theorem keeps_takeData (t i : Nat) (b : Block) (s : State) : Keeps s (s.takeData t i b) := by
  unfold State.takeData
  split
  · exact Keeps.refl s
  · split
    · split
      · exact (Keeps.of_outline (outline_modTag (f := fun e => { e with held := some b }) (fun _ => rfl) _ _)).trans
          (keeps_examine _ _ _)
      · exact Keeps.of_outline rfl
    · exact keeps_placeData _ _ _ s

theorem keeps_linkDown (s : State) :
    Keeps s (each (fun (e : TagEntry) => State.dropTag e.tag) s.client.tags s).muteDirectives :=
  (keeps_each (f := fun (e : TagEntry) => State.dropTag e.tag) (fun e s => keeps_dropTag e.tag s) _ _).trans (Keeps.of_outline (outline_muteDirectives _))

/-! ### The client commands -/

/-- A command answers a next state that keeps. -/
def KeepsNext (s : State) (r : Result) : Prop := ∀ t, r = .next t → Keeps s t

theorem keepsNext_next {s t : State} (h : Keeps s t) : KeepsNext s (.next t) := by
  intro u hu
  cases hu
  exact h

theorem keepsNext_read (t : Byte) (a : BitVec 64) (n : BitVec 16) (s : State) : KeepsNext s (execRead t a n s) := by
  refine keepsNext_next (Keeps.ite (Keeps.refl s) ?_)
  split
  · exact keeps_turnAway _ _ _ s
  · rename_i h
    exact keeps_routeRead _ _ _ _ s (checkTransfer_none h)

theorem keepsNext_write (t : Byte) (a : BitVec 64) (n : BitVec 16) (s : State) : KeepsNext s (execWrite t a n s) := by
  refine keepsNext_next (Keeps.ite (Keeps.refl s) ?_)
  split
  · exact keeps_turnAway _ _ _ s
  · rename_i h
    exact keeps_execWriteBody _ _ _ _ s (checkTransfer_none h)

theorem keepsNext_sync (t : Byte) (a : BitVec 64) (n : BitVec 16) (s : State) : KeepsNext s (execSync t a n s) := by
  refine keepsNext_next (Keeps.ite (Keeps.refl s) ?_)
  split
  · exact keeps_turnAway _ _ _ s
  · rename_i h
    exact keeps_routeSync _ _ s (checkSync_none h)

theorem keepsNext_clientCapacity (t op : Byte) (a : BitVec 64) (n : BitVec 16) (s : State) :
    KeepsNext s (execClientCapacity t op a n s) := by
  refine keepsNext_next (Keeps.ite (Keeps.refl s) ?_)
  split <;> exact keeps_turnAway _ _ _ s

theorem keepsNext_clientData (t : Byte) (i : BitVec 16) (b : Block) (s : State) : KeepsNext s (execClientData t i b s) := by
  unfold execClientData
  split
  · intro u hu
    cases hu
  · exact keepsNext_next (Keeps.ite (Keeps.refl s) (keeps_takeData _ _ _ s))

theorem keepsNext_abort (t : Byte) (s : State) : KeepsNext s (execAbort t s) := by
  refine keepsNext_next (Keeps.ite (Keeps.refl s) ?_)
  split
  · exact Keeps.refl s
  · split
    · exact Keeps.refl s
    · exact keeps_complete _ _ _ _ s

theorem keepsNext_clientLinkDown (s : State) : KeepsNext s (execClientLinkDown s) :=
  keepsNext_next (Keeps.ite (Keeps.refl s) (Keeps.trans (t := _) (keeps_linkDown s) (Keeps.of_outline rfl)))

theorem keepsNext_clientLinkUp (s : State) : KeepsNext s (execClientLinkUp s) :=
  keepsNext_next (Keeps.ite (Keeps.refl s) (Keeps.of_outline rfl))

/-! ### Ingest -/

theorem keeps_takeBlock (w : Nat) (v : Volume) (l : Bool) (b : Block) (s : State) : Keeps s (s.takeBlock w v l b) := by
  unfold State.takeBlock
  split
  · exact Keeps.refl s
  · refine keeps_shrink rfl rfl rfl rfl rfl ?_ ?_ (List.Sublist.refl _) (Nat.le_refl _) rfl rfl (Nat.le_refl _) (Nat.le_refl _)
    · simp only [State.modVol, State.modCtx, List.map_map]
      refine (List.map_congr_left (fun e _ => ?_)) ▸ List.Sublist.refl _
      simp only [Function.comp_apply, waitOn]
      split <;> rfl
    · exact List.length_filter_le _ _

@[simp] theorem outline_closeAtLimit (w : Nat) (s : State) : (s.closeAtLimit w).outline = s.outline := by
  unfold State.closeAtLimit
  split
  · rfl
  · split
    · exact outline_closeDue _ _ _
    · rfl

@[simp] theorem outline_closeCommitted (w : Nat) (s : State) : (s.closeCommitted w).outline = s.outline := by
  unfold State.closeCommitted
  split
  · dsimp only
    split
    · exact outline_closeDue _ _ _
    · rfl
  · rfl

@[simp] theorem outline_closeForSync (w : Nat) (s : State) : (s.closeForSync w).outline = s.outline := by
  unfold State.closeForSync
  split
  · rfl
  · split
    · exact outline_closeDue _ _ _
    · rfl

theorem keeps_afterTrailer (w : Nat) (s : State) : Keeps s (s.afterTrailer w) := by
  unfold State.afterTrailer
  split
  · split
    · refine Keeps.trans (t := _) ?_ (keeps_framerStop _ _)
      refine Keeps.ite (Keeps.of_outline ((outline_enterClosing _ _ _ _).trans (outline_modVol _ _ _))) (Keeps.of_outline rfl)
    · exact keeps_endTaking _ _
  · exact Keeps.refl s

theorem keeps_afterTake (w : Nat) (s : State) : Keeps s (s.afterTake w) :=
  (Keeps.of_outline ((outline_closeForSync _ _).trans ((outline_closeCommitted _ _).trans (outline_closeAtLimit _ _)))).trans
    (keeps_afterTrailer _ _)

theorem keeps_lookAtBlock (w : Nat) (v : Volume) (c : Ctx) (b : Block) (s : State) : Keeps s (s.lookAtBlock w v c b) := by
  unfold State.lookAtBlock
  dsimp only
  split
  · exact (keeps_takeBlock _ _ _ _ s).trans (keeps_afterTake _ _)
  · refine Keeps.ite (Keeps.refl s) (Keeps.ite ?_ (Keeps.of_outline (outline_holdClose _ _ _ _)))
    exact ((Keeps.of_outline (outline_seal _ _)).trans (keeps_takeBlock _ _ _ _ _)).trans (keeps_afterTake _ _)

theorem keepsNext_takeBlock (w : BitVec 12) (s : State) : KeepsNext s (execTakeBlock w s) := by
  refine keepsNext_next (Keeps.ite (Keeps.refl s) ?_)
  split
  · split
    · exact Keeps.refl s
    · exact Keeps.ite (keeps_lookAtBlock _ _ _ _ s) (Keeps.refl s)
  · exact Keeps.refl s

theorem keepsNext_heldClose (w : BitVec 12) (s : State) : KeepsNext s (execHeldClose w s) := by
  refine keepsNext_next (Keeps.ite (Keeps.refl s) ?_)
  split
  · exact Keeps.refl s
  · exact Keeps.ite (Keeps.refl s) (Keeps.ite (Keeps.of_outline (outline_seal _ _))
      (Keeps.ite (Keeps.of_outline (outline_joinWaiting _ _)) (Keeps.refl s)))

theorem keepsNext_idleTimerExpiry (w : BitVec 12) (s : State) : KeepsNext s (execIdleTimerExpiry w s) := by
  refine keepsNext_next (Keeps.ite (Keeps.refl s) ?_)
  split
  · refine Keeps.ite ?_ (Keeps.refl s)
    unfold State.idleExpires
    refine Keeps.trans (t := _) ?_ (keeps_setStalled _)
    exact Keeps.of_outline ((outline_append _ _).trans ((outline_modCtx _ _ _).trans ((outline_modVol _ _ _).trans
      (outline_closeDue _ _ _))))
  · exact Keeps.refl s

/-! ### Directives at their owners -/

theorem outline_takeUp (t : Byte) (c : Instr) (s : State) : (s.takeUp t c).2.outline = s.outline := by
  unfold State.takeUp
  dsimp only
  split
  · rfl
  · split <;> rfl

/-- A directive keeps when what its owner does with it keeps. -/
theorem keeps_own (t : Byte) (c : Instr) {body : Option Nat → State → State} (h : ∀ o s, Keeps s (body o s)) (s : State) :
    Keeps s (s.own t c body) := by
  unfold State.own
  refine Keeps.ite (Keeps.refl s) ?_
  dsimp only
  have hu : Keeps s (s.takeUp t c).2 := Keeps.of_outline (outline_takeUp t c s)
  split
  · exact hu.trans (keeps_answer _ _ _ _)
  · exact hu.trans (h _ _)

theorem keeps_deny (o : Option Nat) (r : Reason) (s : State) : Keeps s (s.deny o r) := keeps_answer _ _ _ s

theorem keeps_ifJournal {o : Option Nat} {s : State} {f : State → State} (h : Keeps s (f s)) : Keeps s (s.ifJournal o f) := by
  unfold State.ifJournal
  exact Keeps.ite (keeps_deny _ _ s) h

theorem keeps_ifStore {o : Option Nat} {s : State} {f : State → State} (h : Keeps s (f s)) : Keeps s (s.ifStore o f) := by
  unfold State.ifStore
  exact Keeps.ite (keeps_answer _ _ _ s) h

theorem keeps_named {o : Option Nat} {w : BitVec 16} {n : BitVec 32} {s : State} {f : Volume → State}
    (h : ∀ v, Keeps s (f v)) : Keeps s (s.named o w n f) := by
  unfold State.named
  refine Keeps.ite (keeps_deny _ _ s) ?_
  split
  · exact keeps_deny _ _ s
  · exact Keeps.ite (h _) (keeps_deny _ _ s)

@[simp] theorem outline_appendSettings (r : BitVec 32) (k : Nat) (b : List Byte) (s : State) :
    (s.appendSettings r k b).outline = s.outline := outline_append _ _

@[simp] theorem outline_configureTaken (r : BitVec 32) (b : ConfigureBody) (o : Option Nat) (s : State) :
    (s.configureTaken r b o).outline = s.outline := (outline_appendSettings _ _ _ _).trans (outline_callSettings _ _)

@[simp] theorem outline_signatureTaken (r : BitVec 32) (m : BitVec 128) (o : Option Nat) (s : State) :
    (s.signatureTaken r m o).outline = s.outline := (outline_appendSettings _ _ _ _).trans (outline_callSettings _ _)

@[simp] theorem outline_tariffSelectTaken (r : BitVec 32) (b : Byte) (o : Option Nat) (s : State) :
    (s.tariffSelectTaken r b o).outline = s.outline := (outline_appendSettings _ _ _ _).trans (outline_callSettings _ _)

theorem keepsNext_configure (t : Byte) (r : BitVec 32) (b : ConfigureBody) (s : State) : KeepsNext s (execConfigure t r b s) :=
  keepsNext_next (keeps_own _ _ (fun _ s => Keeps.ite (keeps_deny _ _ s) (keeps_ifJournal (keeps_ifStore
    (Keeps.of_outline (outline_configureTaken _ _ _ s))))) s)

theorem keepsNext_signature (t : Byte) (r : BitVec 32) (m : BitVec 128) (s : State) : KeepsNext s (execSignature t r m s) :=
  keepsNext_next (keeps_own _ _ (fun _ s => Keeps.ite (keeps_deny _ _ s) (keeps_ifJournal (keeps_ifStore
    (Keeps.of_outline (outline_signatureTaken _ _ _ s))))) s)

@[simp] theorem outline_appendSnapshot (r : BitVec 32) (s : State) : (s.appendSnapshot r).outline = s.outline := by
  unfold State.appendSnapshot
  dsimp only
  split
  · refine (outline_appendNow _ _).trans ?_
    split
    · rfl
    · exact outline_passBlock s
  · exact outline_append _ _

theorem keepsNext_report (t : Byte) (r : BitVec 32) (s : State) : KeepsNext s (execReport t r s) :=
  keepsNext_next (keeps_own _ _ (fun _ s => keeps_ifJournal
    ((Keeps.of_outline (outline_appendSnapshot _ s)).trans (keeps_answer _ _ _ _))) s)

theorem keepsNext_inquire (t : Byte) (r : BitVec 32) (w : BitVec 16) (f : BitVec 32) (s : State) :
    KeepsNext s (execInquire t r w f s) :=
  keepsNext_next (keeps_own _ _ (fun _ s => Keeps.ite (keeps_deny _ _ s) (keeps_ifJournal
    ((Keeps.of_outline (outline_append _ _)).trans (keeps_answer _ _ _ _)))) s)

theorem keeps_closeSuspended (w : Nat) (r : BitVec 32) (o : Option Nat) (s : State) : Keeps s (s.closeSuspended w r o) :=
  ((keeps_answer _ _ _ s).trans (Keeps.of_outline (outline_enterClosing _ _ _ _))).trans (keeps_framerStop _ _)

theorem keepsNext_close (t : Byte) (r : BitVec 32) (w : BitVec 16) (n : BitVec 32) (s : State) :
    KeepsNext s (execClose t r w n s) := by
  refine keepsNext_next (keeps_own _ _ (fun o s => keeps_named (fun v => ?_)) s)
  split
  · exact ((keeps_answer _ _ _ s).trans (Keeps.of_outline (outline_enterClosing _ _ _ _))).trans (keeps_endTaking _ _)
  · exact keeps_closeSuspended _ _ _ s
  · exact keeps_deny _ _ s

theorem keepsNext_resolveResume (t : Byte) (r : BitVec 32) (w : BitVec 16) (n : BitVec 32) (s : State) :
    KeepsNext s (execResolveResume t r w n s) := by
  refine keepsNext_next (keeps_own _ _ (fun o s => keeps_named (fun v => Keeps.ite (keeps_ifJournal (keeps_ifStore ?_))
    (keeps_deny _ _ s))) s)
  exact Keeps.of_outline ((outline_append _ _).trans ((outline_rewriteVol _ _ _ _).trans (outline_loadIdle _ _)))

theorem keepsNext_resolveAbandon (t : Byte) (r : BitVec 32) (w : BitVec 16) (n : BitVec 32) (s : State) :
    KeepsNext s (execResolveAbandon t r w n s) :=
  keepsNext_next (keeps_own _ _ (fun _ s => keeps_named (fun _ => Keeps.ite (keeps_closeSuspended _ _ _ s)
    (keeps_deny _ _ s))) s)

theorem length_replaceRun {k : Nat} {es b : List TariffEntry} (h : k + es.length ≤ b.length) :
    (replaceRun k es b).length = b.length := by
  simp only [replaceRun, List.length_append, List.length_take, List.length_drop]
  omega

theorem keepsNext_tariffLoad (t : Byte) (r : BitVec 32) (b f : Byte) (es : List TariffEntry) (s : State) :
    KeepsNext s (execTariffLoad t r b f es s) := by
  refine keepsNext_next (keeps_own _ _ (fun o s => ?_) s)
  split
  · exact keeps_deny _ _ s
  · rename_i hv
    refine Keeps.ite (keeps_deny _ _ s) (keeps_ifJournal (keeps_ifStore ?_))
    have hlen : f.toNat + es.length ≤ 64 := by
      simp only [tariffLoadValid, Bool.not_eq_true, Bool.not_eq_false', Bool.and_eq_true, decide_eq_true_eq] at hv
      exact hv.1.2
    unfold State.tariffLoadTaken
    refine Keeps.trans (t := _) ?_ (Keeps.of_outline ((outline_appendSettings _ _ _ _).trans (outline_callSettings _ _)))
    refine ⟨rfl, rfl, id, s.latched.le_refl, ⟨[], by simp, by simp⟩, fun o => ?_⟩
    have h0 := o.bank0
    have h1 := o.bank1
    simp only [State.outline] at h0 h1
    refine ⟨o.1, o.2, o.3, o.4, o.5, o.6, ?_, ?_, o.9, o.10, o.11⟩
    · simp only [State.outline, TariffUnit.load]
      split
      · exact (length_replaceRun (by omega)).trans h0
      · exact h0
    · simp only [State.outline, TariffUnit.load]
      split
      · exact h1
      · exact (length_replaceRun (by omega)).trans h1

theorem keepsNext_tariffSelect (t : Byte) (r : BitVec 32) (b : Byte) (s : State) : KeepsNext s (execTariffSelect t r b s) :=
  keepsNext_next (keeps_own _ _ (fun _ s => Keeps.ite (keeps_deny _ _ s) (keeps_ifJournal (keeps_ifStore
    (Keeps.of_outline (outline_tariffSelectTaken _ _ _ s))))) s)

end Sys2Proof.Machine
end

