-- ==== Sys2Proof/Laws/KeepsUnits.lean ====
section
/-! SUPPORT. What the read unit, the retention unit, the audit unit and the close sequence keep. -/

namespace Sys2Proof.Machine

/-! ### Reading: the cache -/

/-- A change of the cache that does not lengthen it. -/
theorem keeps_cache {s t : State} (h : t = { s with rd := t.rd }) (hl : t.rd.cache.length ≤ s.rd.cache.length) : Keeps s t := by
  rw [h]
  exact keeps_shrink rfl rfl rfl rfl rfl (List.Sublist.refl _) (Nat.le_refl _) (List.Sublist.refl _) hl rfl rfl
    (Nat.le_refl _) (Nat.le_refl _)

theorem keeps_uncache (n i : Nat) (s : State) : Keeps s (s.uncache n i) :=
  keeps_cache rfl (List.length_filter_le _ _)

theorem outline_setFetch (n i : Nat) (st : FetchState) (s : State) : (s.setFetch n i st).outline = s.outline := by
  simp [State.setFetch, State.outline]

theorem cached_mem {n i : Nat} {s : State} {c : CacheEntry} (h : s.cached n i = some c) :
    c ∈ s.rd.cache ∧ c.serial = n ∧ c.index = i := by
  have h1 := List.mem_of_find?_eq_some h
  have h2 := List.find?_some h
  simp only [Bool.and_eq_true, beq_iff_eq] at h2
  exact ⟨h1, h2.1, h2.2⟩

/-- The entry of a key that is in the cache may be moved to its front. -/
theorem keeps_touch {c d : CacheEntry} {n i : Nat} (s : State) (h : s.cached n i = some d) (hs : c.serial = n)
    (hi : c.index = i) : Keeps s (s.touch c) := by
  obtain ⟨hm, h1, h2⟩ := cached_mem h
  refine keeps_cache rfl ?_
  simp only [State.touch, State.uncache, List.length_cons]
  have : (s.rd.cache.filter fun e => !(e.serial == c.serial && e.index == c.index)).length < s.rd.cache.length := by
    refine List.length_filter_lt_length_iff_exists.mpr ⟨d, hm, ?_⟩
    simp [h1, h2, hs, hi]
  omega

theorem length_evictOldest (l : List CacheEntry) (h : l.all (·.isFetching) = false) :
    (evictOldest l).length + 1 = l.length := by
  induction l with
  | nil => simp at h
  | cons e es ih =>
    unfold evictOldest
    by_cases he : e.isFetching
    · simp only [he, List.all_cons, Bool.true_and] at h
      simp [he, ih h]
    · simp [he]

theorem length_makeCacheRoom {l m : List CacheEntry} (h : makeCacheRoom l = some m) :
    m.length + 1 ≤ max 8 l.length := by
  unfold makeCacheRoom at h
  split at h
  · cases h
    omega
  · split at h
    · cases h
    · rename_i hf
      cases h
      have := length_evictOldest l.reverse (by simpa using hf)
      simp only [List.length_reverse] at this ⊢
      omega

theorem keeps_beginFetch {a : Bool} {w n i : Nat} {e : MapEntry} {ws : List Nat} {s t : State}
    (h : s.beginFetch a w n i e ws = some t) : Keeps s t := by
  unfold State.beginFetch at h
  cases hm : makeCacheRoom s.rd.cache with
  | none => simp [hm] at h
  | some m =>
    simp only [hm, Option.map_some, Option.some.injEq] at h
    subst h
    refine Keeps.trans (t := _) ?_ (Keeps.of_outline (outline_enqueue _ _))
    have hl := length_makeCacheRoom hm
    refine ⟨rfl, rfl, id, s.latched.le_refl, ⟨[], by simp, by simp⟩, fun o => ?_⟩
    refine ⟨o.1, o.2, o.3, o.4, o.5, ?_, o.7, o.8, o.9, o.10, o.11⟩
    have := o.cache
    simp only [State.outline] at this
    simp only [State.outline, List.length_cons]
    omega

theorem outline_setWait (t : Nat) (w : ReadWait) (s : State) : (s.setWait t w).outline = s.outline :=
  outline_modTag (f := fun e => { e with wait := w }) (fun _ => rfl) _ _

theorem keeps_readAhead (v : Volume) (k b : Nat) (s : State) : Keeps s (s.readAhead v k b) := by
  unfold State.readAhead
  split
  · rename_i e' _ _
    split
    · cases h : s.beginFetch true v.window v.serial (k + 1) e' [] with
      | none => exact Keeps.refl s
      | some t => exact keeps_beginFetch h
    · exact Keeps.refl s
  · exact Keeps.refl s

theorem keeps_deliver (e : TagEntry) (b : Block) (s : State) : Keeps s (s.deliver e b) := by
  have h : Keeps s ((s.send (.clientData e.tag e.done b)).modTag e.tag fun e => { e with done := e.done + 1, wait := .idle }) :=
    (keeps_send rfl s).trans
      (Keeps.of_outline (outline_modTag (f := fun e => { e with done := e.done + 1, wait := .idle }) (fun _ => rfl) _ _))
  unfold State.deliver
  exact Keeps.ite (h.trans (keeps_finish _ _ _)) h

theorem keeps_readError (e : TagEntry) (s : State) : Keeps s (s.readError e) := keeps_complete _ _ _ _ s

theorem keeps_demand (e : TagEntry) (v : Volume) (k : Nat) (m : MapEntry) (s : State) : Keeps s (s.demand e v k m) := by
  unfold State.demand
  refine Keeps.ite (keeps_finish _ _ s) ?_
  split
  · rename_i h
    exact (keeps_beginFetch h).trans (Keeps.of_outline (outline_setWait _ _ _))
  · exact Keeps.of_outline ((outline_setWait _ _ _).trans rfl)

theorem outline_promote (n i : Nat) (s : State) : (s.promote n i).outline = s.outline := rfl

theorem keeps_serveMapped (e : TagEntry) (v : Volume) (b k : Nat) (m : MapEntry) (s : State) :
    Keeps s (s.serveMapped e v b k m) := by
  unfold State.serveMapped
  split
  · rename_i c hc
    split
    · have hd := (keeps_touch (c := c) s hc (cached_mem hc).2.1 (cached_mem hc).2.2).trans
        (keeps_deliver e (‹List Block›.getD (b - m.first) zeroBlock) _)
      exact Keeps.ite (hd.trans (keeps_readAhead _ _ _ _)) hd
    · refine Keeps.ite (keeps_finish _ _ s) (Keeps.of_outline ?_)
      split
      · exact (outline_promote _ _ _).trans ((outline_setWait _ _ _).trans (outline_setFetch _ _ _ _))
      · exact (outline_setWait _ _ _).trans (outline_setFetch _ _ _ _)
    · exact (keeps_uncache _ _ s).trans (keeps_demand _ _ _ _ _)
  · exact Keeps.ite (keeps_readError _ s) (keeps_demand _ _ _ _ s)

theorem keeps_serveOpen (e : TagEntry) (v : Volume) (c : Ctx) (b : Nat) (s : State) : Keeps s (s.serveOpen e v c b) := by
  unfold State.serveOpen
  split
  · split
    · exact keeps_serveMapped _ _ _ _ _ s
    · exact keeps_deliver _ _ s
  · split
    · exact Keeps.ite (keeps_readError _ s) (keeps_deliver _ _ s)
    · exact Keeps.ite (keeps_deliver _ _ s) (keeps_deliver _ _ s)

theorem keeps_serveClosed (e : TagEntry) (v : Volume) (b : Nat) (s : State) : Keeps s (s.serveClosed e v b) := by
  unfold State.serveClosed
  split
  · split
    · exact keeps_serveMapped _ _ _ _ _ s
    · exact keeps_readError _ s
  · exact keeps_deliver _ _ s

theorem keeps_deliverRing (e : TagEntry) (r : Nat) (b : Block) (s : State) : Keeps s (s.deliverRing e r b) :=
  (keeps_deliver e b s).trans (Keeps.of_outline (outline_advancePointer _ _))

theorem keeps_serveJournal (e : TagEntry) (r : Nat) (s : State) : Keeps s (s.serveJournal e r) := by
  unfold State.serveJournal
  refine Keeps.ite (keeps_deliver _ _ s) (Keeps.ite (keeps_deliverRing _ _ _ s) ?_)
  split
  · exact Keeps.ite (keeps_deliverRing _ _ _ s) (Keeps.ite (keeps_finish _ _ s) (Keeps.of_outline (outline_setWait _ _ _)))
  · exact Keeps.ite (keeps_finish _ _ s) (Keeps.of_outline ((outline_setWait _ _ _).trans (outline_enqueue _ _)))

theorem keeps_serve (e : TagEntry) (s : State) : Keeps s (s.serve e) := by
  unfold State.serve
  dsimp only
  split
  · exact Keeps.ite (keeps_serveJournal _ _ s) (keeps_deliver _ _ s)
  · split
    · exact keeps_deliver _ _ s
    · split
      · exact Keeps.ite (keeps_serveClosed _ _ _ s) (keeps_serveOpen _ _ _ _ s)
      · exact keeps_serveClosed _ _ _ s

theorem keeps_serveTag (t : Nat) (s : State) : Keeps s (s.serveTag t) := by
  unfold State.serveTag
  split
  · exact Keeps.refl s
  · exact Keeps.ite (keeps_serve _ s) (Keeps.refl s)

theorem keepsNext_serveBlock (t : Byte) (s : State) : KeepsNext s (execServeBlock t s) :=
  keepsNext_next (Keeps.ite (Keeps.refl s) (keeps_serveTag _ s))

/-! ### Reading: the outcome of a fetch -/

theorem keeps_wakeRead (t : Nat) (s : State) : Keeps s (wakeRead t s) :=
  (Keeps.of_outline (outline_setWait _ _ _)).trans (keeps_serveTag _ _)

theorem keeps_roomPass (s : State) : Keeps s s.roomPass := by
  unfold State.roomPass
  refine Keeps.trans (t := _) ?_ (keeps_each keeps_wakeRead _ _)
  exact Keeps.of_outline rfl

theorem outline_recordDamage (w n : Nat) (s : State) : (s.recordDamage w n).outline = s.outline := by
  unfold State.recordDamage
  split
  · rfl
  · split
    · rfl
    · split
      · split
        · rfl
        · exact outline_rewriteVol _ _ _ _
      · split
        · exact outline_unexpire _ _ _ _
        · rfl
      · rfl

theorem keeps_failWaiter (t : Nat) (s : State) : Keeps s (failWaiter t s) := by
  unfold failWaiter
  split
  · exact Keeps.refl s
  · exact keeps_readError _ s

theorem keeps_serveWaiter (c : CacheEntry) (bs : List Block) (t : Nat) (s : State) : Keeps s (serveWaiter c bs t s) := by
  unfold serveWaiter
  split
  · exact Keeps.refl s
  · rename_i e _
    have h1 : Keeps s (if (s.cached c.serial c.index).isSome then s.touch { c with st := .ready bs } else s) := by
      split
      · rename_i hc
        obtain ⟨d, hd⟩ := Option.isSome_iff_exists.mp hc
        exact keeps_touch (c := { c with st := .ready bs }) s hd rfl rfl
      · exact Keeps.refl s
    have h2 := h1.trans (keeps_deliver e (bs.getD (e.offset + e.done - c.entry.first) zeroBlock) _)
    dsimp only
    split
    · exact Keeps.ite (h2.trans (keeps_readAhead _ _ _ _)) h2
    · exact h2

theorem keeps_fetchGood (c : CacheEntry) (a : Bool) (f : Option FaultClass) (ws : List Nat) (bs : List Block) (s : State) :
    Keeps s (s.fetchGood c a f ws bs) := by
  unfold State.fetchGood
  refine Keeps.trans (t := _) ?_ (keeps_roomPass _)
  refine Keeps.trans (t := _) ?_ (keeps_each (keeps_serveWaiter c bs) _ _)
  have h1 : Keeps s (s.setFetch c.serial c.index (.ready bs)) := Keeps.of_outline (outline_setFetch _ _ _ _)
  exact Keeps.ite ((h1.trans (keeps_setStoreFault _)).trans (Keeps.of_outline (outline_appendFault _ _))) h1

theorem keeps_demandFailed (c : CacheEntry) (k : FaultClass) (ws : List Nat) (s : State) : Keeps s (s.demandFailed c k ws) := by
  unfold State.demandFailed
  have h1 := (keeps_uncache c.serial c.index s).trans (keeps_each keeps_failWaiter ws _)
  exact Keeps.ite h1 ((h1.trans (Keeps.of_outline ((outline_appendFault _ _).trans (outline_recordDamage _ _ _)))).trans
    (keeps_setDamage _))

theorem keeps_fetchFailed (c : CacheEntry) (a : Bool) (f : Option FaultClass) (ws : List Nat) (k : FaultClass) (s : State) :
    Keeps s (s.fetchFailed c a f ws k) := by
  unfold State.fetchFailed
  have hu := keeps_uncache c.serial c.index s
  refine Keeps.ite (Keeps.ite (hu.trans (keeps_roomPass _)) (Keeps.ite ?_ (Keeps.of_outline (outline_enqueue _ _)))) ?_
  · exact (hu.trans (keeps_each (f := unavailable) (fun _ s => keeps_finish _ _ s) ws _)).trans (keeps_roomPass _)
  · refine Keeps.ite (Keeps.of_outline ((outline_enqueue _ _).trans (outline_setFetch _ _ _ _))) (Keeps.ite ?_ ?_)
    · exact (Keeps.of_outline (outline_setFetch _ _ _ _)).trans (keeps_roomPass _)
    · exact (keeps_demandFailed _ _ _ s).trans (keeps_roomPass _)

theorem keeps_fetchEnds (n i : Nat) (out : Except FaultClass (List Block)) (s : State) : Keeps s (s.fetchEnds n i out) := by
  unfold State.fetchEnds
  split
  · exact Keeps.refl s
  · split
    · split
      · exact keeps_fetchFailed _ _ _ _ _ s
      · split
        · exact keeps_fetchGood _ _ _ _ _ s
        · exact keeps_fetchFailed _ _ _ _ _ s
    · exact Keeps.refl s

theorem keeps_journalReadEnds (t r : Nat) (out : Except FaultClass (List Block)) (s : State) :
    Keeps s (s.journalReadEnds t r out) := by
  unfold State.journalReadEnds
  split
  · exact Keeps.refl s
  · split
    · split
      · exact Keeps.ite (keeps_serveJournal _ _ s) (keeps_deliverRing _ _ _ s)
      · exact Keeps.ite (keeps_finish _ _ s) (Keeps.of_outline (outline_enqueue _ _))
      · exact Keeps.ite (keeps_readError _ s) (Keeps.of_outline ((outline_setWait _ _ _).trans (outline_enqueue _ _)))
    · exact Keeps.refl s

/-! ### Retention -/

@[simp] theorem outline_calendarTaken (r : BitVec 32) (d : BitVec 16) (o : Option Nat) (s : State) :
    (s.calendarTaken r d o).outline = s.outline := outline_callSettings _ _

theorem keepsNext_calendar (t : Byte) (r : BitVec 32) (d : BitVec 16) (s : State) : KeepsNext s (execCalendar t r d s) :=
  keepsNext_next (keeps_own _ _ (fun _ s => Keeps.ite (keeps_deny _ _ s) (keeps_ifStore
    (Keeps.of_outline (outline_calendarTaken _ _ _ s)))) s)

@[simp] theorem outline_requestSweep (d r : Nat) (s : State) : (s.requestSweep d r).outline = s.outline := by
  unfold State.requestSweep
  split <;> rfl

theorem outline_examineDue (v : Volume) (w : Sweep) (s : State) : (s.examineDue v w).1.outline = s.outline := by
  unfold State.examineDue
  split
  · rfl
  · split
    · rfl
    · split
      · rfl
      · exact outline_rewriteVol _ _ _ _

theorem outline_examineWindow (w : Sweep) (s : State) : (s.examineWindow w).1.outline = s.outline := by
  unfold State.examineWindow
  split
  · rfl
  · split
    · exact outline_examineDue _ _ _
    · rfl

theorem keeps_sweepEnds (w : Sweep) (s : State) : Keeps s (s.sweepEnds w) := by
  unfold State.sweepEnds
  refine Keeps.trans (t := _) ?_ (Keeps.of_outline (outline_append _ _))
  exact Keeps.ite (keeps_setBlocked s) (Keeps.refl s)

theorem keeps_sweepStep (w : Sweep) (s : State) : Keeps s (s.sweepStep w) := by
  unfold State.sweepStep
  have h : Keeps s { (s.examineWindow w).1 with
      ret := { (s.examineWindow w).1.ret with sweep := some { (s.examineWindow w).2 with next := w.next + 1 } } } :=
    Keeps.of_outline (outline_examineWindow w s)
  exact Keeps.ite (h.trans (keeps_sweepEnds _ _)) h

theorem keepsNext_sweepExamine (s : State) : KeepsNext s (execSweepExamine s) := by
  refine keepsNext_next ?_
  split
  · exact Keeps.refl s
  · exact Keeps.ite (keeps_sweepStep _ s) (Keeps.refl s)

theorem outline_recomputeVolume (k : Nat) (e : RetentionEntry) (v : Volume) (s : State) :
    (recomputeVolume k e v s).outline = s.outline := by
  unfold recomputeVolume
  split
  · exact outline_rewriteVol _ _ _ _
  · rfl

theorem outline_retentionTaken (r : BitVec 32) (k : Byte) (d g : BitVec 16) (c : Byte) (o : Option Nat) (s : State) :
    (s.retentionTaken r k d g c o).outline = s.outline := by
  unfold State.retentionTaken
  refine (outline_appendSettings _ _ _ _).trans ((outline_callSettings _ _).trans
    ((outline_each (outline_recomputeVolume _ _) _ _).trans ?_))
  simp [State.outline]

theorem keepsNext_retention (t : Byte) (r : BitVec 32) (k : Byte) (d g : BitVec 16) (c : Byte) (s : State) :
    KeepsNext s (execRetention t r k d g c s) :=
  keepsNext_next (keeps_own _ _ (fun _ s => Keeps.ite (keeps_deny _ _ s) (keeps_ifJournal (keeps_ifStore
    (Keeps.of_outline (outline_retentionTaken _ _ _ _ _ _ s))))) s)

theorem keeps_holdTaken (r : BitVec 32) (h : Hold) (o : Option Nat) (s : State) (hl : s.ret.holds.length < 64) :
    Keeps s (s.holdTaken r h o) := by
  unfold State.holdTaken
  refine Keeps.trans (t := _) ?_ (Keeps.of_outline ((outline_append _ _).trans ((outline_callSettings _ _).trans
    (outline_each (f := fun (v : Volume) => State.unexpire v.window v.serial id) (fun _ _ => outline_unexpire _ _ _ _) _ _))))
  refine ⟨rfl, rfl, id, s.latched.le_refl, ⟨[], by simp, by simp⟩, fun o => ?_⟩
  refine ⟨o.1, o.2, o.3, o.4, o.5, o.6, o.7, o.8, o.9, ?_, o.11⟩
  have := (perm_insertBy (·.id) h s.ret.holds).length_eq
  simp only [List.length_cons] at this
  simp only [State.outline]
  omega

theorem keepsNext_hold (t : Byte) (r : BitVec 32) (i : BitVec 16) (a : Byte) (x f l : BitVec 16) (s : State) :
    KeepsNext s (execHold t r i a x f l s) := by
  refine keepsNext_next (keeps_own _ _ (fun o s => Keeps.ite (keeps_deny _ _ s) (Keeps.ite (keeps_deny _ _ s) ?_)) s)
  split
  · exact keeps_deny _ _ s
  · rename_i h
    exact keeps_ifJournal (keeps_ifStore (keeps_holdTaken _ _ _ s (by omega)))

theorem keeps_releaseTaken (r : BitVec 32) (h : Hold) (o : Option Nat) (s : State) : Keeps s (s.releaseTaken r h o) := by
  unfold State.releaseTaken
  refine Keeps.trans (t := _) ?_ (Keeps.of_outline ((outline_append _ _).trans (outline_callSettings _ _)))
  exact keeps_shrink rfl rfl rfl rfl rfl (List.Sublist.refl _) (Nat.le_refl _) (List.Sublist.refl _) (Nat.le_refl _) rfl rfl
    (List.length_filter_le _ _) (Nat.le_refl _)

theorem keepsNext_release (t : Byte) (r : BitVec 32) (i : BitVec 16) (s : State) : KeepsNext s (execRelease t r i s) := by
  refine keepsNext_next (keeps_own _ _ (fun o s => ?_) s)
  split
  · exact keeps_deny _ _ s
  · exact keeps_ifJournal (keeps_ifStore (keeps_releaseTaken _ _ _ s))

theorem outline_withdrawPatrol (n : Nat) (s : State) : (s.withdrawPatrol n).outline = s.outline := by
  unfold State.withdrawPatrol
  split <;> rfl

theorem keeps_releaseCache (n : Nat) (s : State) : Keeps s (s.releaseCache n) := by
  unfold State.releaseCache
  refine Keeps.trans (t := _) ?_ (keeps_roomPass _)
  refine Keeps.trans (t := _) ?_ (Keeps.of_outline ((outline_disown _ _).trans (outline_withdraw _ _)))
  exact keeps_cache rfl (List.length_filter_le _ _)

theorem outline_releaseEntry (e : MapEntry) (s : State) : (releaseEntry e s).outline = s.outline := outline_zoneTest _ _

theorem outline_releaseMap (v : Volume) (s : State) : (s.releaseMap v).outline = s.outline := outline_passWaiting _

theorem outline_reclaimStep6 (s : State) : s.reclaimStep6.outline = s.outline := by
  unfold State.reclaimStep6
  split
  · rfl
  · split
    · exact outline_callCatalogue _ _ _
    · rfl

theorem outline_raiseFloor (v : Volume) (s : State) : (s.raiseFloor v).outline = s.outline := by
  unfold State.raiseFloor
  split
  · exact outline_callSettings _ _
  · rfl

theorem keeps_beginReclaim (v : Volume) (l : List Expiring) (s : State) : Keeps s (s.beginReclaim v l) := by
  unfold State.beginReclaim
  refine Keeps.trans (t := _) ?_ (Keeps.of_outline ((outline_append _ _).trans ((outline_raiseFloor _ _).trans
    ((outline_releaseMap _ _).trans (outline_each outline_releaseEntry _ _)))))
  refine Keeps.trans (t := _) ?_ (keeps_releaseCache _ _)
  exact Keeps.of_outline (outline_withdrawPatrol _ _)

theorem keepsNext_reclaimBegin (s : State) : KeepsNext s (execReclaimBegin s) := by
  refine keepsNext_next ?_
  split
  · split
    · exact Keeps.refl s
    · exact Keeps.ite (keeps_beginReclaim _ _ s) (Keeps.refl s)
  · exact Keeps.refl s

theorem outline_endReclaim (w n : Nat) (s : State) : (s.endReclaim w n).outline = s.outline := by
  unfold State.endReclaim
  split <;> rfl

/-! ### Audit -/

theorem keeps_acceptTaken (r : BitVec 32) (v : Volume) (o : Option Nat) (s : State) : Keeps s (s.acceptTaken r v o) :=
  (Keeps.of_outline ((outline_append _ _).trans (outline_rewriteVol _ _ _ _))).trans (keeps_answer _ _ _ _)

theorem keepsNext_accept (t : Byte) (r : BitVec 32) (w : BitVec 16) (n : BitVec 32) (s : State) :
    KeepsNext s (execAccept t r w n s) :=
  keepsNext_next (keeps_own _ _ (fun _ s => keeps_named (fun _ => Keeps.ite (keeps_deny _ _ s)
    (Keeps.ite (keeps_answer _ _ _ s) (keeps_ifJournal (keeps_acceptTaken _ _ _ s))))) s)

theorem keeps_queueVerify (r : BitVec 32) (v : Volume) (s : State) (h : s.audit.queue.length < 16) :
    Keeps s (s.queueVerify r v) := by
  refine ⟨rfl, rfl, id, s.latched.le_refl, ⟨[], by simp [State.queueVerify, State.modVol], by simp⟩, fun o => ?_⟩
  refine ⟨o.1, o.2, o.3, o.4, o.5, o.6, o.7, o.8, o.9, o.10, ?_⟩
  simp only [State.outline, State.queueVerify, State.modVol, List.length_append, List.length_cons, List.length_nil]
  omega

theorem keepsNext_verify (t : Byte) (r : BitVec 32) (w : BitVec 16) (n : BitVec 32) (s : State) :
    KeepsNext s (execVerify t r w n s) := by
  refine keepsNext_next (keeps_own _ _ (fun o s => keeps_named (fun v => Keeps.ite (keeps_deny _ _ s)
    (Keeps.ite (keeps_answer _ _ _ s) ?_))) s)
  split
  · exact keeps_deny _ _ s
  · exact (keeps_queueVerify _ _ s (by omega)).trans (keeps_answer _ _ _ _)

theorem keeps_unqueueVerify (v : Volume) (s : State) : Keeps s (s.unqueueVerify v) :=
  keeps_shrink rfl rfl rfl rfl rfl (List.Sublist.refl _) (Nat.le_refl _) (List.Sublist.refl _) (Nat.le_refl _) rfl rfl
    (Nat.le_refl _) (List.length_filter_le _ _)

theorem keepsNext_revoke (t : Byte) (r : BitVec 32) (w : BitVec 16) (n : BitVec 32) (s : State) :
    KeepsNext s (execRevoke t r w n s) :=
  keepsNext_next (keeps_own _ _ (fun _ s => keeps_named (fun _ => Keeps.ite (keeps_deny _ _ s)
    (Keeps.ite (keeps_deny _ _ s) ((keeps_unqueueVerify _ s).trans (keeps_answer _ _ _ _))))) s)

theorem keeps_readRecovered (v : Volume) (i : Nat) (e : MapEntry) (f : Option FaultClass) (s : State) :
    Keeps s (s.readRecovered v i e f) := by
  unfold State.readRecovered
  split
  · exact Keeps.refl s
  · exact Keeps.ite ((keeps_setStoreFault s).trans (Keeps.of_outline (outline_appendFault _ _))) (Keeps.refl s)

theorem keeps_recordVerdict (w n : Nat) (d : Verdict) (s : State) : Keeps s (s.recordVerdict w n d) := by
  unfold State.recordVerdict
  split
  · split
    · exact Keeps.refl s
    · split
      · refine Keeps.trans (t := _) ?_ (keeps_setDamage _)
        exact Keeps.ite (Keeps.refl s) (Keeps.of_outline (outline_rewriteVol _ _ _ _))
      · exact Keeps.refl s
  · exact Keeps.refl s

theorem keeps_endVerification (w n : Nat) (r : Option Nat) (d : Verdict) (k : Nat) (f : Option (Nat × FaultClass))
    (s : State) : Keeps s (s.endVerification w n r d k f) :=
  (keeps_recordVerdict w n d s).trans (Keeps.of_outline (outline_append _ _))

@[simp] theorem outline_modPatrol (f : Patrol → Patrol) (s : State) : (s.modPatrol f).outline = s.outline := rfl

theorem keeps_endPatrol (w n : Nat) (d : Verdict) (k : Nat) (f : Option (Nat × FaultClass)) (s : State) :
    Keeps s (s.endPatrol w n d k f) :=
  (Keeps.of_outline (outline_modPatrol _ _)).trans (keeps_endVerification _ _ _ _ _ _ _)

theorem keeps_patrolSegment (v : Volume) (i : Nat) (s : State) : Keeps s (s.patrolSegment v i) := by
  unfold State.patrolSegment
  split
  · exact Keeps.ite (keeps_endPatrol _ _ _ _ _ s) (keeps_endPatrol _ _ _ _ _ s)
  · exact Keeps.ite (keeps_endPatrol _ _ _ _ _ s)
      (Keeps.of_outline ((outline_modPatrol _ _).trans (outline_enqueue _ _)))

theorem keeps_movePatrol (s : State) : Keeps s s.movePatrol := by
  unfold State.movePatrol
  split
  · exact Keeps.of_outline (outline_modPatrol _ _)
  · exact (Keeps.of_outline (outline_modPatrol _ _)).trans (keeps_patrolSegment _ _ _)

theorem keepsNext_patrolTurn (s : State) : KeepsNext s (execPatrolTurn s) := by
  refine keepsNext_next (Keeps.ite (Keeps.refl s) ?_)
  split
  · exact keeps_movePatrol s
  · exact Keeps.ite (keeps_patrolSegment _ _ s) (keeps_movePatrol s)

theorem keeps_patrolOutcome (v : Volume) (i : Nat) (e : MapEntry) (f : Option FaultClass)
    (out : Except FaultClass (BitVec 64)) (s : State) : Keeps s (s.patrolOutcome v i e f out) := by
  unfold State.patrolOutcome
  split
  · exact Keeps.of_outline ((outline_modPatrol _ _).trans (outline_enqueue _ _))
  · exact keeps_endPatrol _ _ _ _ _ s
  · have h := (keeps_readRecovered v i e f s).trans
      (Keeps.of_outline (outline_modPatrol (fun p => { p with active := none, index := i + 1, reg := ‹BitVec 64› }) _))
    exact Keeps.ite (h.trans (keeps_endPatrol _ _ _ _ _ _)) h

theorem keeps_patrolReadEnds (n i : Nat) (out : Except FaultClass (List Block)) (s : State) :
    Keeps s (s.patrolReadEnds n i out) := by
  unfold State.patrolReadEnds
  dsimp only
  split
  · exact Keeps.refl s
  · refine Keeps.ite (Keeps.refl s) ?_
    split
    · exact Keeps.of_outline (outline_modPatrol _ _)
    · split
      · exact Keeps.of_outline (outline_modPatrol _ _)
      · exact keeps_patrolOutcome _ _ _ _ _ s

@[simp] theorem outline_modCurrent (f : Verification → Verification) (s : State) : (s.modCurrent f).outline = s.outline := rfl

theorem keeps_endQueued (c : Verification) (d : Verdict) (k : Nat) (f : Option (Nat × FaultClass)) (s : State) :
    Keeps s (s.endQueued c d k f) :=
  (Keeps.of_outline (outline_modCurrent _ _)).trans (keeps_endVerification _ _ _ _ _ _ _)

theorem keeps_verifySegment (c : Verification) (v : Volume) (i : Nat) (s : State) : Keeps s (s.verifySegment c v i) := by
  unfold State.verifySegment
  split
  · exact Keeps.ite (keeps_endQueued _ _ _ _ s) (keeps_endQueued _ _ _ _ s)
  · exact Keeps.ite (keeps_endQueued _ _ _ _ s) (Keeps.of_outline (outline_enqueue _ _))

theorem keepsNext_queueVerificationBegin (s : State) : KeepsNext s (execQueueVerificationBegin s) := by
  refine keepsNext_next ?_
  split
  · rename_i q rest _ hq
    split
    · exact Keeps.refl s
    · refine Keeps.ite ?_ (Keeps.refl s)
      refine Keeps.trans (t := _) ?_ (keeps_verifySegment _ _ _ _)
      refine keeps_shrink rfl rfl rfl rfl rfl (List.Sublist.refl _) (Nat.le_refl _) (List.Sublist.refl _) (Nat.le_refl _)
        rfl rfl (Nat.le_refl _) ?_
      simp [hq]
  · exact Keeps.refl s

theorem keeps_queueOutcome (c : Verification) (v : Volume) (e : MapEntry) (out : Except FaultClass (BitVec 64)) (s : State) :
    Keeps s (s.queueOutcome c v e out) := by
  unfold State.queueOutcome
  split
  · exact Keeps.of_outline ((outline_modCurrent _ _).trans (outline_enqueue _ _))
  · exact keeps_endQueued _ _ _ _ s
  · exact ((keeps_readRecovered v c.index e c.firstFail s).trans (Keeps.of_outline (outline_modCurrent _ _))).trans
      (keeps_verifySegment _ _ _ _)

theorem keeps_queueReadEnds (n i : Nat) (out : Except FaultClass (List Block)) (s : State) :
    Keeps s (s.queueReadEnds n i out) := by
  unfold State.queueReadEnds
  split
  · exact Keeps.refl s
  · refine Keeps.ite (Keeps.refl s) ?_
    split
    · exact Keeps.refl s
    · split
      · exact Keeps.refl s
      · exact keeps_queueOutcome _ _ _ _ s

/-! ### CLEAR_ATTENTION -/

/-- CLEAR_ATTENTION keeps everything but the latched items it names. -/
theorem keepsNext_clearAttention (t : Byte) (r : BitVec 32) (i : BitVec 16) (s u : State)
    (h : execClearAttention t r i s = .next u) : u.pending = s.pending ∧ u.resetHeld = s.resetHeld
      ∧ (s.isHalted = true → u.isHalted = true) ∧ (∃ ms, u.sent = s.sent ++ ms ∧ ∀ m ∈ ms, m.isStoreRequest = false)
      ∧ (s.outline.Ok → u.outline.Ok) := by
  have weak : ∀ {a b : State}, Keeps a b → b.pending = a.pending ∧ b.resetHeld = a.resetHeld
      ∧ (a.isHalted = true → b.isHalted = true) ∧ (∃ ms, b.sent = a.sent ++ ms ∧ ∀ m ∈ ms, m.isStoreRequest = false)
      ∧ (a.outline.Ok → b.outline.Ok) := fun k => ⟨k.pending, k.resetHeld, k.halted, k.sent, k.ok⟩
  simp only [execClearAttention, Host.Outcome.next.injEq] at h
  subst h
  unfold State.own
  split
  · exact weak (Keeps.refl s)
  · have hu : Keeps s (s.takeUp t (.clearAttention t r i)).2 := Keeps.of_outline (outline_takeUp _ _ s)
    dsimp only
    split
    · exact weak (hu.trans (keeps_answer _ _ _ _))
    · split
      · exact weak (hu.trans (keeps_deny _ _ _))
      · obtain ⟨u1, u2, u3, ⟨ms, hm, hms⟩, u5⟩ := weak hu
        generalize (s.takeUp t (.clearAttention t r i)).2 = x at *
        generalize (s.takeUp t (.clearAttention t r i)).1 = o at *
        obtain ⟨k1, k2, k3, ⟨ns, hn, hns⟩, k5⟩ := weak (keeps_answer o .good none { x with latched := x.latched.clear i })
        refine ⟨k1.trans u1, k2.trans u2, fun hc => k3 (u3 hc), ⟨ms ++ ns, ?_, ?_⟩, fun ok => k5 ?_⟩
        · rw [hn, hm, List.append_assoc]
        · intro m h
          rcases List.mem_append.mp h with h | h
          · exact hms m h
          · exact hns m h
        · have o := u5 ok
          exact ⟨o.1, o.2, o.3, o.4, o.5, o.6, o.7, o.8, o.9, o.10, o.11⟩

/-! ### The close sequence -/

theorem outline_supersedeOne (u : Volume) (s : State) : (supersedeOne u s).outline = s.outline := outline_rewriteVol _ _ _ _

theorem keeps_closeVerdict (w : Nat) (v : Volume) (c : Ctx) (k : Closing) (s : State) : Keeps s (s.closeVerdict w v c k) := by
  unfold State.closeVerdict
  dsimp only
  refine Keeps.trans (t := _) ?_ (Keeps.of_outline ((outline_modCtx _ _ _).trans
    ((outline_each outline_supersedeOne _ _).trans (outline_modVol _ _ _))))
  refine Keeps.trans (t := (if verdictOf v c (flagsOf v c) == .discrepant then s.setDiscrepant else s)) ?_
    (Keeps.of_outline rfl)
  exact Keeps.ite (keeps_setDiscrepant s) (Keeps.refl s)

theorem keepsNext_closeVerdict (w : BitVec 12) (s : State) : KeepsNext s (execCloseVerdict w s) := by
  refine keepsNext_next ?_
  split
  · split
    · exact Keeps.refl s
    · exact Keeps.ite (keeps_closeVerdict _ _ _ _ s) (Keeps.refl s)
  · exact Keeps.refl s

theorem keepsNext_closeCatalogue (w : BitVec 12) (s : State) : KeepsNext s (execCloseCatalogue w s) := by
  refine keepsNext_next ?_
  split
  · split
    · exact Keeps.refl s
    · exact Keeps.ite (Keeps.of_outline ((outline_callCatalogue _ _ _).trans (outline_modCtx _ _ _))) (Keeps.refl s)
  · exact Keeps.refl s

theorem outline_closeWritten (w n : Nat) (s : State) : (s.closeWritten w n).outline = s.outline := by
  unfold State.closeWritten
  split
  · split
    · rfl
    · split
      · unfold State.closeEntry
        refine (outline_each (fun _ _ => outline_append _ _) _ _).trans ?_
        exact (outline_append _ _).trans (outline_modCtx _ _ _)
      · rfl
  · rfl

end Sys2Proof.Machine
end

