-- ==== Sys2Proof/Laws/KeepsStore.lean ====
section
/-! SUPPORT. What the store port, start-up and the completions of the store keep. -/

namespace Sys2Proof.Machine

/-! ### Issuing a request -/

theorem keeps_sendBlocks (t i : Nat) (bs : List Block) (s : State) : Keeps s (sendBlocks t i bs s) := by
  induction bs generalizing i s with
  | nil => exact Keeps.refl s
  | cons b bs ih => exact (keeps_send rfl s).trans (ih _ _)

theorem freeTag_some {p : StorePort} {t : Nat} (h : p.freeTag = some t) : t ≤ 15 ∧ t ∉ p.table.map (·.tag) := by
  have h1 := List.mem_of_find?_eq_some h
  have h2 := List.find?_some h
  refine ⟨by have := List.mem_range.mp h1; omega, ?_⟩
  intro hm
  obtain ⟨e, he, het⟩ := List.mem_map.mp hm
  have := List.all_eq_true.mp h2 e he
  simp [het] at this

/-- What an issued request changes: a table entry at a free tag, its REQUEST, and then only DATA. -/
theorem issue_keeps (t : Nat) (r : StoreReq) (s : State) (h : s.port.freeTag = some t) :
    (s.issue t r).pending = s.pending ∧ (s.issue t r).resetHeld = s.resetHeld ∧ (s.issue t r).halted = s.halted
      ∧ s.latched.le (s.issue t r).latched
      ∧ (∃ ms, (s.issue t r).sent = s.sent ++ Msg.storeRequest t r.op r.block r.count :: ms
          ∧ ∀ m ∈ ms, m.isStoreRequest = false)
      ∧ (s.outline.Ok → (s.issue t r).outline.Ok) := by
  unfold State.issue
  dsimp only
  generalize hu : State.send (.storeRequest t r.op r.block r.count)
    { s with port := { s.port with
        table := s.port.table ++ [{ tag := t, req := r, watchdog := s.set.work.storeTimeout }] } } = u
  have k := keeps_sendBlocks t 0 r.data u
  obtain ⟨ms, hm, hms⟩ := k.sent
  have hh : (sendBlocks t 0 r.data u).halted = u.halted := by
    have : ∀ (bs : List Block) (i : Nat) (x : State), (sendBlocks t i bs x).halted = x.halted := by
      intro bs
      induction bs with
      | nil => intro i x; rfl
      | cons b bs ih => intro i x; exact ih _ _
    exact this _ _ _
  refine ⟨k.pending.trans (by subst hu; rfl), k.resetHeld.trans (by subst hu; rfl), hh.trans (by subst hu; rfl), ?_, ⟨ms, ?_, hms⟩,
    fun o => k.ok ?_⟩
  · refine Latched.le_trans (b := u.latched) ?_ k.latched
    subst hu
    exact s.latched.le_refl
  · rw [hm]
    subst hu
    simp [State.send]
  · subst hu
    have hf := freeTag_some h
    refine ⟨o.1, o.2, o.3, ?_, ?_, o.6, o.7, o.8, o.9, o.10, o.11⟩
    · intro x hx
      simp only [State.outline, State.send, List.map_append, List.map_cons, List.map_nil, List.mem_append,
        List.mem_singleton] at hx
      rcases hx with hx | rfl
      · exact o.storeRange x hx
      · exact hf.1
    · simp only [State.outline, State.send, List.map_append, List.map_cons, List.map_nil]
      refine List.nodup_append.mpr ⟨o.storeOnce, by simp, ?_⟩
      intro a ha b hb
      simp only [List.mem_singleton] at hb
      subst hb
      intro hab
      subst hab
      exact hf.2 ha

/-! ### Taking a completion -/

theorem keeps_dropEntry (t : Nat) (s : State) : Keeps s (s.dropEntry t) :=
  keeps_shrink rfl rfl rfl rfl rfl (List.Sublist.refl _) (Nat.le_refl _) (List.filter_sublist.map _) (Nat.le_refl _) rfl rfl
    (Nat.le_refl _) (Nat.le_refl _)

theorem outline_releaseAbandoned (u : StoreUser) (s : State) : (releaseAbandoned u s).outline = s.outline := by
  unfold releaseAbandoned
  split
  · exact outline_dropAbandoned _ _
  · rfl

theorem keeps_takeCompletion (t : Byte) (p : StoreUser → Bool) {f : StoreEntry → State → State}
    (h : ∀ e s, Keeps s (f e s)) (s : State) : Keeps s (s.takeCompletion t p f) := by
  unfold State.takeCompletion
  refine Keeps.ite (Keeps.refl s) ?_
  split
  · exact Keeps.refl s
  · refine Keeps.ite (Keeps.refl s) ?_
    have hd := keeps_dropEntry (‹StoreEntry›).tag s
    exact Keeps.ite (hd.trans (Keeps.of_outline (outline_releaseAbandoned _ _)))
      (Keeps.ite hd (hd.trans (h _ _)))

theorem keepsNext_storeData (t : Byte) (i : BitVec 16) (b : Block) (s : State) : KeepsNext s (execStoreData t i b s) := by
  unfold execStoreData
  split
  · intro u hu
    cases hu
  · refine keepsNext_next (Keeps.ite (Keeps.refl s) (Keeps.of_outline ?_))
    simp only [State.outline, List.map_map]
    congr 1
    apply List.map_congr_left
    intro e _
    simp only [Function.comp_apply, StoreEntry.accept]
    split <;> rfl

/-! ### Start-up -/

theorem keeps_startRead (u : Startup) (s : State) : Keeps s (s.startRead u) :=
  Keeps.of_outline ((outline_enqueue _ _).trans rfl)

theorem outline_format (u : Startup) (s : State) : (s.format u).outline = s.outline := by
  unfold State.format
  exact (outline_each (f := formatBlock) (fun _ _ => outline_callCatalogue _ _ _) _ _).trans (outline_callSettings _ _)

theorem length_itemsOf {α : Type} (f : List Byte → α) (k n : Nat) (bs : List Byte) : (itemsOf f k n bs).length = n := by
  induction n generalizing bs with
  | zero => rfl
  | succ n ih => simp [itemsOf, ih]

/-- A settings block that is read gives tables of the sizes the spec names. -/
theorem parseStored_sizes {b : Block} {x : Stored} (h : parseStored b = some x) :
    x.table.length = 8 ∧ x.bank0.length = 64 ∧ x.bank1.length = 64 ∧ x.holds.length ≤ 64 := by
  unfold parseStored at h
  split at h
  · cases h
    refine ⟨length_itemsOf _ _ _ _, length_itemsOf _ _ _ _, length_itemsOf _ _ _ _, ?_⟩
    rw [length_itemsOf]
    omega
  · cases h

/-- Loading tables of the sizes the spec names keeps what every step keeps. -/
theorem keeps_loadStored {x : Stored}
    (h : x.table.length = 8 ∧ x.bank0.length = 64 ∧ x.bank1.length = 64 ∧ x.holds.length ≤ 64) (s : State) :
    Keeps s (s.loadStored x) := by
  obtain ⟨h1, h2, h3, h4⟩ := h
  exact ⟨rfl, rfl, id, s.latched.le_refl, ⟨[], by simp [State.loadStored], by simp⟩,
    fun o => ⟨o.1, o.2, o.3, o.4, o.5, o.6, h2, h3, h1, h4, o.11⟩⟩

theorem keeps_settingsRead (u : Startup) (b : Block) (s : State) : Keeps s (s.settingsRead u b) := by
  unfold State.settingsRead
  split
  · rename_i x hx
    have hk := keeps_loadStored (parseStored_sizes hx) s
    exact Keeps.ite (hk.trans (keeps_enterHalted _ _)) (hk.trans (keeps_startRead _ _))
  · have hk := keeps_loadStored (x := { j := s.straps }) (by simp) s
    exact Keeps.ite (hk.trans (keeps_enterHalted _ _)) (hk.trans (Keeps.of_outline (outline_format _ _)))

theorem outline_formatDone (s : State) : s.formatDone.outline = s.outline := by
  unfold State.formatDone
  split
  · rfl
  · split
    · exact (outline_enqueue _ _).trans rfl
    · rfl

theorem keeps_catalogueRead (u : Startup) (b : Block) (s : State) : Keeps s (s.catalogueRead u b) := by
  unfold State.catalogueRead
  have h : Keeps s { s with vols := s.vols ++ catalogueRecords 16 (16 * u.pos) b } := Keeps.of_outline rfl
  exact Keeps.ite (h.trans (keeps_startRead _ _)) (h.trans (keeps_startRead _ _))

theorem outline_rebuildMaps (u : Startup) (s : State) : (s.rebuildMaps u).outline = s.outline := rfl

theorem keeps_zoneScanned (u : Startup) (s : State) : Keeps s (s.zoneScanned u) := by
  unfold State.zoneScanned
  dsimp only
  refine Keeps.ite ?_ (keeps_startRead _ s)
  exact (Keeps.of_outline (outline_rebuildMaps _ s)).trans (keeps_startRead _ _)

theorem keeps_zoneRead (u : Startup) (s : State) : Keeps s (s.zoneRead u) := by
  unfold State.zoneRead
  split
  · exact keeps_startRead _ s
  · exact keeps_zoneScanned u s

theorem keeps_scanRead (u : Startup) (b : Option Block) (s : State) : Keeps s (s.scanRead u b) := by
  unfold State.scanRead
  dsimp only
  split
  · exact Keeps.ite (keeps_zoneRead _ s) (keeps_startRead _ s)
  · exact Keeps.ite (keeps_zoneRead _ s) (keeps_startRead _ s)

theorem outline_setJournal (u : Startup) (s : State) : (s.setJournal u).outline = s.outline := by
  unfold State.setJournal
  split <;> rfl

theorem outline_modStartup (f : Startup → Startup) (s : State) : (s.modStartup f).outline = s.outline := rfl

theorem outline_giveContext (u : Startup) (v : Volume) (s : State) : (giveContext u v s).outline = s.outline := rfl

theorem keeps_closeAtStart (v : Volume) (s : State) : Keeps s (closeAtStart v s) := by
  unfold closeAtStart
  refine Keeps.trans (t := _) ?_ (keeps_framerStop _ _)
  exact Keeps.ite (Keeps.of_outline (outline_enterClosing _ _ _ _)) (Keeps.of_outline (outline_modCtx _ _ _))

theorem keeps_abandonAtStart (v : Volume) (s : State) : Keeps s (abandonAtStart v s) :=
  (keeps_closeAtStart v s).trans (Keeps.of_outline (outline_modStartup _ _))

theorem keeps_resumeAtStart (v : Volume) (c : Ctx) (s : State) : Keeps s (resumeAtStart v c s) := by
  unfold resumeAtStart
  refine Keeps.trans (t := _) ?_ (Keeps.of_outline ((outline_modStartup _ _).trans (outline_append _ _)))
  exact Keeps.ite (Keeps.of_outline (outline_rewriteVol _ _ _ _)) (Keeps.refl s)

theorem keeps_preserveAtStart (v : Volume) (c : Ctx) (s : State) : Keeps s (preserveAtStart v c s) :=
  Keeps.of_outline ((outline_modStartup _ _).trans ((outline_append _ _).trans (outline_rewriteVol _ _ _ _)))

theorem keeps_resumeByPolicy (v : Volume) (c : Ctx) (s : State) : Keeps s (resumeByPolicy v c s) := by
  unfold resumeByPolicy
  split
  · exact keeps_abandonAtStart v s
  · exact keeps_resumeAtStart v c s
  · exact keeps_preserveAtStart v c s
  · split
    · exact keeps_resumeAtStart v c s
    · exact keeps_abandonAtStart v s

theorem keeps_settleOpen (u : Startup) (v : Volume) (c : Ctx) (s : State) : Keeps s (settleOpen u v c s) := by
  unfold settleOpen
  split
  · exact keeps_resumeByPolicy v c s
  · exact Keeps.ite (keeps_abandonAtStart v s) (Keeps.ite (keeps_closeAtStart v s) (keeps_resumeByPolicy v c s))

theorem keeps_settleShort (u : Startup) (v : Volume) (s : State) : Keeps s (settleShort u v s) := by
  unfold settleShort
  refine Keeps.trans (t := _) ?_ (keeps_setDamage _)
  refine Keeps.of_outline ((outline_appendFault _ _).trans ((outline_placeOrWait _ _ _).trans ?_))
  exact (outline_rewriteVol _ _ _ _).trans (outline_modStartup _ _)

theorem keeps_settleVolume (u : Startup) (v : Volume) (s : State) : Keeps s (settleVolume u v s) := by
  unfold settleVolume
  split
  · exact Keeps.ite (keeps_settleShort u v s) (Keeps.refl s)
  · split
    · exact Keeps.refl s
    · exact keeps_settleOpen u v _ s
  · split
    · exact Keeps.refl s
    · exact keeps_settleOpen u v _ s
  · exact Keeps.refl s

theorem keeps_settle (u : Startup) (s : State) : Keeps s (s.settle u) := by
  unfold State.settle
  refine Keeps.trans (t := _) ?_ (keeps_each (keeps_settleVolume u) _ _)
  refine Keeps.of_outline ((outline_each (outline_giveContext u) _ _).trans ((outline_modStartup _ _).trans ?_))
  exact (rfl : _ = (s.setJournal u).outline).trans (outline_setJournal u s)

theorem keeps_ringRead (u : Startup) (b : Option Block) (s : State) : Keeps s (s.ringRead u b) := by
  unfold State.ringRead
  dsimp only
  refine Keeps.ite (Keeps.trans (t := { s with startup := some (u.takeRing s.ringLen b) }) (Keeps.of_outline rfl)
    (keeps_settle _ _)) (keeps_startRead _ s)

theorem keeps_startStep (u : Startup) (b : Except FaultClass Block) (s : State) :
    Keeps s (s.startStep u b) := by
  unfold State.startStep
  split
  · exact keeps_settingsRead _ _ s
  · exact keeps_enterHalted _ s
  · exact keeps_catalogueRead _ _ s
  · exact keeps_enterHalted _ s
  · exact keeps_scanRead _ _ s
  · exact keeps_scanRead _ _ s
  · exact keeps_ringRead _ _ s
  · exact keeps_ringRead _ _ s
  · exact Keeps.refl s
  · exact Keeps.refl s
  · exact Keeps.refl s

end Sys2Proof.Machine
end

