-- ==== Sys2Proof/Laws/KeepsExec.lean ====
section
/-! SUPPORT. What the completions of the store, its watchdog and its link keep; and what each command's meaning keeps. -/

namespace Sys2Proof.Machine

/-! ### The open's writes, the settings block, the catalogue -/

theorem outline_placeSealed (n : Nat) (s : State) : (s.placeSealed n).outline = s.outline :=
  outline_each (f := fun (p : PendSeg) => State.placeOrWait p.hdr.serial p.hdr.index) (fun _ _ => outline_placeOrWait _ _ _) _ _

theorem outline_openWritten (c : Bool) (n : Nat) (s : State) : (s.openWritten c n).outline = s.outline := by
  unfold State.openWritten
  split
  · rfl
  · split
    · split
      · rfl
      · exact outline_append _ _
    · dsimp only
      split <;> split
      · exact (outline_append _ _).trans ((outline_placeSealed _ _).trans (outline_modCtx _ _ _))
      · rfl
      · exact (outline_append _ _).trans ((outline_placeSealed _ _).trans (outline_modCtx _ _ _))
      · rfl

theorem keeps_settingsWaiter (d : Nat) (w : SetWaiter) (s : State) : Keeps s (settingsWaiter d w s) := by
  unfold settingsWaiter
  split
  · exact keeps_answer _ _ _ s
  · exact (keeps_answer _ _ _ s).trans (Keeps.of_outline (outline_requestSweep _ _ _))
  · exact Keeps.of_outline (outline_openWritten _ _ _)
  · exact Keeps.of_outline ((outline_reclaimStep6 _).trans rfl)
  · exact Keeps.refl s

theorem outline_inForce (w : SettingsWrite) (s : State) : (s.inForce w).outline = s.outline := by
  unfold State.inForce State.stopIdle State.patrolRate
  dsimp only
  split <;> split <;> (try split) <;> rfl

theorem keeps_settingsGood (w : SettingsWrite) (s : State) : Keeps s (s.settingsGood w) := by
  unfold State.settingsGood
  dsimp only
  refine Keeps.ite ?_ ?_
  · refine Keeps.trans (t := _) ?_ (keeps_each (keeps_settingsWaiter _) _ _)
    exact Keeps.of_outline rfl
  refine Keeps.trans (t := _) ?_ (Keeps.of_outline (outline_formatDone _))
  refine Keeps.trans (t := _) ?_ (keeps_each (keeps_settingsWaiter _) _ _)
  refine Keeps.of_outline ?_
  split
  · exact (outline_inForce _ _).trans rfl
  · exact (outline_handSettings _ _).trans ((outline_inForce _ _).trans rfl)

theorem keeps_settingsEnds (out : Except FaultClass (List Block)) (s : State) : Keeps s (s.settingsEnds out) := by
  unfold State.settingsEnds
  split
  · exact Keeps.refl s
  · split
    · exact keeps_settingsGood _ s
    · refine Keeps.ite (Keeps.refl s) (Keeps.ite ?_ (Keeps.of_outline (outline_enqueue _ _)))
      exact Keeps.trans (t := { s with set := { s.set with write := none } }) (Keeps.of_outline rfl) (keeps_doubleFault _ _ _ _ _ _)

theorem keeps_catalogueWaiter (w : CatWaiter) (s : State) : Keeps s (catalogueWaiter w s) := by
  unfold catalogueWaiter
  split
  · exact Keeps.of_outline (outline_openWritten _ _ _)
  · exact Keeps.of_outline (outline_closeWritten _ _ _)
  · exact Keeps.of_outline rfl
  · exact Keeps.of_outline (outline_endReclaim _ _ _)
  · exact keeps_answer _ _ _ s
  · exact Keeps.refl s

theorem keeps_catalogueGood (c : CatWrite) (s : State) : Keeps s (s.catalogueGood c) := by
  unfold State.catalogueGood
  dsimp only
  refine Keeps.trans (t := _) ?_ (Keeps.of_outline (outline_formatDone _))
  refine Keeps.trans (t := _) ?_ (keeps_each keeps_catalogueWaiter _ _)
  refine Keeps.of_outline ?_
  split
  · rfl
  · exact (outline_handCatalogue _ _ _).trans rfl

theorem keeps_catalogueEnds (b : Nat) (out : Except FaultClass (List Block)) (s : State) : Keeps s (s.catalogueEnds b out) := by
  unfold State.catalogueEnds
  split
  · exact Keeps.refl s
  · split
    · exact keeps_catalogueGood _ s
    · exact Keeps.ite (Keeps.refl s) (Keeps.ite (keeps_doubleFault _ _ _ _ _ s) (Keeps.of_outline (outline_enqueue _ _)))

/-! ### The journal -/

theorem keeps_syncWritten (t : Nat) (s : State) : Keeps s (s.syncWritten t) := by
  unfold State.syncWritten
  split
  · exact Keeps.refl s
  · exact Keeps.ite (keeps_finish _ _ s)
      (Keeps.of_outline (outline_modTag (f := fun e => { e with journalWrites := e.journalWrites - 1 }) (fun _ => rfl) _ _))

theorem keeps_journalWaiter (w : JournalWaiter) (s : State) : Keeps s (journalWaiter w s) := by
  unfold journalWaiter
  split
  · exact Keeps.of_outline ((outline_reclaimStep6 _).trans rfl)
  · exact keeps_syncWritten _ s

theorem keeps_journalGood (w : JournalWrite) (s : State) : Keeps s (s.journalGood w) := by
  unfold State.journalGood
  dsimp only
  have h (l : List JournalWrite) : Keeps s (each journalWaiter w.waiters (each wakeRead (s.ringReaders w.ring)
      { s with jr := { s.jr with writes := l } })) := by
    refine Keeps.trans (t := _) ?_ (keeps_each keeps_journalWaiter _ _)
    refine Keeps.trans (t := _) ?_ (keeps_each keeps_wakeRead _ _)
    exact Keeps.of_outline rfl
  split
  · exact h _
  · refine Keeps.ite (h _) ?_
    exact (h _).trans (Keeps.of_outline (outline_callJournal _ _ _ _))

theorem keeps_journalLost (r : Nat) (s : State) : Keeps s (s.journalLost r) := by
  unfold State.journalLost
  refine Keeps.trans (t := _) ?_ (keeps_each keeps_wakeRead _ _)
  exact Keeps.of_outline rfl

theorem keeps_journalEnds (r : Nat) (out : Except FaultClass (List Block)) (s : State) : Keeps s (s.journalEnds r out) := by
  unfold State.journalEnds
  split
  · exact Keeps.refl s
  · split
    · exact keeps_journalGood _ s
    · exact Keeps.ite (keeps_journalLost _ s) (Keeps.ite ((keeps_doubleFault _ _ _ _ _ s).trans (keeps_journalLost _ _))
        (Keeps.of_outline ((outline_enqueue _ _).trans rfl)))

/-! ### Start-up's outcomes -/

theorem keeps_capacityEnds (out : Except FaultClass Nat) (s : State) : Keeps s (s.capacityEnds out) := by
  unfold State.capacityEnds
  split
  · exact Keeps.refl s
  · refine Keeps.ite (Keeps.refl s) ?_
    split
    · exact Keeps.of_outline ((outline_enqueue _ _).trans rfl)
    · exact Keeps.of_outline rfl
    · exact Keeps.ite (keeps_enterHalted _ s) (Keeps.of_outline rfl)

theorem keeps_startReadEnds (out : Except FaultClass (List Block)) (s : State) : Keeps s (s.startReadEnds out) := by
  unfold State.startReadEnds
  split
  · exact Keeps.refl s
  · split
    · exact keeps_startStep _ _ s
    · exact keeps_startRead _ s
    · exact Keeps.ite (keeps_startStep _ _ s) (keeps_startRead _ s)

/-! ### Telling a user, the completion rows -/

theorem keeps_tell (u : StoreUser) (k : Bool) (out : Except Failure (List Block)) (s : State) : Keeps s (s.tell u k out) := by
  unfold State.tell
  dsimp only
  split
  · exact keeps_settingsEnds _ s
  · exact keeps_catalogueEnds _ _ s
  · exact keeps_journalEnds _ _ s
  · split
    · exact keeps_segmentGood _ s
    · exact keeps_segmentFailed _ _ _ s
  · exact keeps_fetchEnds _ _ _ s
  · exact keeps_journalReadEnds _ _ _ s
  · exact keeps_patrolReadEnds _ _ _ s
  · exact keeps_queueReadEnds _ _ _ s
  · exact keeps_startReadEnds _ s
  · split
    · exact Keeps.refl s
    · exact keeps_capacityEnds _ s

theorem keeps_completeFor (p : StoreUser → Bool) (t st : Byte) (n : BitVec 64) (s : State) : Keeps s (s.completeFor p t st n) :=
  keeps_takeCompletion t p (fun _ _ => keeps_tell _ _ _ _) s

/-! ### Watchdog and link -/

theorem outline_abandon (t : Nat) (s : State) : (s.abandon t).outline = s.outline := by
  simp only [State.abandon, State.outline, List.map_map]
  congr 1
  apply List.map_congr_left
  intro e _
  simp only [Function.comp_apply]
  split <;> rfl

theorem keepsNext_storeWatchdogExpiry (t : Byte) (s : State) : KeepsNext s (execStoreWatchdogExpiry t s) := by
  refine keepsNext_next (Keeps.ite (Keeps.refl s) ?_)
  split
  · exact Keeps.refl s
  · refine Keeps.ite (Keeps.refl s) ?_
    have h := (Keeps.of_outline (outline_abandon (‹StoreEntry›).tag s)).trans (keeps_send (m := .storeAbort (‹StoreEntry›).tag) rfl _)
    exact Keeps.ite h (h.trans (keeps_tell _ _ _ _))

theorem keeps_entryDown (e : StoreEntry) (s : State) : Keeps s (entryDown e s) := by
  unfold entryDown
  exact Keeps.ite (Keeps.of_outline (outline_releaseAbandoned _ _)) (Keeps.ite (Keeps.refl s)
    (Keeps.ite (Keeps.of_outline (outline_enqueue _ _)) (keeps_tell _ _ _ s)))

theorem keeps_failWaiting (e : TagEntry) (s : State) : Keeps s (failWaiting e s) := by
  unfold failWaiting
  exact Keeps.ite (keeps_finish _ _ s) (Keeps.refl s)

theorem keeps_failAtDown (s : State) : Keeps s s.failAtDown := by
  unfold State.failAtDown
  refine Keeps.trans (t := _) ?_ (keeps_each keeps_failWaiting _ _)
  refine Keeps.trans (t := _) ?_ (Keeps.of_outline (outline_muteWaiters _))
  exact keeps_each (f := fun t => State.answer (some t) .unavailable none) (fun _ s => keeps_answer _ _ _ s) _ _

theorem keepsNext_storeLinkDown (s : State) : KeepsNext s (execStoreLinkDown s) := by
  refine keepsNext_next (Keeps.ite (Keeps.refl s) ?_)
  have h : Keeps s (each entryDown s.port.table { s with port := { s.port with up := false, reported := true, table := [] } }) := by
    refine Keeps.trans (t := _) ?_ (keeps_each keeps_entryDown _ _)
    exact keeps_shrink rfl rfl rfl rfl rfl (List.Sublist.refl _) (Nat.le_refl _) (List.nil_sublist _) (Nat.le_refl _) rfl rfl
      (Nat.le_refl _) (Nat.le_refl _)
  have h := h.trans (Keeps.of_outline (outline_wakeHeldBack _))
  exact Keeps.ite (h.trans (keeps_failAtDown _)) h

theorem keepsNext_storeLinkUp (s : State) : KeepsNext s (execStoreLinkUp s) :=
  keepsNext_next (Keeps.ite (Keeps.refl s) (Keeps.of_outline rfl))

/-! ### The end of start-up -/

theorem keeps_runCut (s : State) : Keeps s s.runCut := by
  unfold State.runCut
  split
  · exact Keeps.refl s
  · split
    · exact Keeps.refl s
    · exact Keeps.ite (keeps_beginReclaim _ _ s) (Keeps.refl s)

theorem outline_loadIdleTimers (s : State) : s.loadIdleTimers.outline = s.outline :=
  outline_each (f := fun (v : Volume) => State.loadIdle v.window) (fun _ _ => outline_loadIdle _ _) _ _

theorem keepsNext_startEntry (s : State) : KeepsNext s (execStartEntry s) := by
  refine keepsNext_next ?_
  split
  · exact Keeps.refl s
  · refine Keeps.ite ?_ (Keeps.refl s)
    unfold State.endStartup
    refine Keeps.trans (t := _) ?_ (keeps_runCut _)
    refine Keeps.of_outline ((outline_loadIdleTimers _).trans ?_)
    exact (rfl : _ = State.outline _).trans (outline_append _ _)

theorem keepsNext_resetNRelease_rest (s : State) :
    (∃ t, execResetNRelease s = .next t ∧ t.pending = s.pending ∧ t.sent = s.sent ∧ t.latched = s.latched
      ∧ t.halted = s.halted ∧ (s.outline.Ok → t.outline.Ok)) := by
  unfold execResetNRelease
  split
  · exact ⟨_, rfl, rfl, rfl, rfl, rfl, fun o => ⟨o.1, o.2, o.3, o.4, o.5, o.6, o.7, o.8, o.9, o.10, o.11⟩⟩
  · exact ⟨_, rfl, rfl, rfl, rfl, rfl, id⟩

end Sys2Proof.Machine
end

