-- ==== Sys2Proof/Laws/State.lean ====
section
/-! SUPPORT. One lemma per field of the state and per update, each true by `rfl`: which field an update changes, and how, and that it
leaves the others. Proofs cite these and never unfold a record update. -/

namespace Sys2Proof.Machine

/-! ### `modVol` -/

@[simp] theorem modVol_pending (w : Nat) (f : Volume → Volume) (s : State) : (State.modVol w f s).pending = s.pending := rfl
@[simp] theorem modVol_sent (w : Nat) (f : Volume → Volume) (s : State) : (State.modVol w f s).sent = s.sent := rfl
@[simp] theorem modVol_resetHeld (w : Nat) (f : Volume → Volume) (s : State) : (State.modVol w f s).resetHeld = s.resetHeld := rfl
@[simp] theorem modVol_straps (w : Nat) (f : Volume → Volume) (s : State) : (State.modVol w f s).straps = s.straps := rfl
@[simp] theorem modVol_startup (w : Nat) (f : Volume → Volume) (s : State) : (State.modVol w f s).startup = s.startup := rfl
@[simp] theorem modVol_halted (w : Nat) (f : Volume → Volume) (s : State) : (State.modVol w f s).halted = s.halted := rfl
@[simp] theorem modVol_haltedEarly (w : Nat) (f : Volume → Volume) (s : State) :
    (State.modVol w f s).haltedEarly = s.haltedEarly := rfl
@[simp] theorem modVol_latched (w : Nat) (f : Volume → Volume) (s : State) : (State.modVol w f s).latched = s.latched := rfl
@[simp] theorem modVol_client (w : Nat) (f : Volume → Volume) (s : State) : (State.modVol w f s).client = s.client := rfl
@[simp] theorem modVol_vols (w : Nat) (f : Volume → Volume) (s : State) :
    (State.modVol w f s).vols = s.vols.map fun v => if v.window == w then f v else v := rfl
@[simp] theorem modVol_serialCounter (w : Nat) (f : Volume → Volume) (s : State) :
    (State.modVol w f s).serialCounter = s.serialCounter := rfl
@[simp] theorem modVol_ctxs (w : Nat) (f : Volume → Volume) (s : State) : (State.modVol w f s).ctxs = s.ctxs := rfl
@[simp] theorem modVol_pend (w : Nat) (f : Volume → Volume) (s : State) : (State.modVol w f s).pend = s.pend := rfl
@[simp] theorem modVol_tariff (w : Nat) (f : Volume → Volume) (s : State) : (State.modVol w f s).tariff = s.tariff := rfl
@[simp] theorem modVol_alloc (w : Nat) (f : Volume → Volume) (s : State) : (State.modVol w f s).alloc = s.alloc := rfl
@[simp] theorem modVol_port (w : Nat) (f : Volume → Volume) (s : State) : (State.modVol w f s).port = s.port := rfl
@[simp] theorem modVol_rd (w : Nat) (f : Volume → Volume) (s : State) : (State.modVol w f s).rd = s.rd := rfl
@[simp] theorem modVol_ret (w : Nat) (f : Volume → Volume) (s : State) : (State.modVol w f s).ret = s.ret := rfl
@[simp] theorem modVol_audit (w : Nat) (f : Volume → Volume) (s : State) : (State.modVol w f s).audit = s.audit := rfl
@[simp] theorem modVol_jr (w : Nat) (f : Volume → Volume) (s : State) : (State.modVol w f s).jr = s.jr := rfl
@[simp] theorem modVol_set (w : Nat) (f : Volume → Volume) (s : State) : (State.modVol w f s).set = s.set := rfl

/-! ### `addVol` -/

@[simp] theorem addVol_pending (v : Volume) (s : State) : (State.addVol v s).pending = s.pending := rfl
@[simp] theorem addVol_sent (v : Volume) (s : State) : (State.addVol v s).sent = s.sent := rfl
@[simp] theorem addVol_resetHeld (v : Volume) (s : State) : (State.addVol v s).resetHeld = s.resetHeld := rfl
@[simp] theorem addVol_straps (v : Volume) (s : State) : (State.addVol v s).straps = s.straps := rfl
@[simp] theorem addVol_startup (v : Volume) (s : State) : (State.addVol v s).startup = s.startup := rfl
@[simp] theorem addVol_halted (v : Volume) (s : State) : (State.addVol v s).halted = s.halted := rfl
@[simp] theorem addVol_haltedEarly (v : Volume) (s : State) : (State.addVol v s).haltedEarly = s.haltedEarly := rfl
@[simp] theorem addVol_latched (v : Volume) (s : State) : (State.addVol v s).latched = s.latched := rfl
@[simp] theorem addVol_client (v : Volume) (s : State) : (State.addVol v s).client = s.client := rfl
@[simp] theorem addVol_vols (v : Volume) (s : State) : (State.addVol v s).vols = insertBy (·.window) v s.vols := rfl
@[simp] theorem addVol_serialCounter (v : Volume) (s : State) : (State.addVol v s).serialCounter = s.serialCounter := rfl
@[simp] theorem addVol_ctxs (v : Volume) (s : State) : (State.addVol v s).ctxs = s.ctxs := rfl
@[simp] theorem addVol_pend (v : Volume) (s : State) : (State.addVol v s).pend = s.pend := rfl
@[simp] theorem addVol_tariff (v : Volume) (s : State) : (State.addVol v s).tariff = s.tariff := rfl
@[simp] theorem addVol_alloc (v : Volume) (s : State) : (State.addVol v s).alloc = s.alloc := rfl
@[simp] theorem addVol_port (v : Volume) (s : State) : (State.addVol v s).port = s.port := rfl
@[simp] theorem addVol_rd (v : Volume) (s : State) : (State.addVol v s).rd = s.rd := rfl
@[simp] theorem addVol_ret (v : Volume) (s : State) : (State.addVol v s).ret = s.ret := rfl
@[simp] theorem addVol_audit (v : Volume) (s : State) : (State.addVol v s).audit = s.audit := rfl
@[simp] theorem addVol_jr (v : Volume) (s : State) : (State.addVol v s).jr = s.jr := rfl
@[simp] theorem addVol_set (v : Volume) (s : State) : (State.addVol v s).set = s.set := rfl

/-! ### `dropVol` -/

@[simp] theorem dropVol_pending (w : Nat) (s : State) : (State.dropVol w s).pending = s.pending := rfl
@[simp] theorem dropVol_sent (w : Nat) (s : State) : (State.dropVol w s).sent = s.sent := rfl
@[simp] theorem dropVol_resetHeld (w : Nat) (s : State) : (State.dropVol w s).resetHeld = s.resetHeld := rfl
@[simp] theorem dropVol_straps (w : Nat) (s : State) : (State.dropVol w s).straps = s.straps := rfl
@[simp] theorem dropVol_startup (w : Nat) (s : State) : (State.dropVol w s).startup = s.startup := rfl
@[simp] theorem dropVol_halted (w : Nat) (s : State) : (State.dropVol w s).halted = s.halted := rfl
@[simp] theorem dropVol_haltedEarly (w : Nat) (s : State) : (State.dropVol w s).haltedEarly = s.haltedEarly := rfl
@[simp] theorem dropVol_latched (w : Nat) (s : State) : (State.dropVol w s).latched = s.latched := rfl
@[simp] theorem dropVol_client (w : Nat) (s : State) : (State.dropVol w s).client = s.client := rfl
@[simp] theorem dropVol_vols (w : Nat) (s : State) : (State.dropVol w s).vols = s.vols.filter (·.window != w) := rfl
@[simp] theorem dropVol_serialCounter (w : Nat) (s : State) : (State.dropVol w s).serialCounter = s.serialCounter := rfl
@[simp] theorem dropVol_ctxs (w : Nat) (s : State) : (State.dropVol w s).ctxs = s.ctxs := rfl
@[simp] theorem dropVol_pend (w : Nat) (s : State) : (State.dropVol w s).pend = s.pend := rfl
@[simp] theorem dropVol_tariff (w : Nat) (s : State) : (State.dropVol w s).tariff = s.tariff := rfl
@[simp] theorem dropVol_alloc (w : Nat) (s : State) : (State.dropVol w s).alloc = s.alloc := rfl
@[simp] theorem dropVol_port (w : Nat) (s : State) : (State.dropVol w s).port = s.port := rfl
@[simp] theorem dropVol_rd (w : Nat) (s : State) : (State.dropVol w s).rd = s.rd := rfl
@[simp] theorem dropVol_ret (w : Nat) (s : State) : (State.dropVol w s).ret = s.ret := rfl
@[simp] theorem dropVol_audit (w : Nat) (s : State) : (State.dropVol w s).audit = s.audit := rfl
@[simp] theorem dropVol_jr (w : Nat) (s : State) : (State.dropVol w s).jr = s.jr := rfl
@[simp] theorem dropVol_set (w : Nat) (s : State) : (State.dropVol w s).set = s.set := rfl

/-! ### `modCtx` -/

@[simp] theorem modCtx_pending (w : Nat) (f : Ctx → Ctx) (s : State) : (State.modCtx w f s).pending = s.pending := rfl
@[simp] theorem modCtx_sent (w : Nat) (f : Ctx → Ctx) (s : State) : (State.modCtx w f s).sent = s.sent := rfl
@[simp] theorem modCtx_resetHeld (w : Nat) (f : Ctx → Ctx) (s : State) : (State.modCtx w f s).resetHeld = s.resetHeld := rfl
@[simp] theorem modCtx_straps (w : Nat) (f : Ctx → Ctx) (s : State) : (State.modCtx w f s).straps = s.straps := rfl
@[simp] theorem modCtx_startup (w : Nat) (f : Ctx → Ctx) (s : State) : (State.modCtx w f s).startup = s.startup := rfl
@[simp] theorem modCtx_halted (w : Nat) (f : Ctx → Ctx) (s : State) : (State.modCtx w f s).halted = s.halted := rfl
@[simp] theorem modCtx_haltedEarly (w : Nat) (f : Ctx → Ctx) (s : State) : (State.modCtx w f s).haltedEarly = s.haltedEarly := rfl
@[simp] theorem modCtx_latched (w : Nat) (f : Ctx → Ctx) (s : State) : (State.modCtx w f s).latched = s.latched := rfl
@[simp] theorem modCtx_client (w : Nat) (f : Ctx → Ctx) (s : State) : (State.modCtx w f s).client = s.client := rfl
@[simp] theorem modCtx_vols (w : Nat) (f : Ctx → Ctx) (s : State) : (State.modCtx w f s).vols = s.vols := rfl
@[simp] theorem modCtx_serialCounter (w : Nat) (f : Ctx → Ctx) (s : State) :
    (State.modCtx w f s).serialCounter = s.serialCounter := rfl
@[simp] theorem modCtx_ctxs (w : Nat) (f : Ctx → Ctx) (s : State) :
    (State.modCtx w f s).ctxs = s.ctxs.map fun c => if c.window == w then f c else c := rfl
@[simp] theorem modCtx_pend (w : Nat) (f : Ctx → Ctx) (s : State) : (State.modCtx w f s).pend = s.pend := rfl
@[simp] theorem modCtx_tariff (w : Nat) (f : Ctx → Ctx) (s : State) : (State.modCtx w f s).tariff = s.tariff := rfl
@[simp] theorem modCtx_alloc (w : Nat) (f : Ctx → Ctx) (s : State) : (State.modCtx w f s).alloc = s.alloc := rfl
@[simp] theorem modCtx_port (w : Nat) (f : Ctx → Ctx) (s : State) : (State.modCtx w f s).port = s.port := rfl
@[simp] theorem modCtx_rd (w : Nat) (f : Ctx → Ctx) (s : State) : (State.modCtx w f s).rd = s.rd := rfl
@[simp] theorem modCtx_ret (w : Nat) (f : Ctx → Ctx) (s : State) : (State.modCtx w f s).ret = s.ret := rfl
@[simp] theorem modCtx_audit (w : Nat) (f : Ctx → Ctx) (s : State) : (State.modCtx w f s).audit = s.audit := rfl
@[simp] theorem modCtx_jr (w : Nat) (f : Ctx → Ctx) (s : State) : (State.modCtx w f s).jr = s.jr := rfl
@[simp] theorem modCtx_set (w : Nat) (f : Ctx → Ctx) (s : State) : (State.modCtx w f s).set = s.set := rfl

/-! ### `dropCtx` -/

@[simp] theorem dropCtx_pending (w : Nat) (s : State) : (State.dropCtx w s).pending = s.pending := rfl
@[simp] theorem dropCtx_sent (w : Nat) (s : State) : (State.dropCtx w s).sent = s.sent := rfl
@[simp] theorem dropCtx_resetHeld (w : Nat) (s : State) : (State.dropCtx w s).resetHeld = s.resetHeld := rfl
@[simp] theorem dropCtx_straps (w : Nat) (s : State) : (State.dropCtx w s).straps = s.straps := rfl
@[simp] theorem dropCtx_startup (w : Nat) (s : State) : (State.dropCtx w s).startup = s.startup := rfl
@[simp] theorem dropCtx_halted (w : Nat) (s : State) : (State.dropCtx w s).halted = s.halted := rfl
@[simp] theorem dropCtx_haltedEarly (w : Nat) (s : State) : (State.dropCtx w s).haltedEarly = s.haltedEarly := rfl
@[simp] theorem dropCtx_latched (w : Nat) (s : State) : (State.dropCtx w s).latched = s.latched := rfl
@[simp] theorem dropCtx_client (w : Nat) (s : State) : (State.dropCtx w s).client = s.client := rfl
@[simp] theorem dropCtx_vols (w : Nat) (s : State) : (State.dropCtx w s).vols = s.vols := rfl
@[simp] theorem dropCtx_serialCounter (w : Nat) (s : State) : (State.dropCtx w s).serialCounter = s.serialCounter := rfl
@[simp] theorem dropCtx_ctxs (w : Nat) (s : State) : (State.dropCtx w s).ctxs = s.ctxs.filter (·.window != w) := rfl
@[simp] theorem dropCtx_pend (w : Nat) (s : State) : (State.dropCtx w s).pend = s.pend := rfl
@[simp] theorem dropCtx_tariff (w : Nat) (s : State) : (State.dropCtx w s).tariff = s.tariff := rfl
@[simp] theorem dropCtx_alloc (w : Nat) (s : State) : (State.dropCtx w s).alloc = s.alloc := rfl
@[simp] theorem dropCtx_port (w : Nat) (s : State) : (State.dropCtx w s).port = s.port := rfl
@[simp] theorem dropCtx_rd (w : Nat) (s : State) : (State.dropCtx w s).rd = s.rd := rfl
@[simp] theorem dropCtx_ret (w : Nat) (s : State) : (State.dropCtx w s).ret = s.ret := rfl
@[simp] theorem dropCtx_audit (w : Nat) (s : State) : (State.dropCtx w s).audit = s.audit := rfl
@[simp] theorem dropCtx_jr (w : Nat) (s : State) : (State.dropCtx w s).jr = s.jr := rfl
@[simp] theorem dropCtx_set (w : Nat) (s : State) : (State.dropCtx w s).set = s.set := rfl

/-! ### `modTag` -/

@[simp] theorem modTag_pending (t : Nat) (f : TagEntry → TagEntry) (s : State) : (State.modTag t f s).pending = s.pending := rfl
@[simp] theorem modTag_sent (t : Nat) (f : TagEntry → TagEntry) (s : State) : (State.modTag t f s).sent = s.sent := rfl
@[simp] theorem modTag_resetHeld (t : Nat) (f : TagEntry → TagEntry) (s : State) :
    (State.modTag t f s).resetHeld = s.resetHeld := rfl
@[simp] theorem modTag_straps (t : Nat) (f : TagEntry → TagEntry) (s : State) : (State.modTag t f s).straps = s.straps := rfl
@[simp] theorem modTag_startup (t : Nat) (f : TagEntry → TagEntry) (s : State) : (State.modTag t f s).startup = s.startup := rfl
@[simp] theorem modTag_halted (t : Nat) (f : TagEntry → TagEntry) (s : State) : (State.modTag t f s).halted = s.halted := rfl
@[simp] theorem modTag_haltedEarly (t : Nat) (f : TagEntry → TagEntry) (s : State) :
    (State.modTag t f s).haltedEarly = s.haltedEarly := rfl
@[simp] theorem modTag_latched (t : Nat) (f : TagEntry → TagEntry) (s : State) : (State.modTag t f s).latched = s.latched := rfl
@[simp] theorem modTag_client (t : Nat) (f : TagEntry → TagEntry) (s : State) :
    (State.modTag t f s).client = { s.client with tags := s.client.tags.map fun e => if e.tag == t then f e else e } := rfl
@[simp] theorem modTag_vols (t : Nat) (f : TagEntry → TagEntry) (s : State) : (State.modTag t f s).vols = s.vols := rfl
@[simp] theorem modTag_serialCounter (t : Nat) (f : TagEntry → TagEntry) (s : State) :
    (State.modTag t f s).serialCounter = s.serialCounter := rfl
@[simp] theorem modTag_ctxs (t : Nat) (f : TagEntry → TagEntry) (s : State) : (State.modTag t f s).ctxs = s.ctxs := rfl
@[simp] theorem modTag_pend (t : Nat) (f : TagEntry → TagEntry) (s : State) : (State.modTag t f s).pend = s.pend := rfl
@[simp] theorem modTag_tariff (t : Nat) (f : TagEntry → TagEntry) (s : State) : (State.modTag t f s).tariff = s.tariff := rfl
@[simp] theorem modTag_alloc (t : Nat) (f : TagEntry → TagEntry) (s : State) : (State.modTag t f s).alloc = s.alloc := rfl
@[simp] theorem modTag_port (t : Nat) (f : TagEntry → TagEntry) (s : State) : (State.modTag t f s).port = s.port := rfl
@[simp] theorem modTag_rd (t : Nat) (f : TagEntry → TagEntry) (s : State) : (State.modTag t f s).rd = s.rd := rfl
@[simp] theorem modTag_ret (t : Nat) (f : TagEntry → TagEntry) (s : State) : (State.modTag t f s).ret = s.ret := rfl
@[simp] theorem modTag_audit (t : Nat) (f : TagEntry → TagEntry) (s : State) : (State.modTag t f s).audit = s.audit := rfl
@[simp] theorem modTag_jr (t : Nat) (f : TagEntry → TagEntry) (s : State) : (State.modTag t f s).jr = s.jr := rfl
@[simp] theorem modTag_set (t : Nat) (f : TagEntry → TagEntry) (s : State) : (State.modTag t f s).set = s.set := rfl

/-! ### `addTag` -/

@[simp] theorem addTag_pending (e : TagEntry) (s : State) : (State.addTag e s).pending = s.pending := rfl
@[simp] theorem addTag_sent (e : TagEntry) (s : State) : (State.addTag e s).sent = s.sent := rfl
@[simp] theorem addTag_resetHeld (e : TagEntry) (s : State) : (State.addTag e s).resetHeld = s.resetHeld := rfl
@[simp] theorem addTag_straps (e : TagEntry) (s : State) : (State.addTag e s).straps = s.straps := rfl
@[simp] theorem addTag_startup (e : TagEntry) (s : State) : (State.addTag e s).startup = s.startup := rfl
@[simp] theorem addTag_halted (e : TagEntry) (s : State) : (State.addTag e s).halted = s.halted := rfl
@[simp] theorem addTag_haltedEarly (e : TagEntry) (s : State) : (State.addTag e s).haltedEarly = s.haltedEarly := rfl
@[simp] theorem addTag_latched (e : TagEntry) (s : State) : (State.addTag e s).latched = s.latched := rfl
@[simp] theorem addTag_client (e : TagEntry) (s : State) :
    (State.addTag e s).client = { s.client with tags := insertBy (·.tag) e s.client.tags } := rfl
@[simp] theorem addTag_vols (e : TagEntry) (s : State) : (State.addTag e s).vols = s.vols := rfl
@[simp] theorem addTag_serialCounter (e : TagEntry) (s : State) : (State.addTag e s).serialCounter = s.serialCounter := rfl
@[simp] theorem addTag_ctxs (e : TagEntry) (s : State) : (State.addTag e s).ctxs = s.ctxs := rfl
@[simp] theorem addTag_pend (e : TagEntry) (s : State) : (State.addTag e s).pend = s.pend := rfl
@[simp] theorem addTag_tariff (e : TagEntry) (s : State) : (State.addTag e s).tariff = s.tariff := rfl
@[simp] theorem addTag_alloc (e : TagEntry) (s : State) : (State.addTag e s).alloc = s.alloc := rfl
@[simp] theorem addTag_port (e : TagEntry) (s : State) : (State.addTag e s).port = s.port := rfl
@[simp] theorem addTag_rd (e : TagEntry) (s : State) : (State.addTag e s).rd = s.rd := rfl
@[simp] theorem addTag_ret (e : TagEntry) (s : State) : (State.addTag e s).ret = s.ret := rfl
@[simp] theorem addTag_audit (e : TagEntry) (s : State) : (State.addTag e s).audit = s.audit := rfl
@[simp] theorem addTag_jr (e : TagEntry) (s : State) : (State.addTag e s).jr = s.jr := rfl
@[simp] theorem addTag_set (e : TagEntry) (s : State) : (State.addTag e s).set = s.set := rfl

/-! ### `modPend` -/

@[simp] theorem modPend_pending (n i : Nat) (f : PendSeg → PendSeg) (s : State) :
    (State.modPend n i f s).pending = s.pending := rfl
@[simp] theorem modPend_sent (n i : Nat) (f : PendSeg → PendSeg) (s : State) : (State.modPend n i f s).sent = s.sent := rfl
@[simp] theorem modPend_resetHeld (n i : Nat) (f : PendSeg → PendSeg) (s : State) :
    (State.modPend n i f s).resetHeld = s.resetHeld := rfl
@[simp] theorem modPend_straps (n i : Nat) (f : PendSeg → PendSeg) (s : State) : (State.modPend n i f s).straps = s.straps := rfl
@[simp] theorem modPend_startup (n i : Nat) (f : PendSeg → PendSeg) (s : State) :
    (State.modPend n i f s).startup = s.startup := rfl
@[simp] theorem modPend_halted (n i : Nat) (f : PendSeg → PendSeg) (s : State) : (State.modPend n i f s).halted = s.halted := rfl
@[simp] theorem modPend_haltedEarly (n i : Nat) (f : PendSeg → PendSeg) (s : State) :
    (State.modPend n i f s).haltedEarly = s.haltedEarly := rfl
@[simp] theorem modPend_latched (n i : Nat) (f : PendSeg → PendSeg) (s : State) :
    (State.modPend n i f s).latched = s.latched := rfl
@[simp] theorem modPend_client (n i : Nat) (f : PendSeg → PendSeg) (s : State) : (State.modPend n i f s).client = s.client := rfl
@[simp] theorem modPend_vols (n i : Nat) (f : PendSeg → PendSeg) (s : State) : (State.modPend n i f s).vols = s.vols := rfl
@[simp] theorem modPend_serialCounter (n i : Nat) (f : PendSeg → PendSeg) (s : State) :
    (State.modPend n i f s).serialCounter = s.serialCounter := rfl
@[simp] theorem modPend_ctxs (n i : Nat) (f : PendSeg → PendSeg) (s : State) : (State.modPend n i f s).ctxs = s.ctxs := rfl
@[simp] theorem modPend_pend (n i : Nat) (f : PendSeg → PendSeg) (s : State) :
    (State.modPend n i f s).pend = s.pend.map fun p => if p.hdr.serial == n && p.hdr.index == i then f p else p := rfl
@[simp] theorem modPend_tariff (n i : Nat) (f : PendSeg → PendSeg) (s : State) : (State.modPend n i f s).tariff = s.tariff := rfl
@[simp] theorem modPend_alloc (n i : Nat) (f : PendSeg → PendSeg) (s : State) : (State.modPend n i f s).alloc = s.alloc := rfl
@[simp] theorem modPend_port (n i : Nat) (f : PendSeg → PendSeg) (s : State) : (State.modPend n i f s).port = s.port := rfl
@[simp] theorem modPend_rd (n i : Nat) (f : PendSeg → PendSeg) (s : State) : (State.modPend n i f s).rd = s.rd := rfl
@[simp] theorem modPend_ret (n i : Nat) (f : PendSeg → PendSeg) (s : State) : (State.modPend n i f s).ret = s.ret := rfl
@[simp] theorem modPend_audit (n i : Nat) (f : PendSeg → PendSeg) (s : State) : (State.modPend n i f s).audit = s.audit := rfl
@[simp] theorem modPend_jr (n i : Nat) (f : PendSeg → PendSeg) (s : State) : (State.modPend n i f s).jr = s.jr := rfl
@[simp] theorem modPend_set (n i : Nat) (f : PendSeg → PendSeg) (s : State) : (State.modPend n i f s).set = s.set := rfl

/-! ### `dropPend` -/

@[simp] theorem dropPend_pending (n i : Nat) (s : State) : (State.dropPend n i s).pending = s.pending := rfl
@[simp] theorem dropPend_sent (n i : Nat) (s : State) : (State.dropPend n i s).sent = s.sent := rfl
@[simp] theorem dropPend_resetHeld (n i : Nat) (s : State) : (State.dropPend n i s).resetHeld = s.resetHeld := rfl
@[simp] theorem dropPend_straps (n i : Nat) (s : State) : (State.dropPend n i s).straps = s.straps := rfl
@[simp] theorem dropPend_startup (n i : Nat) (s : State) : (State.dropPend n i s).startup = s.startup := rfl
@[simp] theorem dropPend_halted (n i : Nat) (s : State) : (State.dropPend n i s).halted = s.halted := rfl
@[simp] theorem dropPend_haltedEarly (n i : Nat) (s : State) : (State.dropPend n i s).haltedEarly = s.haltedEarly := rfl
@[simp] theorem dropPend_latched (n i : Nat) (s : State) : (State.dropPend n i s).latched = s.latched := rfl
@[simp] theorem dropPend_client (n i : Nat) (s : State) : (State.dropPend n i s).client = s.client := rfl
@[simp] theorem dropPend_vols (n i : Nat) (s : State) : (State.dropPend n i s).vols = s.vols := rfl
@[simp] theorem dropPend_serialCounter (n i : Nat) (s : State) : (State.dropPend n i s).serialCounter = s.serialCounter := rfl
@[simp] theorem dropPend_ctxs (n i : Nat) (s : State) : (State.dropPend n i s).ctxs = s.ctxs := rfl
@[simp] theorem dropPend_pend (n i : Nat) (s : State) :
    (State.dropPend n i s).pend = s.pend.filter fun p => !(p.hdr.serial == n && p.hdr.index == i) := rfl
@[simp] theorem dropPend_tariff (n i : Nat) (s : State) : (State.dropPend n i s).tariff = s.tariff := rfl
@[simp] theorem dropPend_alloc (n i : Nat) (s : State) : (State.dropPend n i s).alloc = s.alloc := rfl
@[simp] theorem dropPend_port (n i : Nat) (s : State) : (State.dropPend n i s).port = s.port := rfl
@[simp] theorem dropPend_rd (n i : Nat) (s : State) : (State.dropPend n i s).rd = s.rd := rfl
@[simp] theorem dropPend_ret (n i : Nat) (s : State) : (State.dropPend n i s).ret = s.ret := rfl
@[simp] theorem dropPend_audit (n i : Nat) (s : State) : (State.dropPend n i s).audit = s.audit := rfl
@[simp] theorem dropPend_jr (n i : Nat) (s : State) : (State.dropPend n i s).jr = s.jr := rfl
@[simp] theorem dropPend_set (n i : Nat) (s : State) : (State.dropPend n i s).set = s.set := rfl

/-! ### `send` -/

@[simp] theorem send_pending (m : Msg) (s : State) : (State.send m s).pending = s.pending := rfl
@[simp] theorem send_sent (m : Msg) (s : State) : (State.send m s).sent = s.sent ++ [m] := rfl
@[simp] theorem send_resetHeld (m : Msg) (s : State) : (State.send m s).resetHeld = s.resetHeld := rfl
@[simp] theorem send_straps (m : Msg) (s : State) : (State.send m s).straps = s.straps := rfl
@[simp] theorem send_startup (m : Msg) (s : State) : (State.send m s).startup = s.startup := rfl
@[simp] theorem send_halted (m : Msg) (s : State) : (State.send m s).halted = s.halted := rfl
@[simp] theorem send_haltedEarly (m : Msg) (s : State) : (State.send m s).haltedEarly = s.haltedEarly := rfl
@[simp] theorem send_latched (m : Msg) (s : State) : (State.send m s).latched = s.latched := rfl
@[simp] theorem send_client (m : Msg) (s : State) : (State.send m s).client = s.client := rfl
@[simp] theorem send_vols (m : Msg) (s : State) : (State.send m s).vols = s.vols := rfl
@[simp] theorem send_serialCounter (m : Msg) (s : State) : (State.send m s).serialCounter = s.serialCounter := rfl
@[simp] theorem send_ctxs (m : Msg) (s : State) : (State.send m s).ctxs = s.ctxs := rfl
@[simp] theorem send_pend (m : Msg) (s : State) : (State.send m s).pend = s.pend := rfl
@[simp] theorem send_tariff (m : Msg) (s : State) : (State.send m s).tariff = s.tariff := rfl
@[simp] theorem send_alloc (m : Msg) (s : State) : (State.send m s).alloc = s.alloc := rfl
@[simp] theorem send_port (m : Msg) (s : State) : (State.send m s).port = s.port := rfl
@[simp] theorem send_rd (m : Msg) (s : State) : (State.send m s).rd = s.rd := rfl
@[simp] theorem send_ret (m : Msg) (s : State) : (State.send m s).ret = s.ret := rfl
@[simp] theorem send_audit (m : Msg) (s : State) : (State.send m s).audit = s.audit := rfl
@[simp] theorem send_jr (m : Msg) (s : State) : (State.send m s).jr = s.jr := rfl
@[simp] theorem send_set (m : Msg) (s : State) : (State.send m s).set = s.set := rfl

/-! ### `enqueue` -/

@[simp] theorem enqueue_pending (r : StoreReq) (s : State) : (State.enqueue r s).pending = s.pending := rfl
@[simp] theorem enqueue_sent (r : StoreReq) (s : State) : (State.enqueue r s).sent = s.sent := rfl
@[simp] theorem enqueue_resetHeld (r : StoreReq) (s : State) : (State.enqueue r s).resetHeld = s.resetHeld := rfl
@[simp] theorem enqueue_straps (r : StoreReq) (s : State) : (State.enqueue r s).straps = s.straps := rfl
@[simp] theorem enqueue_startup (r : StoreReq) (s : State) : (State.enqueue r s).startup = s.startup := rfl
@[simp] theorem enqueue_halted (r : StoreReq) (s : State) : (State.enqueue r s).halted = s.halted := rfl
@[simp] theorem enqueue_haltedEarly (r : StoreReq) (s : State) : (State.enqueue r s).haltedEarly = s.haltedEarly := rfl
@[simp] theorem enqueue_latched (r : StoreReq) (s : State) : (State.enqueue r s).latched = s.latched := rfl
@[simp] theorem enqueue_client (r : StoreReq) (s : State) : (State.enqueue r s).client = s.client := rfl
@[simp] theorem enqueue_vols (r : StoreReq) (s : State) : (State.enqueue r s).vols = s.vols := rfl
@[simp] theorem enqueue_serialCounter (r : StoreReq) (s : State) : (State.enqueue r s).serialCounter = s.serialCounter := rfl
@[simp] theorem enqueue_ctxs (r : StoreReq) (s : State) : (State.enqueue r s).ctxs = s.ctxs := rfl
@[simp] theorem enqueue_pend (r : StoreReq) (s : State) : (State.enqueue r s).pend = s.pend := rfl
@[simp] theorem enqueue_tariff (r : StoreReq) (s : State) : (State.enqueue r s).tariff = s.tariff := rfl
@[simp] theorem enqueue_alloc (r : StoreReq) (s : State) : (State.enqueue r s).alloc = s.alloc := rfl
@[simp] theorem enqueue_port (r : StoreReq) (s : State) :
    (State.enqueue r s).port = { s.port with queue := s.port.queue ++ [r] } := rfl
@[simp] theorem enqueue_rd (r : StoreReq) (s : State) : (State.enqueue r s).rd = s.rd := rfl
@[simp] theorem enqueue_ret (r : StoreReq) (s : State) : (State.enqueue r s).ret = s.ret := rfl
@[simp] theorem enqueue_audit (r : StoreReq) (s : State) : (State.enqueue r s).audit = s.audit := rfl
@[simp] theorem enqueue_jr (r : StoreReq) (s : State) : (State.enqueue r s).jr = s.jr := rfl
@[simp] theorem enqueue_set (r : StoreReq) (s : State) : (State.enqueue r s).set = s.set := rfl

/-! ### `withdraw` -/

@[simp] theorem withdraw_pending (p : StoreUser → Bool) (s : State) : (State.withdraw p s).pending = s.pending := rfl
@[simp] theorem withdraw_sent (p : StoreUser → Bool) (s : State) : (State.withdraw p s).sent = s.sent := rfl
@[simp] theorem withdraw_resetHeld (p : StoreUser → Bool) (s : State) : (State.withdraw p s).resetHeld = s.resetHeld := rfl
@[simp] theorem withdraw_straps (p : StoreUser → Bool) (s : State) : (State.withdraw p s).straps = s.straps := rfl
@[simp] theorem withdraw_startup (p : StoreUser → Bool) (s : State) : (State.withdraw p s).startup = s.startup := rfl
@[simp] theorem withdraw_halted (p : StoreUser → Bool) (s : State) : (State.withdraw p s).halted = s.halted := rfl
@[simp] theorem withdraw_haltedEarly (p : StoreUser → Bool) (s : State) : (State.withdraw p s).haltedEarly = s.haltedEarly := rfl
@[simp] theorem withdraw_latched (p : StoreUser → Bool) (s : State) : (State.withdraw p s).latched = s.latched := rfl
@[simp] theorem withdraw_client (p : StoreUser → Bool) (s : State) : (State.withdraw p s).client = s.client := rfl
@[simp] theorem withdraw_vols (p : StoreUser → Bool) (s : State) : (State.withdraw p s).vols = s.vols := rfl
@[simp] theorem withdraw_serialCounter (p : StoreUser → Bool) (s : State) :
    (State.withdraw p s).serialCounter = s.serialCounter := rfl
@[simp] theorem withdraw_ctxs (p : StoreUser → Bool) (s : State) : (State.withdraw p s).ctxs = s.ctxs := rfl
@[simp] theorem withdraw_pend (p : StoreUser → Bool) (s : State) : (State.withdraw p s).pend = s.pend := rfl
@[simp] theorem withdraw_tariff (p : StoreUser → Bool) (s : State) : (State.withdraw p s).tariff = s.tariff := rfl
@[simp] theorem withdraw_alloc (p : StoreUser → Bool) (s : State) : (State.withdraw p s).alloc = s.alloc := rfl
@[simp] theorem withdraw_port (p : StoreUser → Bool) (s : State) :
    (State.withdraw p s).port = { s.port with queue := s.port.queue.filter fun r => !p r.user } := rfl
@[simp] theorem withdraw_rd (p : StoreUser → Bool) (s : State) : (State.withdraw p s).rd = s.rd := rfl
@[simp] theorem withdraw_ret (p : StoreUser → Bool) (s : State) : (State.withdraw p s).ret = s.ret := rfl
@[simp] theorem withdraw_audit (p : StoreUser → Bool) (s : State) : (State.withdraw p s).audit = s.audit := rfl
@[simp] theorem withdraw_jr (p : StoreUser → Bool) (s : State) : (State.withdraw p s).jr = s.jr := rfl
@[simp] theorem withdraw_set (p : StoreUser → Bool) (s : State) : (State.withdraw p s).set = s.set := rfl

/-! ### `disown` -/

@[simp] theorem disown_pending (p : StoreUser → Bool) (s : State) : (State.disown p s).pending = s.pending := rfl
@[simp] theorem disown_sent (p : StoreUser → Bool) (s : State) : (State.disown p s).sent = s.sent := rfl
@[simp] theorem disown_resetHeld (p : StoreUser → Bool) (s : State) : (State.disown p s).resetHeld = s.resetHeld := rfl
@[simp] theorem disown_straps (p : StoreUser → Bool) (s : State) : (State.disown p s).straps = s.straps := rfl
@[simp] theorem disown_startup (p : StoreUser → Bool) (s : State) : (State.disown p s).startup = s.startup := rfl
@[simp] theorem disown_halted (p : StoreUser → Bool) (s : State) : (State.disown p s).halted = s.halted := rfl
@[simp] theorem disown_haltedEarly (p : StoreUser → Bool) (s : State) : (State.disown p s).haltedEarly = s.haltedEarly := rfl
@[simp] theorem disown_latched (p : StoreUser → Bool) (s : State) : (State.disown p s).latched = s.latched := rfl
@[simp] theorem disown_client (p : StoreUser → Bool) (s : State) : (State.disown p s).client = s.client := rfl
@[simp] theorem disown_vols (p : StoreUser → Bool) (s : State) : (State.disown p s).vols = s.vols := rfl
@[simp] theorem disown_serialCounter (p : StoreUser → Bool) (s : State) :
    (State.disown p s).serialCounter = s.serialCounter := rfl
@[simp] theorem disown_ctxs (p : StoreUser → Bool) (s : State) : (State.disown p s).ctxs = s.ctxs := rfl
@[simp] theorem disown_pend (p : StoreUser → Bool) (s : State) : (State.disown p s).pend = s.pend := rfl
@[simp] theorem disown_tariff (p : StoreUser → Bool) (s : State) : (State.disown p s).tariff = s.tariff := rfl
@[simp] theorem disown_alloc (p : StoreUser → Bool) (s : State) : (State.disown p s).alloc = s.alloc := rfl
@[simp] theorem disown_port (p : StoreUser → Bool) (s : State) :
    (State.disown p s).port =
      { s.port with table := s.port.table.map fun (e : StoreEntry) => if p e.req.user then { e with discard := true } else e } := rfl
@[simp] theorem disown_rd (p : StoreUser → Bool) (s : State) : (State.disown p s).rd = s.rd := rfl
@[simp] theorem disown_ret (p : StoreUser → Bool) (s : State) : (State.disown p s).ret = s.ret := rfl
@[simp] theorem disown_audit (p : StoreUser → Bool) (s : State) : (State.disown p s).audit = s.audit := rfl
@[simp] theorem disown_jr (p : StoreUser → Bool) (s : State) : (State.disown p s).jr = s.jr := rfl
@[simp] theorem disown_set (p : StoreUser → Bool) (s : State) : (State.disown p s).set = s.set := rfl

/-! ### `dropEntry` -/

@[simp] theorem dropEntry_pending (t : Nat) (s : State) : (State.dropEntry t s).pending = s.pending := rfl
@[simp] theorem dropEntry_sent (t : Nat) (s : State) : (State.dropEntry t s).sent = s.sent := rfl
@[simp] theorem dropEntry_resetHeld (t : Nat) (s : State) : (State.dropEntry t s).resetHeld = s.resetHeld := rfl
@[simp] theorem dropEntry_straps (t : Nat) (s : State) : (State.dropEntry t s).straps = s.straps := rfl
@[simp] theorem dropEntry_startup (t : Nat) (s : State) : (State.dropEntry t s).startup = s.startup := rfl
@[simp] theorem dropEntry_halted (t : Nat) (s : State) : (State.dropEntry t s).halted = s.halted := rfl
@[simp] theorem dropEntry_haltedEarly (t : Nat) (s : State) : (State.dropEntry t s).haltedEarly = s.haltedEarly := rfl
@[simp] theorem dropEntry_latched (t : Nat) (s : State) : (State.dropEntry t s).latched = s.latched := rfl
@[simp] theorem dropEntry_client (t : Nat) (s : State) : (State.dropEntry t s).client = s.client := rfl
@[simp] theorem dropEntry_vols (t : Nat) (s : State) : (State.dropEntry t s).vols = s.vols := rfl
@[simp] theorem dropEntry_serialCounter (t : Nat) (s : State) : (State.dropEntry t s).serialCounter = s.serialCounter := rfl
@[simp] theorem dropEntry_ctxs (t : Nat) (s : State) : (State.dropEntry t s).ctxs = s.ctxs := rfl
@[simp] theorem dropEntry_pend (t : Nat) (s : State) : (State.dropEntry t s).pend = s.pend := rfl
@[simp] theorem dropEntry_tariff (t : Nat) (s : State) : (State.dropEntry t s).tariff = s.tariff := rfl
@[simp] theorem dropEntry_alloc (t : Nat) (s : State) : (State.dropEntry t s).alloc = s.alloc := rfl
@[simp] theorem dropEntry_port (t : Nat) (s : State) :
    (State.dropEntry t s).port = { s.port with table := s.port.table.filter (·.tag != t) } := rfl
@[simp] theorem dropEntry_rd (t : Nat) (s : State) : (State.dropEntry t s).rd = s.rd := rfl
@[simp] theorem dropEntry_ret (t : Nat) (s : State) : (State.dropEntry t s).ret = s.ret := rfl
@[simp] theorem dropEntry_audit (t : Nat) (s : State) : (State.dropEntry t s).audit = s.audit := rfl
@[simp] theorem dropEntry_jr (t : Nat) (s : State) : (State.dropEntry t s).jr = s.jr := rfl
@[simp] theorem dropEntry_set (t : Nat) (s : State) : (State.dropEntry t s).set = s.set := rfl

/-! ### `leaveWaiting` -/

@[simp] theorem leaveWaiting_pending (i : WaitItem) (s : State) : (State.leaveWaiting i s).pending = s.pending := rfl
@[simp] theorem leaveWaiting_sent (i : WaitItem) (s : State) : (State.leaveWaiting i s).sent = s.sent := rfl
@[simp] theorem leaveWaiting_resetHeld (i : WaitItem) (s : State) : (State.leaveWaiting i s).resetHeld = s.resetHeld := rfl
@[simp] theorem leaveWaiting_straps (i : WaitItem) (s : State) : (State.leaveWaiting i s).straps = s.straps := rfl
@[simp] theorem leaveWaiting_startup (i : WaitItem) (s : State) : (State.leaveWaiting i s).startup = s.startup := rfl
@[simp] theorem leaveWaiting_halted (i : WaitItem) (s : State) : (State.leaveWaiting i s).halted = s.halted := rfl
@[simp] theorem leaveWaiting_haltedEarly (i : WaitItem) (s : State) : (State.leaveWaiting i s).haltedEarly = s.haltedEarly := rfl
@[simp] theorem leaveWaiting_latched (i : WaitItem) (s : State) : (State.leaveWaiting i s).latched = s.latched := rfl
@[simp] theorem leaveWaiting_client (i : WaitItem) (s : State) : (State.leaveWaiting i s).client = s.client := rfl
@[simp] theorem leaveWaiting_vols (i : WaitItem) (s : State) : (State.leaveWaiting i s).vols = s.vols := rfl
@[simp] theorem leaveWaiting_serialCounter (i : WaitItem) (s : State) :
    (State.leaveWaiting i s).serialCounter = s.serialCounter := rfl
@[simp] theorem leaveWaiting_ctxs (i : WaitItem) (s : State) : (State.leaveWaiting i s).ctxs = s.ctxs := rfl
@[simp] theorem leaveWaiting_pend (i : WaitItem) (s : State) : (State.leaveWaiting i s).pend = s.pend := rfl
@[simp] theorem leaveWaiting_tariff (i : WaitItem) (s : State) : (State.leaveWaiting i s).tariff = s.tariff := rfl
@[simp] theorem leaveWaiting_alloc (i : WaitItem) (s : State) :
    (State.leaveWaiting i s).alloc = { s.alloc with waiting := s.alloc.waiting.filter (· != i) } := rfl
@[simp] theorem leaveWaiting_port (i : WaitItem) (s : State) : (State.leaveWaiting i s).port = s.port := rfl
@[simp] theorem leaveWaiting_rd (i : WaitItem) (s : State) : (State.leaveWaiting i s).rd = s.rd := rfl
@[simp] theorem leaveWaiting_ret (i : WaitItem) (s : State) : (State.leaveWaiting i s).ret = s.ret := rfl
@[simp] theorem leaveWaiting_audit (i : WaitItem) (s : State) : (State.leaveWaiting i s).audit = s.audit := rfl
@[simp] theorem leaveWaiting_jr (i : WaitItem) (s : State) : (State.leaveWaiting i s).jr = s.jr := rfl
@[simp] theorem leaveWaiting_set (i : WaitItem) (s : State) : (State.leaveWaiting i s).set = s.set := rfl

/-! ### `wakeHeldBack` -/

@[simp] theorem wakeHeldBack_pending (s : State) : s.wakeHeldBack.pending = s.pending := rfl
@[simp] theorem wakeHeldBack_sent (s : State) : s.wakeHeldBack.sent = s.sent := rfl
@[simp] theorem wakeHeldBack_resetHeld (s : State) : s.wakeHeldBack.resetHeld = s.resetHeld := rfl
@[simp] theorem wakeHeldBack_straps (s : State) : s.wakeHeldBack.straps = s.straps := rfl
@[simp] theorem wakeHeldBack_startup (s : State) : s.wakeHeldBack.startup = s.startup := rfl
@[simp] theorem wakeHeldBack_halted (s : State) : s.wakeHeldBack.halted = s.halted := rfl
@[simp] theorem wakeHeldBack_haltedEarly (s : State) : s.wakeHeldBack.haltedEarly = s.haltedEarly := rfl
@[simp] theorem wakeHeldBack_latched (s : State) : s.wakeHeldBack.latched = s.latched := rfl
@[simp] theorem wakeHeldBack_client (s : State) :
    s.wakeHeldBack.client =
      { s.client with tags := s.client.tags.map fun (e : TagEntry) =>
          match e.wait with
          | .journalWrite ring => if s.heldBack ring then { e with wait := .idle } else e
          | _ => e } := rfl
@[simp] theorem wakeHeldBack_vols (s : State) : s.wakeHeldBack.vols = s.vols := rfl
@[simp] theorem wakeHeldBack_serialCounter (s : State) : s.wakeHeldBack.serialCounter = s.serialCounter := rfl
@[simp] theorem wakeHeldBack_ctxs (s : State) : s.wakeHeldBack.ctxs = s.ctxs := rfl
@[simp] theorem wakeHeldBack_pend (s : State) : s.wakeHeldBack.pend = s.pend := rfl
@[simp] theorem wakeHeldBack_tariff (s : State) : s.wakeHeldBack.tariff = s.tariff := rfl
@[simp] theorem wakeHeldBack_alloc (s : State) : s.wakeHeldBack.alloc = s.alloc := rfl
@[simp] theorem wakeHeldBack_port (s : State) : s.wakeHeldBack.port = s.port := rfl
@[simp] theorem wakeHeldBack_rd (s : State) : s.wakeHeldBack.rd = s.rd := rfl
@[simp] theorem wakeHeldBack_ret (s : State) : s.wakeHeldBack.ret = s.ret := rfl
@[simp] theorem wakeHeldBack_audit (s : State) : s.wakeHeldBack.audit = s.audit := rfl
@[simp] theorem wakeHeldBack_jr (s : State) : s.wakeHeldBack.jr = s.jr := rfl
@[simp] theorem wakeHeldBack_set (s : State) : s.wakeHeldBack.set = s.set := rfl

/-! ### `modStartup` -/

@[simp] theorem modStartup_pending (f : Startup → Startup) (s : State) : (State.modStartup f s).pending = s.pending := rfl
@[simp] theorem modStartup_sent (f : Startup → Startup) (s : State) : (State.modStartup f s).sent = s.sent := rfl
@[simp] theorem modStartup_resetHeld (f : Startup → Startup) (s : State) : (State.modStartup f s).resetHeld = s.resetHeld := rfl
@[simp] theorem modStartup_straps (f : Startup → Startup) (s : State) : (State.modStartup f s).straps = s.straps := rfl
@[simp] theorem modStartup_startup (f : Startup → Startup) (s : State) : (State.modStartup f s).startup = s.startup.map f := rfl
@[simp] theorem modStartup_halted (f : Startup → Startup) (s : State) : (State.modStartup f s).halted = s.halted := rfl
@[simp] theorem modStartup_haltedEarly (f : Startup → Startup) (s : State) :
    (State.modStartup f s).haltedEarly = s.haltedEarly := rfl
@[simp] theorem modStartup_latched (f : Startup → Startup) (s : State) : (State.modStartup f s).latched = s.latched := rfl
@[simp] theorem modStartup_client (f : Startup → Startup) (s : State) : (State.modStartup f s).client = s.client := rfl
@[simp] theorem modStartup_vols (f : Startup → Startup) (s : State) : (State.modStartup f s).vols = s.vols := rfl
@[simp] theorem modStartup_serialCounter (f : Startup → Startup) (s : State) :
    (State.modStartup f s).serialCounter = s.serialCounter := rfl
@[simp] theorem modStartup_ctxs (f : Startup → Startup) (s : State) : (State.modStartup f s).ctxs = s.ctxs := rfl
@[simp] theorem modStartup_pend (f : Startup → Startup) (s : State) : (State.modStartup f s).pend = s.pend := rfl
@[simp] theorem modStartup_tariff (f : Startup → Startup) (s : State) : (State.modStartup f s).tariff = s.tariff := rfl
@[simp] theorem modStartup_alloc (f : Startup → Startup) (s : State) : (State.modStartup f s).alloc = s.alloc := rfl
@[simp] theorem modStartup_port (f : Startup → Startup) (s : State) : (State.modStartup f s).port = s.port := rfl
@[simp] theorem modStartup_rd (f : Startup → Startup) (s : State) : (State.modStartup f s).rd = s.rd := rfl
@[simp] theorem modStartup_ret (f : Startup → Startup) (s : State) : (State.modStartup f s).ret = s.ret := rfl
@[simp] theorem modStartup_audit (f : Startup → Startup) (s : State) : (State.modStartup f s).audit = s.audit := rfl
@[simp] theorem modStartup_jr (f : Startup → Startup) (s : State) : (State.modStartup f s).jr = s.jr := rfl
@[simp] theorem modStartup_set (f : Startup → Startup) (s : State) : (State.modStartup f s).set = s.set := rfl

/-! ### `modPatrol` -/

@[simp] theorem modPatrol_pending (f : Patrol → Patrol) (s : State) : (State.modPatrol f s).pending = s.pending := rfl
@[simp] theorem modPatrol_sent (f : Patrol → Patrol) (s : State) : (State.modPatrol f s).sent = s.sent := rfl
@[simp] theorem modPatrol_resetHeld (f : Patrol → Patrol) (s : State) : (State.modPatrol f s).resetHeld = s.resetHeld := rfl
@[simp] theorem modPatrol_straps (f : Patrol → Patrol) (s : State) : (State.modPatrol f s).straps = s.straps := rfl
@[simp] theorem modPatrol_startup (f : Patrol → Patrol) (s : State) : (State.modPatrol f s).startup = s.startup := rfl
@[simp] theorem modPatrol_halted (f : Patrol → Patrol) (s : State) : (State.modPatrol f s).halted = s.halted := rfl
@[simp] theorem modPatrol_haltedEarly (f : Patrol → Patrol) (s : State) : (State.modPatrol f s).haltedEarly = s.haltedEarly := rfl
@[simp] theorem modPatrol_latched (f : Patrol → Patrol) (s : State) : (State.modPatrol f s).latched = s.latched := rfl
@[simp] theorem modPatrol_client (f : Patrol → Patrol) (s : State) : (State.modPatrol f s).client = s.client := rfl
@[simp] theorem modPatrol_vols (f : Patrol → Patrol) (s : State) : (State.modPatrol f s).vols = s.vols := rfl
@[simp] theorem modPatrol_serialCounter (f : Patrol → Patrol) (s : State) :
    (State.modPatrol f s).serialCounter = s.serialCounter := rfl
@[simp] theorem modPatrol_ctxs (f : Patrol → Patrol) (s : State) : (State.modPatrol f s).ctxs = s.ctxs := rfl
@[simp] theorem modPatrol_pend (f : Patrol → Patrol) (s : State) : (State.modPatrol f s).pend = s.pend := rfl
@[simp] theorem modPatrol_tariff (f : Patrol → Patrol) (s : State) : (State.modPatrol f s).tariff = s.tariff := rfl
@[simp] theorem modPatrol_alloc (f : Patrol → Patrol) (s : State) : (State.modPatrol f s).alloc = s.alloc := rfl
@[simp] theorem modPatrol_port (f : Patrol → Patrol) (s : State) : (State.modPatrol f s).port = s.port := rfl
@[simp] theorem modPatrol_rd (f : Patrol → Patrol) (s : State) : (State.modPatrol f s).rd = s.rd := rfl
@[simp] theorem modPatrol_ret (f : Patrol → Patrol) (s : State) : (State.modPatrol f s).ret = s.ret := rfl
@[simp] theorem modPatrol_audit (f : Patrol → Patrol) (s : State) :
    (State.modPatrol f s).audit = { s.audit with patrol := f s.audit.patrol } := rfl
@[simp] theorem modPatrol_jr (f : Patrol → Patrol) (s : State) : (State.modPatrol f s).jr = s.jr := rfl
@[simp] theorem modPatrol_set (f : Patrol → Patrol) (s : State) : (State.modPatrol f s).set = s.set := rfl

/-! ### `modCurrent` -/

@[simp] theorem modCurrent_pending (f : Verification → Verification) (s : State) :
    (State.modCurrent f s).pending = s.pending := rfl
@[simp] theorem modCurrent_sent (f : Verification → Verification) (s : State) : (State.modCurrent f s).sent = s.sent := rfl
@[simp] theorem modCurrent_resetHeld (f : Verification → Verification) (s : State) :
    (State.modCurrent f s).resetHeld = s.resetHeld := rfl
@[simp] theorem modCurrent_straps (f : Verification → Verification) (s : State) : (State.modCurrent f s).straps = s.straps := rfl
@[simp] theorem modCurrent_startup (f : Verification → Verification) (s : State) :
    (State.modCurrent f s).startup = s.startup := rfl
@[simp] theorem modCurrent_halted (f : Verification → Verification) (s : State) : (State.modCurrent f s).halted = s.halted := rfl
@[simp] theorem modCurrent_haltedEarly (f : Verification → Verification) (s : State) :
    (State.modCurrent f s).haltedEarly = s.haltedEarly := rfl
@[simp] theorem modCurrent_latched (f : Verification → Verification) (s : State) :
    (State.modCurrent f s).latched = s.latched := rfl
@[simp] theorem modCurrent_client (f : Verification → Verification) (s : State) : (State.modCurrent f s).client = s.client := rfl
@[simp] theorem modCurrent_vols (f : Verification → Verification) (s : State) : (State.modCurrent f s).vols = s.vols := rfl
@[simp] theorem modCurrent_serialCounter (f : Verification → Verification) (s : State) :
    (State.modCurrent f s).serialCounter = s.serialCounter := rfl
@[simp] theorem modCurrent_ctxs (f : Verification → Verification) (s : State) : (State.modCurrent f s).ctxs = s.ctxs := rfl
@[simp] theorem modCurrent_pend (f : Verification → Verification) (s : State) : (State.modCurrent f s).pend = s.pend := rfl
@[simp] theorem modCurrent_tariff (f : Verification → Verification) (s : State) : (State.modCurrent f s).tariff = s.tariff := rfl
@[simp] theorem modCurrent_alloc (f : Verification → Verification) (s : State) : (State.modCurrent f s).alloc = s.alloc := rfl
@[simp] theorem modCurrent_port (f : Verification → Verification) (s : State) : (State.modCurrent f s).port = s.port := rfl
@[simp] theorem modCurrent_rd (f : Verification → Verification) (s : State) : (State.modCurrent f s).rd = s.rd := rfl
@[simp] theorem modCurrent_ret (f : Verification → Verification) (s : State) : (State.modCurrent f s).ret = s.ret := rfl
@[simp] theorem modCurrent_audit (f : Verification → Verification) (s : State) :
    (State.modCurrent f s).audit = { s.audit with current := s.audit.current.map f } := rfl
@[simp] theorem modCurrent_jr (f : Verification → Verification) (s : State) : (State.modCurrent f s).jr = s.jr := rfl
@[simp] theorem modCurrent_set (f : Verification → Verification) (s : State) : (State.modCurrent f s).set = s.set := rfl

/-! ### `setStalled` -/

@[simp] theorem setStalled_pending (s : State) : s.setStalled.pending = s.pending := rfl
@[simp] theorem setStalled_sent (s : State) : s.setStalled.sent = s.sent := rfl
@[simp] theorem setStalled_resetHeld (s : State) : s.setStalled.resetHeld = s.resetHeld := rfl
@[simp] theorem setStalled_straps (s : State) : s.setStalled.straps = s.straps := rfl
@[simp] theorem setStalled_startup (s : State) : s.setStalled.startup = s.startup := rfl
@[simp] theorem setStalled_halted (s : State) : s.setStalled.halted = s.halted := rfl
@[simp] theorem setStalled_haltedEarly (s : State) : s.setStalled.haltedEarly = s.haltedEarly := rfl
@[simp] theorem setStalled_latched (s : State) : s.setStalled.latched = { s.latched with volumeStalled := true } := rfl
@[simp] theorem setStalled_client (s : State) : s.setStalled.client = s.client := rfl
@[simp] theorem setStalled_vols (s : State) : s.setStalled.vols = s.vols := rfl
@[simp] theorem setStalled_serialCounter (s : State) : s.setStalled.serialCounter = s.serialCounter := rfl
@[simp] theorem setStalled_ctxs (s : State) : s.setStalled.ctxs = s.ctxs := rfl
@[simp] theorem setStalled_pend (s : State) : s.setStalled.pend = s.pend := rfl
@[simp] theorem setStalled_tariff (s : State) : s.setStalled.tariff = s.tariff := rfl
@[simp] theorem setStalled_alloc (s : State) : s.setStalled.alloc = s.alloc := rfl
@[simp] theorem setStalled_port (s : State) : s.setStalled.port = s.port := rfl
@[simp] theorem setStalled_rd (s : State) : s.setStalled.rd = s.rd := rfl
@[simp] theorem setStalled_ret (s : State) : s.setStalled.ret = s.ret := rfl
@[simp] theorem setStalled_audit (s : State) : s.setStalled.audit = s.audit := rfl
@[simp] theorem setStalled_jr (s : State) : s.setStalled.jr = s.jr := rfl
@[simp] theorem setStalled_set (s : State) : s.setStalled.set = s.set := rfl

/-! ### `setDiscrepant` -/

@[simp] theorem setDiscrepant_pending (s : State) : s.setDiscrepant.pending = s.pending := rfl
@[simp] theorem setDiscrepant_sent (s : State) : s.setDiscrepant.sent = s.sent := rfl
@[simp] theorem setDiscrepant_resetHeld (s : State) : s.setDiscrepant.resetHeld = s.resetHeld := rfl
@[simp] theorem setDiscrepant_straps (s : State) : s.setDiscrepant.straps = s.straps := rfl
@[simp] theorem setDiscrepant_startup (s : State) : s.setDiscrepant.startup = s.startup := rfl
@[simp] theorem setDiscrepant_halted (s : State) : s.setDiscrepant.halted = s.halted := rfl
@[simp] theorem setDiscrepant_haltedEarly (s : State) : s.setDiscrepant.haltedEarly = s.haltedEarly := rfl
@[simp] theorem setDiscrepant_latched (s : State) : s.setDiscrepant.latched = { s.latched with discrepantClose := true } := rfl
@[simp] theorem setDiscrepant_client (s : State) : s.setDiscrepant.client = s.client := rfl
@[simp] theorem setDiscrepant_vols (s : State) : s.setDiscrepant.vols = s.vols := rfl
@[simp] theorem setDiscrepant_serialCounter (s : State) : s.setDiscrepant.serialCounter = s.serialCounter := rfl
@[simp] theorem setDiscrepant_ctxs (s : State) : s.setDiscrepant.ctxs = s.ctxs := rfl
@[simp] theorem setDiscrepant_pend (s : State) : s.setDiscrepant.pend = s.pend := rfl
@[simp] theorem setDiscrepant_tariff (s : State) : s.setDiscrepant.tariff = s.tariff := rfl
@[simp] theorem setDiscrepant_alloc (s : State) : s.setDiscrepant.alloc = s.alloc := rfl
@[simp] theorem setDiscrepant_port (s : State) : s.setDiscrepant.port = s.port := rfl
@[simp] theorem setDiscrepant_rd (s : State) : s.setDiscrepant.rd = s.rd := rfl
@[simp] theorem setDiscrepant_ret (s : State) : s.setDiscrepant.ret = s.ret := rfl
@[simp] theorem setDiscrepant_audit (s : State) : s.setDiscrepant.audit = s.audit := rfl
@[simp] theorem setDiscrepant_jr (s : State) : s.setDiscrepant.jr = s.jr := rfl
@[simp] theorem setDiscrepant_set (s : State) : s.setDiscrepant.set = s.set := rfl

/-! ### `setDamage` -/

@[simp] theorem setDamage_pending (s : State) : s.setDamage.pending = s.pending := rfl
@[simp] theorem setDamage_sent (s : State) : s.setDamage.sent = s.sent := rfl
@[simp] theorem setDamage_resetHeld (s : State) : s.setDamage.resetHeld = s.resetHeld := rfl
@[simp] theorem setDamage_straps (s : State) : s.setDamage.straps = s.straps := rfl
@[simp] theorem setDamage_startup (s : State) : s.setDamage.startup = s.startup := rfl
@[simp] theorem setDamage_halted (s : State) : s.setDamage.halted = s.halted := rfl
@[simp] theorem setDamage_haltedEarly (s : State) : s.setDamage.haltedEarly = s.haltedEarly := rfl
@[simp] theorem setDamage_latched (s : State) : s.setDamage.latched = { s.latched with damageFound := true } := rfl
@[simp] theorem setDamage_client (s : State) : s.setDamage.client = s.client := rfl
@[simp] theorem setDamage_vols (s : State) : s.setDamage.vols = s.vols := rfl
@[simp] theorem setDamage_serialCounter (s : State) : s.setDamage.serialCounter = s.serialCounter := rfl
@[simp] theorem setDamage_ctxs (s : State) : s.setDamage.ctxs = s.ctxs := rfl
@[simp] theorem setDamage_pend (s : State) : s.setDamage.pend = s.pend := rfl
@[simp] theorem setDamage_tariff (s : State) : s.setDamage.tariff = s.tariff := rfl
@[simp] theorem setDamage_alloc (s : State) : s.setDamage.alloc = s.alloc := rfl
@[simp] theorem setDamage_port (s : State) : s.setDamage.port = s.port := rfl
@[simp] theorem setDamage_rd (s : State) : s.setDamage.rd = s.rd := rfl
@[simp] theorem setDamage_ret (s : State) : s.setDamage.ret = s.ret := rfl
@[simp] theorem setDamage_audit (s : State) : s.setDamage.audit = s.audit := rfl
@[simp] theorem setDamage_jr (s : State) : s.setDamage.jr = s.jr := rfl
@[simp] theorem setDamage_set (s : State) : s.setDamage.set = s.set := rfl

/-! ### `setStoreFault` -/

@[simp] theorem setStoreFault_pending (s : State) : s.setStoreFault.pending = s.pending := rfl
@[simp] theorem setStoreFault_sent (s : State) : s.setStoreFault.sent = s.sent := rfl
@[simp] theorem setStoreFault_resetHeld (s : State) : s.setStoreFault.resetHeld = s.resetHeld := rfl
@[simp] theorem setStoreFault_straps (s : State) : s.setStoreFault.straps = s.straps := rfl
@[simp] theorem setStoreFault_startup (s : State) : s.setStoreFault.startup = s.startup := rfl
@[simp] theorem setStoreFault_halted (s : State) : s.setStoreFault.halted = s.halted := rfl
@[simp] theorem setStoreFault_haltedEarly (s : State) : s.setStoreFault.haltedEarly = s.haltedEarly := rfl
@[simp] theorem setStoreFault_latched (s : State) : s.setStoreFault.latched = { s.latched with storeFault := true } := rfl
@[simp] theorem setStoreFault_client (s : State) : s.setStoreFault.client = s.client := rfl
@[simp] theorem setStoreFault_vols (s : State) : s.setStoreFault.vols = s.vols := rfl
@[simp] theorem setStoreFault_serialCounter (s : State) : s.setStoreFault.serialCounter = s.serialCounter := rfl
@[simp] theorem setStoreFault_ctxs (s : State) : s.setStoreFault.ctxs = s.ctxs := rfl
@[simp] theorem setStoreFault_pend (s : State) : s.setStoreFault.pend = s.pend := rfl
@[simp] theorem setStoreFault_tariff (s : State) : s.setStoreFault.tariff = s.tariff := rfl
@[simp] theorem setStoreFault_alloc (s : State) : s.setStoreFault.alloc = s.alloc := rfl
@[simp] theorem setStoreFault_port (s : State) : s.setStoreFault.port = s.port := rfl
@[simp] theorem setStoreFault_rd (s : State) : s.setStoreFault.rd = s.rd := rfl
@[simp] theorem setStoreFault_ret (s : State) : s.setStoreFault.ret = s.ret := rfl
@[simp] theorem setStoreFault_audit (s : State) : s.setStoreFault.audit = s.audit := rfl
@[simp] theorem setStoreFault_jr (s : State) : s.setStoreFault.jr = s.jr := rfl
@[simp] theorem setStoreFault_set (s : State) : s.setStoreFault.set = s.set := rfl

/-! ### `setBlocked` -/

@[simp] theorem setBlocked_pending (s : State) : s.setBlocked.pending = s.pending := rfl
@[simp] theorem setBlocked_sent (s : State) : s.setBlocked.sent = s.sent := rfl
@[simp] theorem setBlocked_resetHeld (s : State) : s.setBlocked.resetHeld = s.resetHeld := rfl
@[simp] theorem setBlocked_straps (s : State) : s.setBlocked.straps = s.straps := rfl
@[simp] theorem setBlocked_startup (s : State) : s.setBlocked.startup = s.startup := rfl
@[simp] theorem setBlocked_halted (s : State) : s.setBlocked.halted = s.halted := rfl
@[simp] theorem setBlocked_haltedEarly (s : State) : s.setBlocked.haltedEarly = s.haltedEarly := rfl
@[simp] theorem setBlocked_latched (s : State) : s.setBlocked.latched = { s.latched with expiryBlocked := true } := rfl
@[simp] theorem setBlocked_client (s : State) : s.setBlocked.client = s.client := rfl
@[simp] theorem setBlocked_vols (s : State) : s.setBlocked.vols = s.vols := rfl
@[simp] theorem setBlocked_serialCounter (s : State) : s.setBlocked.serialCounter = s.serialCounter := rfl
@[simp] theorem setBlocked_ctxs (s : State) : s.setBlocked.ctxs = s.ctxs := rfl
@[simp] theorem setBlocked_pend (s : State) : s.setBlocked.pend = s.pend := rfl
@[simp] theorem setBlocked_tariff (s : State) : s.setBlocked.tariff = s.tariff := rfl
@[simp] theorem setBlocked_alloc (s : State) : s.setBlocked.alloc = s.alloc := rfl
@[simp] theorem setBlocked_port (s : State) : s.setBlocked.port = s.port := rfl
@[simp] theorem setBlocked_rd (s : State) : s.setBlocked.rd = s.rd := rfl
@[simp] theorem setBlocked_ret (s : State) : s.setBlocked.ret = s.ret := rfl
@[simp] theorem setBlocked_audit (s : State) : s.setBlocked.audit = s.audit := rfl
@[simp] theorem setBlocked_jr (s : State) : s.setBlocked.jr = s.jr := rfl
@[simp] theorem setBlocked_set (s : State) : s.setBlocked.set = s.set := rfl

end Sys2Proof.Machine
end

