-- ==== Sys2Proof/Laws/Lookups.lean ====
section
/-! SUPPORT. What the lookups of Machine/Ops.lean find after an update of one record: the record changed where the update names it,
and the record as it was elsewhere. -/

namespace Sys2Proof.Machine

/-- Looking a key up after a change of the members with one key, by a change that keeps keys. -/
theorem find?_map_key {α : Type} (key : α → Nat) (w k : Nat) (f : α → α) (hf : ∀ x, key (f x) = key x) (l : List α) :
    (l.map fun x => if key x == w then f x else x).find? (fun x => key x == k)
      = (l.find? fun x => key x == k).map fun x => if k == w then f x else x := by
  induction l with
  | nil => rfl
  | cons a l ih =>
    by_cases ha : key a = w
    · by_cases hk : w = k
      · subst hk; simp [ha, hf]
      · simpa [List.find?_cons, ha, hf, hk] using ih
    · by_cases hk : key a = k
      · subst hk; simp [ha]
      · simpa [List.find?_cons, ha, hk] using ih

/-- Looking a key up after the members with one key are gone. -/
theorem find?_filter_key {α : Type} (key : α → Nat) (w k : Nat) (l : List α) :
    (l.filter fun x => key x != w).find? (fun x => key x == k) = if k == w then none else l.find? fun x => key x == k := by
  induction l with
  | nil => simp
  | cons a l ih =>
    by_cases ha : key a = w
    · by_cases hk : k = w
      · subst hk; simp [ha] at ih ⊢
      · have : ¬ w = k := fun h => hk h.symm
        simpa [List.filter_cons, List.find?_cons, ha, hk, this] using ih
    · by_cases hk : key a = k
      · subst hk; simp [ha]
      · simpa [List.filter_cons, List.find?_cons, ha, hk] using ih

/-- Looking a key up after a member joins by its key. -/
theorem find?_insertBy {α : Type} (key : α → Nat) (x : α) (k : Nat) (l : List α) (hk : key x ≠ k) :
    (insertBy key x l).find? (fun y => key y == k) = l.find? fun y => key y == k := by
  induction l with
  | nil => simp [insertBy, hk]
  | cons a l ih =>
    simp only [insertBy]
    split
    · simp [List.find?_cons, hk]
    · simp only [List.find?_cons, ih]

/-- Looking a new member up by its key. -/
theorem find?_insertBy_self {α : Type} (key : α → Nat) (x : α) (l : List α) (h : l.find? (fun y => key y == key x) = none) :
    (insertBy key x l).find? (fun y => key y == key x) = some x := by
  induction l with
  | nil => simp [insertBy]
  | cons a l ih =>
    simp only [List.find?_eq_none, List.mem_cons, forall_eq_or_imp] at h ih
    have ha : (key a == key x) = false := by simpa using h.1
    simp only [insertBy]
    split
    · simp
    · simp only [List.find?_cons, ha]; exact ih h.2

theorem vol_modVol (w k : Nat) (f : Volume → Volume) (hf : ∀ v, (f v).window = v.window) (s : State) :
    (s.modVol w f).vol k = (s.vol k).map fun v => if k == w then f v else v :=
  find?_map_key (fun x : Volume => x.window) w k f hf s.vols

theorem ctx_modCtx (w k : Nat) (f : Ctx → Ctx) (hf : ∀ c, (f c).window = c.window) (s : State) :
    (s.modCtx w f).ctx k = (s.ctx k).map fun c => if k == w then f c else c :=
  find?_map_key (fun x : Ctx => x.window) w k f hf s.ctxs

theorem tag_modTag (t k : Nat) (f : TagEntry → TagEntry) (hf : ∀ e, (f e).tag = e.tag) (s : State) :
    (s.modTag t f).tag k = (s.tag k).map fun e => if k == t then f e else e :=
  find?_map_key (fun x : TagEntry => x.tag) t k f hf s.client.tags

theorem vol_dropVol (w k : Nat) (s : State) : (s.dropVol w).vol k = if k == w then none else s.vol k :=
  find?_filter_key (fun x : Volume => x.window) w k s.vols

theorem ctx_dropCtx (w k : Nat) (s : State) : (s.dropCtx w).ctx k = if k == w then none else s.ctx k :=
  find?_filter_key (fun x : Ctx => x.window) w k s.ctxs

theorem entry_dropEntry (t k : Nat) (s : State) : (s.dropEntry t).entry k = if k == t then none else s.entry k :=
  find?_filter_key (fun x : StoreEntry => x.tag) t k s.port.table

theorem tag_dropTag (t k : Nat) (s : State) : (s.dropTag t).tag k = if k == t then none else s.tag k :=
  find?_filter_key (fun x : TagEntry => x.tag) t k s.client.tags

theorem tag_complete (t k : Nat) (st : Status) (r : Option Reason) (n : Nat) (s : State) :
    (s.complete t st r n).tag k = if k == t then none else s.tag k :=
  tag_dropTag t k s

theorem vol_addVol (v : Volume) (k : Nat) (s : State) (h : v.window ≠ k) : (s.addVol v).vol k = s.vol k :=
  find?_insertBy (fun x : Volume => x.window) v k s.vols h

theorem vol_addVol_self (v : Volume) (s : State) (h : s.vol v.window = none) : (s.addVol v).vol v.window = some v :=
  find?_insertBy_self (fun x : Volume => x.window) v s.vols h

theorem tag_addTag (e : TagEntry) (k : Nat) (s : State) (h : e.tag ≠ k) : (s.addTag e).tag k = s.tag k :=
  find?_insertBy (fun x : TagEntry => x.tag) e k s.client.tags h

theorem tag_addTag_self (e : TagEntry) (s : State) (h : s.tag e.tag = none) : (s.addTag e).tag e.tag = some e :=
  find?_insertBy_self (fun x : TagEntry => x.tag) e s.client.tags h

/-- A record found by its window has that window. -/
theorem vol_window {s : State} {w : Nat} {v : Volume} (h : s.vol w = some v) : v.window = w := by
  simpa using List.find?_some h

theorem ctx_window {s : State} {w : Nat} {c : Ctx} (h : s.ctx w = some c) : c.window = w := by simpa using List.find?_some h

theorem tag_tag {s : State} {t : Nat} {e : TagEntry} (h : s.tag t = some e) : e.tag = t := by simpa using List.find?_some h

theorem entry_tag {s : State} {t : Nat} {e : StoreEntry} (h : s.entry t = some e) : e.tag = t := by simpa using List.find?_some h

theorem volOf_serial {s : State} {n : Nat} {v : Volume} (h : s.volOf n = some v) : v.serial = n := by
  simpa using List.find?_some h

theorem mem_of_vol {s : State} {w : Nat} {v : Volume} (h : s.vol w = some v) : v ∈ s.vols := List.mem_of_find?_eq_some h

theorem mem_of_tag {s : State} {t : Nat} {e : TagEntry} (h : s.tag t = some e) : e ∈ s.client.tags := List.mem_of_find?_eq_some h

end Sys2Proof.Machine
end

