-- ==== Sys2Proof/Laws/Only.lean ====
section
/-! SUPPORT. Which fields of the state each shared operation can change: the state after it is the state before with those fields
replaced. What a field outside the list holds follows by `congrArg`. -/

namespace Sys2Proof.Machine

/-! ### Client requests and directives -/

theorem dropTag_only (t : Nat) (s : State) :
    s.dropTag t = { s with
      client := (s.dropTag t).client, rd := (s.dropTag t).rd, port := (s.dropTag t).port, jr := (s.dropTag t).jr } := rfl

theorem complete_only (t : Nat) (st : Status) (r : Option Reason) (n : Nat) (s : State) :
    let u := s.complete t st r n
    u = { s with sent := u.sent, client := u.client, rd := u.rd, port := u.port, jr := u.jr } := rfl

theorem answer_only (o : Option Nat) (st : Status) (r : Option Reason) (s : State) :
    let u := s.answer o st r
    u = { s with sent := u.sent, client := u.client, rd := u.rd, port := u.port, jr := u.jr } := by
  intro u
  simp only [u, State.answer]
  cases o with
  | none => rfl
  | some t => simp only; split <;> rfl

/-! ### Fixed-place writes -/

theorem handSettings_only (ws : List SetWaiter) (s : State) :
    let u := s.handSettings ws
    u = { s with set := u.set, port := u.port } := rfl

theorem callSettings_only (w : SetWaiter) (s : State) :
    let u := s.callSettings w
    u = { s with set := u.set, port := u.port } := by
  intro u
  simp only [u, State.callSettings]
  split <;> rfl

theorem callCatalogue_only (w : Nat) (ws : List CatWaiter) (s : State) :
    let u := s.callCatalogue w ws
    u = { s with set := u.set, port := u.port } := by
  intro u
  simp only [u, State.callCatalogue]
  split <;> rfl

theorem callJournal_only (ring : Nat) (b : Block) (ws : List JournalWaiter) (s : State) :
    let u := s.callJournal ring b ws
    u = { s with jr := u.jr, port := u.port } := by
  intro u
  simp only [u, State.callJournal]
  split
  · rfl
  · split <;> rfl

/-! ### The journal -/

theorem passBlock_only (s : State) :
    let u := s.passBlock
    u = { s with jr := u.jr, port := u.port } := by
  intro u
  simp only [u, State.passBlock]
  generalize (if 16 ≤ 4096 - s.jr.buf.used then _ else s.jr.buf : JournalBuffer) = b
  split
  · rfl
  · rw [callJournal_only]

/-- An entry with no appender to release changes the journal and the queue of store requests at most. -/
theorem appendNow_nobody {a : Append} (h : a.who = .nobody) (s : State) :
    let u := s.appendNow a
    u = { s with jr := u.jr, port := u.port } := by
  intro u
  have h1 : (if s.fits a then s else s.passBlock)
      = { s with jr := (if s.fits a then s else s.passBlock).jr, port := (if s.fits a then s else s.passBlock).port } := by
    split
    · rfl
    · exact passBlock_only s
  simp only [u, State.appendNow, h, State.release]
  generalize (if s.fits a then s else s.passBlock) = t at *
  rw [h1]
  split
  · rw [callJournal_only]; rfl
  · rfl

theorem append_nobody {a : Append} (h : a.who = .nobody) (s : State) :
    let u := s.append a
    u = { s with jr := u.jr, port := u.port } := by
  intro u
  simp only [u, State.append]
  split
  · exact appendNow_nobody h s
  · rfl

theorem appendFault_only (f : FaultInfo) (s : State) :
    let u := s.appendFault f
    u = { s with jr := u.jr, port := u.port } := append_nobody rfl s

/-! ### Placing, sealing, closing segments -/

theorem joinWaiting_only (i : WaitItem) (s : State) :
    let u := s.joinWaiting i
    u = { s with alloc := u.alloc } := by
  intro u
  simp only [u, State.joinWaiting]
  split <;> rfl

theorem tryPlace_only {n i : Nat} {s t : State} (h : s.tryPlace n i = some t) :
    t = { s with pend := t.pend, alloc := t.alloc, port := t.port } := by
  simp only [State.tryPlace] at h
  split at h
  · cases h
  · split at h
    · cases h
    · cases h; rfl

theorem placeOnce_only (n i : Nat) (s : State) :
    let u := s.placeOnce n i
    u = { s with pend := u.pend, alloc := u.alloc, port := u.port } := by
  intro u
  simp only [u, State.placeOnce]
  split
  · rfl
  · split
    · next h => exact tryPlace_only h
    · rw [joinWaiting_only]

theorem sealOnce_only (w : Nat) (s : State) :
    let u := s.sealOnce w
    u = { s with pend := u.pend, alloc := u.alloc, port := u.port, ctxs := u.ctxs } := by
  intro u
  simp only [u, State.sealOnce]
  split
  · rfl
  · split
    · rw [placeOnce_only]; rfl
    · rfl

theorem proceed_only (i : WaitItem) (s : State) :
    let u := State.proceed i s
    u = { s with pend := u.pend, alloc := u.alloc, port := u.port, ctxs := u.ctxs } := by
  intro u
  simp only [u, State.proceed]
  match i with
  | .seal w n =>
    simp only
    split
    · rfl
    · split
      · rfl
      · split
        · exact sealOnce_only w s
        · rfl
  | .place n i =>
    simp only
    split
    · rfl
    · split
      · rfl
      · next h => rw [State.leaveWaiting, tryPlace_only h]

/-- A change made for each of a list keeps what each change keeps. -/
theorem each_only {α : Type} (f : α → State → State) (g : State → State → State)
    (h : ∀ x s, f x s = g s (f x s)) (hr : ∀ s, s = g s s) (ht : ∀ s t u : State, t = g s t → u = g t u → u = g s u)
    (xs : List α) (s : State) : each f xs s = g s (each f xs s) := by
  induction xs generalizing s with
  | nil => exact hr s
  | cons x xs ih => exact ht s (f x s) _ (h x s) (ih (f x s))

theorem passAgain_only (n : Nat) (s : State) :
    let u := s.passAgain n
    u = { s with pend := u.pend, alloc := u.alloc, port := u.port, ctxs := u.ctxs } := by
  induction n generalizing s with
  | zero => rfl
  | succ n ih =>
    have h := each_only _ (fun s u => { s with pend := u.pend, alloc := u.alloc, port := u.port, ctxs := u.ctxs }) proceed_only
      (fun _ => rfl) (fun s t u h k => by rw [h] at k; exact k) s.alloc.waiting s
    intro u
    simp only [u, State.passAgain]
    split
    · have k := ih (each State.proceed s.alloc.waiting s)
      simp only at k
      rw [h] at k ⊢
      exact k
    · exact h

theorem passWaiting_only (s : State) :
    let u := s.passWaiting
    u = { s with pend := u.pend, alloc := u.alloc, port := u.port, ctxs := u.ctxs } := by
  intro u
  simp only [u, State.passWaiting]
  split
  · rfl
  · exact passAgain_only _ s

theorem passIfJoined_only (old : Alloc) (s : State) :
    let u := s.passIfJoined old
    u = { s with pend := u.pend, alloc := u.alloc, port := u.port, ctxs := u.ctxs } := by
  intro u
  simp only [u, State.passIfJoined]
  split
  · exact passWaiting_only s
  · rfl

theorem placeOrWait_only (n i : Nat) (s : State) :
    let u := s.placeOrWait n i
    u = { s with pend := u.pend, alloc := u.alloc, port := u.port, ctxs := u.ctxs } := by
  intro u
  simp only [u, State.placeOrWait]
  rw [passIfJoined_only, placeOnce_only]

theorem seal_only (w : Nat) (s : State) :
    let u := s.seal w
    u = { s with pend := u.pend, alloc := u.alloc, port := u.port, ctxs := u.ctxs } := by
  intro u
  simp only [u, State.seal]
  rw [passIfJoined_only, sealOnce_only]

theorem closeDue_only (cond : CloseCond) (w : Nat) (s : State) :
    let u := s.closeDue cond w
    u = { s with pend := u.pend, alloc := u.alloc, port := u.port, ctxs := u.ctxs } := by
  intro u
  simp only [u, State.closeDue]
  split
  · rfl
  · split
    · rfl
    · split
      · exact seal_only w s
      · simp only [State.holdClose]
        split
        · rw [joinWaiting_only]; rfl
        · rfl

theorem zoneTest_only (n : Nat) (s : State) :
    let u := s.zoneTest n
    u = { s with pend := u.pend, alloc := u.alloc, port := u.port, ctxs := u.ctxs } := by
  intro u
  simp only [u, State.zoneTest]
  split
  · rfl
  · split
    · rfl
    · split
      · rw [passWaiting_only]
      · split
        · rw [passWaiting_only]
        · rfl

/-! ### Start-up's part in a completion -/

/-- Once start-up has ended no write is the format's last. -/
theorem formatDone_started {s : State} (h : s.startup = none) : s.formatDone = s := by simp [State.formatDone, h]

end Sys2Proof.Machine
end

