-- ==== Sys2Proof/Laws/PerInstr.lean ====
section
/-! SUPPORT. The facts about the commands as syntax, one lemma per constructor: the commands that have a directive's block form are
those that carry a directive's tag, its code is one of the sixteen of 12.2, and none of them is a pin. -/

namespace Sys2Proof.Laws.F

open Sys2Proof.Machine

/-- A command has a directive's block form exactly when it carries a directive's tag; then its code is 1 to 16 and it is no pin. -/
def Statement (i : Instr) : Prop :=
  i.directiveTag.isSome = (directiveForm i).isSome
    ∧ ∀ p, directiveForm i = some p → 1 ≤ p.1 ∧ p.1 ≤ 16 ∧ i.isPin = false

/-- A command that is no directive. -/
theorem of_none {i : Instr} (ht : i.directiveTag = none) (hf : directiveForm i = none) : Statement i := by
  simp [Statement, ht, hf]

/-- A directive with its form. -/
theorem of_some {i : Instr} {t : Byte} {q : Nat × BitVec 32 × List Byte} (ht : i.directiveTag = some t)
    (hf : directiveForm i = some q) (hc : 1 ≤ q.1 ∧ q.1 ≤ 16) (hp : i.isPin = false) : Statement i := by
  refine ⟨by simp [ht, hf], fun p h => ?_⟩
  obtain rfl : q = p := by simpa [hf] using h
  exact ⟨hc.1, hc.2, hp⟩

theorem read (tag : Byte) (addr : BitVec 64) (count : BitVec 16) : Statement (.read tag addr count) := of_none rfl rfl
theorem write (tag : Byte) (addr : BitVec 64) (count : BitVec 16) : Statement (.write tag addr count) := of_none rfl rfl
theorem sync (tag : Byte) (addr : BitVec 64) (count : BitVec 16) : Statement (.sync tag addr count) := of_none rfl rfl
theorem clientCapacity (tag : Byte) (op : Byte) (addr : BitVec 64) (count : BitVec 16) : Statement (.clientCapacity tag op addr count) :=
  of_none rfl rfl
theorem clientData (tag : Byte) (index : BitVec 16) (block : Block) : Statement (.clientData tag index block) := of_none rfl rfl
theorem abort (tag : Byte) : Statement (.abort tag) := of_none rfl rfl
theorem clientLinkDown : Statement (.clientLinkDown) := of_none rfl rfl
theorem clientLinkUp : Statement (.clientLinkUp) := of_none rfl rfl
theorem configure (tag : Byte) (ref : BitVec 32) (body : ConfigureBody) : Statement (.configure tag ref body) :=
  of_some rfl rfl (by simp) rfl
theorem signature (tag : Byte) (ref : BitVec 32) (marker : BitVec 128) : Statement (.signature tag ref marker) :=
  of_some rfl rfl (by simp) rfl
theorem report (tag : Byte) (ref : BitVec 32) : Statement (.report tag ref) := of_some rfl rfl (by simp) rfl
theorem inquire (tag : Byte) (ref : BitVec 32) (window : BitVec 16) (first : BitVec 32) : Statement (.inquire tag ref window first) :=
  of_some rfl rfl (by simp) rfl
theorem close (tag : Byte) (ref : BitVec 32) (window : BitVec 16) (serial : BitVec 32) : Statement (.close tag ref window serial) :=
  of_some rfl rfl (by simp) rfl
theorem resolveResume (tag : Byte) (ref : BitVec 32) (window : BitVec 16) (serial : BitVec 32) : Statement (.resolveResume tag ref window serial) :=
  of_some rfl rfl (by simp) rfl
theorem resolveAbandon (tag : Byte) (ref : BitVec 32) (window : BitVec 16) (serial : BitVec 32) : Statement (.resolveAbandon tag ref window serial) :=
  of_some rfl rfl (by simp) rfl
theorem tariffLoad (tag : Byte) (ref : BitVec 32) (bank : Byte) (first : Byte) (entries : List TariffEntry) : Statement (.tariffLoad tag ref bank first entries) :=
  of_some rfl rfl (by simp) rfl
theorem tariffSelect (tag : Byte) (ref : BitVec 32) (bank : Byte) : Statement (.tariffSelect tag ref bank) :=
  of_some rfl rfl (by simp) rfl
theorem calendar (tag : Byte) (ref : BitVec 32) (day : BitVec 16) : Statement (.calendar tag ref day) :=
  of_some rfl rfl (by simp) rfl
theorem retention (tag : Byte) (ref : BitVec 32) (cls : Byte) (days : BitVec 16) (grace : BitVec 16) (choice : Byte) : Statement (.retention tag ref cls days grace choice) :=
  of_some rfl rfl (by simp) rfl
theorem hold (tag : Byte) (ref : BitVec 32) (id : BitVec 16) (anySource : Byte) (source : BitVec 16) (first : BitVec 16) (last : BitVec 16) : Statement (.hold tag ref id anySource source first last) :=
  of_some rfl rfl (by simp) rfl
theorem release (tag : Byte) (ref : BitVec 32) (id : BitVec 16) : Statement (.release tag ref id) :=
  of_some rfl rfl (by simp) rfl
theorem accept (tag : Byte) (ref : BitVec 32) (window : BitVec 16) (serial : BitVec 32) : Statement (.accept tag ref window serial) :=
  of_some rfl rfl (by simp) rfl
theorem verify (tag : Byte) (ref : BitVec 32) (window : BitVec 16) (serial : BitVec 32) : Statement (.verify tag ref window serial) :=
  of_some rfl rfl (by simp) rfl
theorem revoke (tag : Byte) (ref : BitVec 32) (window : BitVec 16) (serial : BitVec 32) : Statement (.revoke tag ref window serial) :=
  of_some rfl rfl (by simp) rfl
theorem clearAttention (tag : Byte) (ref : BitVec 32) (items : BitVec 16) : Statement (.clearAttention tag ref items) :=
  of_some rfl rfl (by simp) rfl
theorem takeBlock (window : BitVec 12) : Statement (.takeBlock window) := of_none rfl rfl
theorem heldClose (window : BitVec 12) : Statement (.heldClose window) := of_none rfl rfl
theorem idleTimerExpiry (window : BitVec 12) : Statement (.idleTimerExpiry window) := of_none rfl rfl
theorem storeGrant : Statement (.storeGrant) := of_none rfl rfl
theorem storeData (tag : Byte) (index : BitVec 16) (block : Block) : Statement (.storeData tag index block) := of_none rfl rfl
theorem segmentWriteCompletion (tag : Byte) (status : Byte) (blockField : BitVec 64) : Statement (.segmentWriteCompletion tag status blockField) :=
  of_none rfl rfl
theorem catalogueWriteCompletion (tag : Byte) (status : Byte) (blockField : BitVec 64) : Statement (.catalogueWriteCompletion tag status blockField) :=
  of_none rfl rfl
theorem settingsWriteCompletion (tag : Byte) (status : Byte) (blockField : BitVec 64) : Statement (.settingsWriteCompletion tag status blockField) :=
  of_none rfl rfl
theorem journalWriteCompletion (tag : Byte) (status : Byte) (blockField : BitVec 64) : Statement (.journalWriteCompletion tag status blockField) :=
  of_none rfl rfl
theorem fetchCompletion (tag : Byte) (status : Byte) (blockField : BitVec 64) : Statement (.fetchCompletion tag status blockField) :=
  of_none rfl rfl
theorem journalReadCompletion (tag : Byte) (status : Byte) (blockField : BitVec 64) : Statement (.journalReadCompletion tag status blockField) :=
  of_none rfl rfl
theorem verificationReadCompletion (tag : Byte) (status : Byte) (blockField : BitVec 64) : Statement (.verificationReadCompletion tag status blockField) :=
  of_none rfl rfl
theorem storeWatchdogExpiry (tag : Byte) : Statement (.storeWatchdogExpiry tag) := of_none rfl rfl
theorem storeLinkDown : Statement (.storeLinkDown) := of_none rfl rfl
theorem storeLinkUp : Statement (.storeLinkUp) := of_none rfl rfl
theorem serveBlock (tag : Byte) : Statement (.serveBlock tag) := of_none rfl rfl
theorem closeVerdict (window : BitVec 12) : Statement (.closeVerdict window) := of_none rfl rfl
theorem closeCatalogue (window : BitVec 12) : Statement (.closeCatalogue window) := of_none rfl rfl
theorem sweepExamine : Statement (.sweepExamine) := of_none rfl rfl
theorem reclaimBegin : Statement (.reclaimBegin) := of_none rfl rfl
theorem patrolTurn : Statement (.patrolTurn) := of_none rfl rfl
theorem queueVerificationBegin : Statement (.queueVerificationBegin) := of_none rfl rfl
theorem powerOn (straps : BitVec 2) : Statement (.powerOn straps) := of_none rfl rfl
theorem resetNAssert : Statement (.resetNAssert) := of_none rfl rfl
theorem resetNRelease : Statement (.resetNRelease) := of_none rfl rfl
theorem startupCapacity : Statement (.startupCapacity) := of_none rfl rfl
theorem startupReadCompletion (tag : Byte) (status : Byte) (blockField : BitVec 64) : Statement (.startupReadCompletion tag status blockField) :=
  of_none rfl rfl
theorem startEntry : Statement (.startEntry) := of_none rfl rfl
theorem capacityCompletion (tag : Byte) (status : Byte) (blockField : BitVec 64) : Statement (.capacityCompletion tag status blockField) :=
  of_none rfl rfl

end Sys2Proof.Laws.F
end

