-- ==== Sys2Proof/Laws/StoreAnswers.lean ====
section
/-! SUPPORT. The completion rows of the store: what each does with a request that its user still waits for, one that nobody waits for,
and one that is another's. -/

namespace Sys2Proof.Machine

/-- A completion that the user waits for: the tag is free and the user acts. -/
theorem takeCompletion_awaited {s : State} {tag : Byte} {e : StoreEntry} (h : s.Awaits tag e) {isUser : StoreUser → Bool}
    (hu : isUser e.req.user = true) (act : StoreEntry → State → State) :
    s.takeCompletion tag isUser act = act e (s.dropEntry tag.toNat) := by
  simp [State.takeCompletion, h.released, h.found, hu, h.live, h.wanted, entry_tag h.found]

/-- A completion that the user waits for reaches it as the outcome of its request. -/
theorem completeFor_awaited {s : State} {tag status : Byte} {e : StoreEntry} (h : s.Awaits tag e) {isUser : StoreUser → Bool}
    (hu : isUser e.req.user = true) (field : BitVec 64) :
    s.completeFor isUser tag status field = (s.dropEntry tag.toNat).tell e.req.user false (e.outcome status field.toNat) :=
  takeCompletion_awaited h hu _

/-- A completion for a tag without a request changes nothing. -/
theorem takeCompletion_none {s : State} {tag : Byte} (h : s.entry tag.toNat = none) (isUser : StoreUser → Bool)
    (act : StoreEntry → State → State) : s.takeCompletion tag isUser act = s := by
  simp [State.takeCompletion, h]

/-- A completion of another user's request changes nothing. -/
theorem takeCompletion_other {s : State} {tag : Byte} {e : StoreEntry} (h : s.entry tag.toNat = some e) {isUser : StoreUser → Bool}
    (hu : isUser e.req.user = false) (act : StoreEntry → State → State) : s.takeCompletion tag isUser act = s := by
  simp [State.takeCompletion, h, hu]

/-- A completion of a disowned request only frees its tag. -/
theorem takeCompletion_discard {s : State} {tag : Byte} {e : StoreEntry} (hr : s.resetHeld = false)
    (h : s.entry tag.toNat = some e) {isUser : StoreUser → Bool} (hu : isUser e.req.user = true) (ha : e.abandoned = false)
    (hd : e.discard = true) (act : StoreEntry → State → State) : s.takeCompletion tag isUser act = s.dropEntry tag.toNat := by
  simp [State.takeCompletion, hr, h, hu, ha, hd, entry_tag h]

/-- A completion of an ABANDONED request frees its tag, and its placement for a segment write. -/
theorem takeCompletion_abandoned {s : State} {tag : Byte} {e : StoreEntry} (hr : s.resetHeld = false)
    (h : s.entry tag.toNat = some e) {isUser : StoreUser → Bool} (hu : isUser e.req.user = true) (ha : e.abandoned = true)
    (act : StoreEntry → State → State) :
    s.takeCompletion tag isUser act = releaseAbandoned e.req.user (s.dropEntry tag.toNat) := by
  simp [State.takeCompletion, hr, h, hu, ha, entry_tag h]

/-- A failure status is a MEDIUM failure, at the block field for STORE_ERROR and at block 0 otherwise (R38). -/
theorem outcome_failed {status : Byte} (field : Nat) (e : StoreEntry) (h : status ≠ 0) :
    e.outcome status field = .error ⟨.medium, if status.toNat = 3 then field else 0⟩ := by
  have : (status != 0) = true := bne_iff_ne.2 h
  simp only [StoreEntry.outcome, this, if_true, Status.code, beq_iff_eq]
  split <;> rfl

/-- A GOOD completion of a request that is no read (R38). -/
theorem outcome_good_write (field : Nat) (e : StoreEntry) (h : e.req.op ≠ .read) : e.outcome 0 field = .ok [] := by
  simp [StoreEntry.outcome, Status.code, h]

/-- A GOOD completion of a read whose blocks all came (R38). -/
theorem outcome_good_read (field : Nat) {e : StoreEntry} {bs : List Block} (h : e.req.op = .read)
    (hg : gather e.got e.req.count = some bs) : e.outcome 0 field = .ok bs := by
  simp [StoreEntry.outcome, Status.code, h, hg]

/-- A GOOD completion of a read that came short is a failure at the first missing block (R38). -/
theorem outcome_short_read (field : Nat) {e : StoreEntry} (h : e.req.op = .read) (hg : gather e.got e.req.count = none) :
    e.outcome 0 field = .error ⟨.medium, firstMissing e.got e.req.count⟩ := by
  simp [StoreEntry.outcome, Status.code, h, hg]

/-- The block of a short read's failure is one that was asked for and did not come, and every block before it came (R38). -/
theorem firstMissing_spec {got : List (Nat × Block)} {n : Nat} (h : gather got n = none) :
    firstMissing got n < n ∧ (∀ p ∈ got, p.1 ≠ firstMissing got n)
      ∧ ∀ i < firstMissing got n, ∃ p ∈ got, p.1 = i := by
  have key : ∀ n, (∀ i < n, ∃ p ∈ got, p.1 = i) → ∃ bs, gather got n = some bs := by
    intro n
    induction n with
    | zero => exact fun _ => ⟨[], rfl⟩
    | succ n ih =>
      intro hn
      obtain ⟨bs, hb⟩ := ih fun i hi => hn i (by omega)
      obtain ⟨p, hp, he⟩ := hn n (by omega)
      have : ∃ q, got.find? (·.1 == n) = some q := by
        rw [← Option.isSome_iff_exists, List.find?_isSome]
        exact ⟨p, hp, by simpa using he⟩
      obtain ⟨q, hq⟩ := this
      exact ⟨bs ++ [q.2], by simp [gather, hb, hq]⟩
  cases hf : (List.range n).find? fun i => got.all (·.1 != i) with
  | none =>
    rw [List.find?_eq_none] at hf
    obtain ⟨bs, hb⟩ := key n fun i hi => by simpa using hf i (List.mem_range.2 hi)
    rw [hb] at h; cases h
  | some m =>
    have hm : firstMissing got n = m := by simp [firstMissing, hf]
    rw [hm]
    rw [List.find?_range_eq_some] at hf
    refine ⟨List.mem_range.1 hf.2.1, by simpa using hf.1, fun i hi => ?_⟩
    simpa using hf.2.2 i hi

end Sys2Proof.Machine
end

