-- ==== Sys2Proof/Tests/Slice0.lean ====
section
/-! SUPPORT. Tests of single commands and formats against the spec's own numbers, and one witness for each statement that has
hypotheses: a concrete state and operands that meet them, clause by clause, at boundary values. -/

namespace Sys2Proof.Tests

open Sys2Proof Sys2Proof.Machine

/-! ### Commands that cannot occur -/

/-- A DATA message of 4095 bytes (12.5). -/
theorem test_wf_short_client_data : Instr.wf (.clientData 0 0 (List.replicate 4095 0)) = false := by decide +kernel

theorem test_wf_short_store_data : Instr.wf (.storeData 0 0 []) = false := by decide

/-- CLIENT_CAPACITY stands for no READ, WRITE or SYNC (R24). -/
theorem test_wf_capacity_read : Instr.wf (.clientCapacity 0 1 0 0) = false := by decide

/-- An entry count above one byte (12.2). -/
theorem test_wf_long_tariff_load : Instr.wf (.tariffLoad 0 0 0 0 (List.replicate 256 ⟨0, 0, 0, 0⟩)) = false := by decide +kernel

theorem test_short_data_stops : exec (.clientData 0 0 []) State.reset = .fault .notABlock := by rfl

/-- No row of the table gives bits. -/
theorem test_no_word_is_a_command : decodeTableWord 16 0 = none := rfl

/-! ### Checks, from the table of chapter 12 -/

def digits : List Byte := [0x31, 0x32, 0x33, 0x34, 0x35, 0x36, 0x37, 0x38, 0x39]

theorem test_crc16 : crc16 digits = 0x29B1 := by decide +kernel
theorem test_crc32 : crc32 digits = 0xCBF43926 := by decide +kernel
theorem test_crc64 : crc64 digits = 0x62EC59E3F1A4F00A := by decide +kernel

/-! ### Rating, from the two tables of 3.8 -/

def entryA : TariffEntry := ⟨2, 60, 30, 12⟩
def entryB : TariffEntry := ⟨5, 0, 60, 30⟩
def entryC : TariffEntry := ⟨90, 60, 30, 12⟩

/-- Each range of the charge holds a call: within the grace, up to the interval, beyond it, and without an interval; and a largest call. -/
theorem witness_ChargesCoverTheCall :
    (0 : Nat) < 30 ∧ (5 : Nat) ≤ 5 ∧ ((5 : Nat) < 60 ∧ (0 : Nat) < 60 ∧ (60 : Nat) ≤ 60) ∧ ((5 : Nat) < 61 ∧ (60 : Nat) < 61)
      ∧ entryA.initial.toNat ≤ 3600 ∧ entryA.step.toNat ≤ 3600 ∧ entryA.step ≠ 0 := by decide

theorem test_rating_first_table : [95, 45, 2, 61].map (chargedUnits entryA) = [24, 12, 0, 18] := by decide
theorem test_rating_rounds_up : chargedUnits ⟨2, 60, 30, 5⟩ 61 = 8 := by decide
theorem test_rating_no_interval : [5, 6, 121].map (chargedUnits entryB) = [0, 30, 90] := by decide
theorem test_rating_long_grace : [75, 91].map (chargedUnits entryC) = [0, 24] := by decide
theorem test_rating_per_second : [0, 437].map (chargedUnits ⟨0, 0, 1, 60⟩) = [0, 437] := by decide
theorem test_rating_rate_zero : rateRecord [⟨2, 60, 30, 0⟩] 0 95 = some 0 := by decide
theorem test_rating_step_zero : rateRecord [⟨2, 60, 0, 12⟩] 0 95 = none := by decide
theorem test_rating_class_70 : rateRecord (List.replicate 64 entryA) 70 95 = none := by decide +kernel
theorem test_rating_largest : chargedUnits ⟨0, 1214, 3600, 65535⟩ 16777215 = 18328844092 := by decide +kernel

/-! ### Coding, from the worked example of 4.3 -/

/-- Record 1 without its CRC; the calling number 4930123456, the called number 4930987654. -/
def record1 : List Byte :=
  [0x43, 5, 1, 16] ++ be 4 1 ++ be 3 36000 ++ be 3 95 ++ [0x49, 0x30, 0x12, 0x34, 0x56, 0xFF, 0xFF, 0xFF]
    ++ [0x49, 0x30, 0x98, 0x76, 0x54, 0xFF, 0xFF, 0xFF] ++ be 2 17 ++ be 4 0x12A34 ++ be 2 0

/-- Record 2: the calling number differs in its 13th nibble, the called one in its 4th. -/
def record2 : List Byte :=
  [0x43, 5, 1, 16] ++ be 4 2 ++ be 3 36004 ++ be 3 300 ++ [0x49, 0x30, 0x12, 0x34, 0x56, 0xFF, 0x1F, 0xFF]
    ++ [0x49, 0x31, 0x98, 0x76, 0x54, 0xFF, 0xFF, 0xFF] ++ be 2 17 ++ be 4 0x12A34 ++ be 2 0

theorem test_coding_lengths : (codedEntry zeroRecord record1).length = 34 ∧ (codedEntry record1 record2).length = 17 := by decide +kernel

/-- 300 in groups of seven bits, least significant first. -/
theorem test_base128 : base128 4 300 = [0xAC, 0x02] := by decide

/-! ### Expiry and the chain, from chapters 7 and 8 -/

theorem test_chain_input :
    chainInput 7 { window := 0, serial := 2, state := .closed, source := 702, day := 20000, gen := 1, cls := 0, openedOn := 0, bank := 0 }
      9 = be 8 7 ++ [0, 0, 0, 2, 0x02, 0xBE, 0x4E, 0x20, 0x01] ++ be 8 9 := by decide +kernel

/-! ### Placing, from the worked example of 5.4 -/

def zone9 : Alloc :=
  { ready := true, zones := [{ zone := 9, filling := true, fill := 4080, live := 4000 }], fifo := [14, 3], stamp := 7001 }

/-- A, B and C: the third no longer fits, so zone 9 becomes FULL and zone 14 takes it. -/
theorem test_placing_over_a_boundary :
    ((zone9.takePlace 5 20 20 5).bind fun a => (a.2.takePlace 8 3 3 9).bind fun b => (b.2.takePlace 5 21 21 4).map fun c =>
      ([a.1, b.1, c.1].map fun p => (p.zone, p.off, p.stamp), c.2.fifo, c.2.zones.map fun z => (z.zone, z.filling, z.fill)))
      = some ([(9, 4080, 7001), (9, 4085, 7002), (14, 0, 7003)], [3], [(9, false, 4094), (14, true, 4)]) := by rfl

/-! ### States to test and to witness with -/

/-- A part that runs, both links UP, an empty archive of 64 zones with zone 3 FILLING. -/
def base : State :=
  { State.reset with
    startup := none
    client := { up := true }
    port := { up := true, reported := true }
    alloc := { ready := true, zoneCount := 64, zones := [{ zone := 3, filling := true }], fifo := [4, 5] }
    jr := { ready := true } }

/-- A volume of a window with a serial in a state. -/
def volume (w n : Nat) (st : LifeState) : Volume :=
  { window := w, serial := n, state := st, source := 701, day := 20000, gen := 0, cls := 0, openedOn := 20000, bank := 0 }

/-- A context that has taken no block. -/
def context (w n : Nat) : Ctx := { num := 0, window := w, serial := n, reference := zeroRecord, seg := { index := 0, first := 0 } }

/-- `base` with a volume in window 12, and a context where its state has one. -/
def withVolume (st : LifeState) : State := { base with vols := [volume 12 1 st], ctxs := [context 12 1], serialCounter := 2 }

/-- `base` with one client request. -/
def withTag (e : TagEntry) (s : State) : State := { s with client := { s.client with tags := [e] } }

/-- A write put aside at an offset of window 12. -/
def aside (off n : Nat) : TagEntry := { tag := 3, op := .write, phase := .awaitingBlock, window := 12, offset := off, count := n }

/-- A request of window 12 in a phase. -/
def request (ph : Phase) (n : Nat) : TagEntry :=
  { tag := 3, op := .write, phase := ph, window := 12, offset := 0, count := n, serial := some 1, mode := some .committed }

/-- A read of a window in SERVING. -/
def reader (w off n : Nat) (serial : Option Nat) : TagEntry :=
  { tag := 3, op := .read, phase := .serving, window := w, offset := off, count := n, serial }

/-- No ring block is free: JOURNAL_FULL holds. -/
def full (s : State) : State := { s with jr := { s.jr with ready := true, head := 8191, readPtr := 0 } }

/-- The store link DOWN in FAIL mode. -/
def lost (s : State) : State := { s with port := { s.port with up := false }, set := { s.set with work := { s.set.work with linkLoss := .fail } } }

theorem base_takes_requests : base.TakesRequests := ⟨rfl, rfl, rfl, rfl⟩
theorem base_takes_directives : base.TakesDirectives := ⟨rfl, rfl, rfl⟩
theorem base_has_room : base.HasRoom := ⟨by decide, by decide⟩
theorem base_runs : base.Runs := ⟨rfl, rfl, rfl⟩

/-- The header of block 0 of source 701, day 20,000, generation 0, class 0. -/
def header : List Byte :=
  let body : List Byte := [0x48, 1] ++ be 2 701 ++ be 2 20000 ++ [0, 0] ++ zeros 30
  body ++ be 2 (crc16 body).toNat

/-- A block 0 that opens a volume: its header, and zeros. -/
def block0 : Block := padTo 4096 header

theorem test_header_valid : validHeader (block0.take 40) = true := by decide +kernel
theorem test_block0_length : block0.length = 4096 := by decide +kernel

/-! ### Witnesses: the whole machine and the formats -/

theorem witness_StepRunsTheFrontCommand :
    ({ base with pending := [.clientLinkDown] } : State).pending = .clientLinkDown :: [] ∧ base.pending = [] := ⟨rfl, rfl⟩

theorem witness_OnlyMalformedDataStops : Instr.wf (.report 3 1) = true ∧ ([] : Block).length ≠ 4096 := by decide

theorem witness_ResetsClearAndSilenceThePart :
    ({ base with resetHeld := true } : State).resetHeld = true ∧ base.resetHeld = false ∧ Instr.isPin .storeGrant = false
      ∧ Instr.wf .storeGrant = true := by decide

theorem base_capacities : base.Capacities :=
  ⟨by decide, by decide, by decide, by decide, by decide, by decide, by decide, by decide, by decide, by decide, by decide⟩

theorem witness_EveryStepKeepsTheTableLimits : base.Capacities ∧ ∃ t, step { base with pending := [.clientLinkDown] } = .next t :=
  ⟨base_capacities, _, rfl⟩

theorem witness_LatchedItemsStaySet :
    Instr.isClear .storeLinkUp = false ∧ Instr.isReset .storeLinkUp = false ∧ ∃ t, exec .storeLinkUp base.setDamage = .next t :=
  ⟨rfl, rfl, _, rfl⟩

theorem witness_HaltedPartWritesNothing :
    ({ base with halted := some .medium } : State).isHalted = true ∧ Instr.isReset .storeGrant = false
      ∧ ∃ t, exec .storeGrant { base with halted := some .medium } = .next t := ⟨rfl, rfl, _, rfl⟩

theorem witness_OnlyGrantsSendStoreRequests :
    (∃ t, exec .storeLinkUp base = .next t) ∧ Instr.storeLinkUp ≠ .storeGrant ∧ Instr.storeLinkUp ≠ .startupCapacity :=
  ⟨⟨_, rfl⟩, by decide, by decide⟩

/-- A record of 40 bytes with a good CRC. -/
def good1 : List Byte := record1 ++ be 2 (crc16 record1).toNat

theorem witness_CodedRecordsDecodeBack :
    zeroRecord.length = 40 ∧ (∀ p ∈ [(true, good1), (false, zeros 40)], p.2.length = 40)
      ∧ recKind good1 = kindC ∧ recCrcGood good1 = true := by decide +kernel

theorem witness_DirectiveBlocksDecodeBack :
    (Instr.release 31 7 65535).directiveTag = some 31 ∧ Instr.wf (.release 31 7 65535) = true
      ∧ directiveForm (.release 31 7 65535) = some (12, 7, [0xFF, 0xFF]) := by decide

theorem witness_CatalogueRecordsReadBack : (volume 4094 4294967295 .closed).Fits where
  serial := by decide
  source := by decide
  day := by decide
  gen := by decide
  cls := by decide
  openedOn := by decide
  bank := by decide
  trailer := by intro t h; cases h
  counts := ⟨by decide, by decide, by decide, by decide, by decide, by decide, by decide, by decide⟩
  ingest := by decide
  segments := by decide
  chain := by intro l h; cases h
  supersededOn := by intro d h; cases h
  expiry := by intro d h; cases h

theorem witness_SettingsBlocksReadBack : base.stored.Fits where
  settings := ⟨by decide, by decide, by decide, by decide, by decide, by decide⟩
  day := by decide
  table := by decide
  entries := by decide
  bank0 := by decide
  bank1 := by decide
  active := by decide
  holds := by decide
  hold := by intro h hh; cases hh
  floor := by decide
  serial := by decide
  j := by decide
  readPtr := by decide

/-- A RAW segment of one block. -/
def rawHeader : SegHeader :=
  { window := 12, serial := 1, index := 0, first := 0, count := 1, kind := .raw, lead := 0, tail := 0, recs := 0,
    payloadLen := 4096, stamp := 1, run := {} }

theorem witness_StoredSegmentsReadBack : rawHeader.Fits ∧ payloadFits rawHeader zeroBlock :=
  ⟨⟨by decide, by decide, by decide, by decide, by decide, by decide, by decide, by decide, by decide, by decide,
      (by intro q h; cases h), ⟨by decide, by decide, by decide, by decide, by decide, by decide, by decide, by decide⟩, by decide⟩,
    show zeroBlock.length = 4096 by decide +kernel, show zeroBlock.length = 4096 * 1 by decide +kernel⟩

theorem witness_JournalBlocksReadBack :
    18446744073709551615 < 2 ^ 64 ∧ (JournalItem.mk 3 1 0 (zeros 496)).Fits
      ∧ ([JournalItem.mk 3 1 0 (zeros 496)].flatMap JournalItem.bytes).length ≤ 4064 :=
  ⟨by decide, ⟨by decide, by decide, by decide +kernel⟩, by decide +kernel⟩

/-! ### Witnesses: client requests -/

/-- The client block address of a window and an offset (00_scope.md 1.4). -/
def addr (w off : Nat) : BitVec 64 := BitVec.ofNat 64 (w * 16777216 + off)

theorem test_address_fields : addrWindow (addr 4095 16777215) = 4095 ∧ addrOffset (addr 4095 16777215) = 16777215 := by decide

/-- The address bits above the low 36 are ignored (12.5). -/
theorem test_address_high_bits : addrWindow 0xFFFFFFF00C000005 = 12 ∧ addrOffset 0xFFFFFFF00C000005 = 5 := by decide

def early : State := { base with haltedEarly := true, halted := some .geometry }
def starting : State := { base with startup := some {} }
def halted : State := { base with halted := some .medium }

theorem witness_RequestChecksInOrder :
    (base.client.up = true ∧ base.resetHeld = false) ∧ (early.client.up = true ∧ early.resetHeld = false ∧ early.haltedEarly = true)
      ∧ (starting.haltedEarly = false ∧ starting.startup.isSome = true) ∧ (base.haltedEarly = false ∧ base.startup = none)
      ∧ 31 < (32 : Byte).toNat ∧ ((withTag (aside 0 1) base).tag 3).isSome = true ∧ (1 : BitVec 16) ≠ 0
      ∧ 256 < (257 : BitVec 16).toNat ∧ (31 : Byte).toNat ≤ 31 ∧ base.tag 31 = none
      ∧ 16777215 < addrOffset (addr 12 16777215) + (2 : BitVec 16).toNat - 1 := by decide

theorem witness_ReadsAreRoutedByWindow :
    base.TakesRequests ∧ (31 : Byte).toNat ≤ 31 ∧ base.tag 31 = none ∧ 1 ≤ (256 : BitVec 16).toNat ∧ (256 : BitVec 16).toNat ≤ 256
      ∧ addrOffset (addr 4095 16776960) + (256 : BitVec 16).toNat - 1 ≤ 16777215 := ⟨base_takes_requests, by decide⟩

theorem witness_WritesAreRoutedAtTheirRequest :
    halted.isHalted = true ∧ base.isHalted = false ∧ addrWindow (addr 4095 0) = 4095 ∧ addrWindow (addr 4094 0) ≠ 4095
      ∧ 64 < (65 : BitVec 16).toNat ∧ (64 : BitVec 16).toNat ≤ 64 ∧ base.vol 4094 = none
      ∧ (withVolume .closed).vol 12 = some (volume 12 1 .closed) ∧ (volume 12 1 .closed).state ≠ .opened := by decide

/-- An OPEN volume at ingest point 1 with one HELD slot beyond it. -/
def staged : State :=
  { withVolume .opened with
    vols := [{ volume 12 1 .opened with ingest := 1 }]
    client := { up := true, slots := [{ serial := 1, offset := 3, tag := 9, data := some [] }] } }

/-- A pool with no FREE slot. -/
def crowded : State :=
  { withVolume .opened with
    client := { up := true, slots := (List.range 255).map fun i => { serial := 9, offset := i, tag := 9, data := some [] } } }

theorem witness_AdmissionTestDecides :
    (withVolume .opened).TakesRequests ∧ (withVolume .opened).halted = none ∧ (withVolume .opened).tag 31 = none
      ∧ 2 ≤ (64 : BitVec 16).toNat ∧ (64 : BitVec 16).toNat ≤ 64 ∧ addrOffset (addr 12 0) + (64 : BitVec 16).toNat - 1 ≤ 16777215
      ∧ addrWindow (addr 12 0) ≠ 4095 ∧ (withVolume .opened).vol 12 = some (volume 12 1 .opened) := ⟨⟨rfl, rfl, rfl, rfl⟩, by decide⟩

/-- An offset below the ingest point; one that a slot carries; a last block 64 beyond; too few slots; and a write that fits whole. -/
theorem witness_AdmissionTestDecides_clauses :
    (0 < (1 : Nat) ∧ staged.client.slots.any (fun x => x.serial == 1 && 2 ≤ x.offset && x.offset < 2 + 2) = true)
      ∧ (1 + 63 < 63 + 3 - 1 ∧ ¬ (1 + 63 < 62 + 3 - 1))
      ∧ (256 < crowded.client.slots.length + 2 ∧ ¬ 256 < crowded.client.slots.length + 1)
      ∧ (¬ (0 : Nat) < 0 ∧ ¬ 0 + 63 < 0 + 64 - 1 ∧ ¬ 256 < (withVolume .opened).client.slots.length + 64) := by decide +kernel

/-- A volume whose block 0 is HELD and not taken. -/
def ready0 : State :=
  { withVolume .opened with client := { up := true, slots := [{ serial := 1, offset := 0, tag := 9, data := some zeroBlock }] } }

/-- A CLOSING volume whose contiguous blocks are still taken. -/
def closing (st : CloseStage) : State :=
  { withVolume .closing with ctxs := [{ context 12 1 with close := some { stage := st } }] }

theorem witness_SyncsAreAnsweredByWindow :
    (base.isHalted = false ∧ base.jr.buf.count = 0 ∧ ∀ w ∈ base.jr.writes, w.ring = base.headRing)
      ∧ ((withVolume .suspended).vol 12).any (·.state == .suspended) = true
      ∧ (ready0.lossFail = false ∧ ready0.contiguous 1 256 0 = 1 ∧ (ready0.ctx 12).any (·.committed == 0) = true
          ∧ ready0.client.tags = [])
      ∧ ((closing .taking).lossFail = false ∧ ((closing .taking).ctx 12).any (fun c => c.close.any (·.stage == .taking)) = true
          ∧ ((closing .taking).vol 12).any (·.state == .closing) = true) := by decide +kernel

/-- A write of one block in RECEIVING with its slot RESERVED. -/
def receiving : State :=
  withTag (request .receiving 1) { withVolume .opened with client := { up := true, slots := [{ serial := 1, offset := 0, tag := 3 }] } }

theorem witness_DataFillsItsReservedSlot :
    receiving.client.up = true ∧ receiving.resetHeld = false ∧ zeroBlock.length = 4096 ∧ receiving.tag 4 = none
      ∧ receiving.tag 3 = some (request .receiving 1) ∧ (request .receiving 1).phase = .receiving
      ∧ (request .receiving 1).serial = some 1
      ∧ (∃ x ∈ receiving.client.slots, x.tag = 3 ∧ x.serial = 1 ∧ x.offset = 0 ∧ x.data = none)
      ∧ (∀ x ∈ receiving.client.slots, ¬(x.tag = 3 ∧ x.serial = 1 ∧ x.offset = 1 ∧ x.data = none)) := by decide +kernel

/-- All but the check of a directive block with a code and an empty body (12.2). -/
def unchecked (code : Nat) : List Byte := padTo 4092 (be 16 freshMarker.toNat ++ be 2 code ++ be 4 7 ++ be 2 0)

/-- A REPORT as a server writes it; a block with an unknown code; a REPORT whose check is one more than its CRC. -/
def reportBlock : Block := unchecked 3 ++ be 4 (crc32 (unchecked 3)).toNat
def unknownBlock : Block := unchecked 17 ++ be 4 (crc32 (unchecked 17)).toNat
def spoiltBlock : Block := unchecked 3 ++ be 4 ((crc32 (unchecked 3)).toNat + 1)

theorem unchecked_length (code : Nat) : (unchecked code).length = 4092 :=
  length_padTo _ _ (by simp)

theorem test_check_good (code : Nat) : directiveCheckGood (unchecked code ++ be 4 (crc32 (unchecked code)).toNat) = true := by
  rw [directiveCheckGood_append _ (unchecked_length code), Nat.mod_eq_of_lt (crc32 (unchecked code)).isLt, beq_self_eq_true]

theorem test_check_spoilt : directiveCheckGood spoiltBlock = false := by
  rw [spoiltBlock, directiveCheckGood_append _ (unchecked_length 3)]
  have := (crc32 (unchecked 3)).isLt
  simp only [beq_eq_false_iff_ne]
  omega

theorem witness_DirectiveBlocksAreDispatched :
    ((withTag (aside 0 1) base).halted = none ∧ (withTag (aside 0 1) base).tag 3 = some (aside 0 1)
        ∧ (aside 0 1).phase = .awaitingBlock ∧ (aside 0 1).count = 1)
      ∧ (directiveMarker reportBlock = freshMarker ∧ (decodeDirective 3 reportBlock).toOption = some (.report 3 7))
      ∧ (directiveMarker unknownBlock = freshMarker ∧ (decodeDirective 3 unknownBlock).toOption = none)
      ∧ (directiveMarker spoiltBlock = freshMarker) := by
  decide +kernel

theorem witness_DirectiveBlocksAreDispatched_lengths :
    reportBlock.length = 4096 ∧ unknownBlock.length = 4096 ∧ spoiltBlock.length = 4096 := by
  simp [reportBlock, unknownBlock, spoiltBlock, unchecked_length]

/-- `base` with 32 contexts in use, and with no serial left. -/
def contextsUsed : State := { base with ctxs := (List.range 32).map fun i => context (i + 100) (i + 100) }
def serialsUsed : State := { base with serialCounter := 0 }

theorem witness_OpeningTestsInOrder :
    (base.halted = none ∧ (withTag (aside 0 64) base).tag 3 = some (aside 0 64) ∧ (aside 0 64).offset = 0 ∧ (aside 0 64).count = 64
        ∧ (aside 0 64).window ≠ 4095 ∧ base.vol 12 = none)
      ∧ (block0.length = 4096 ∧ directiveMarker block0 ≠ base.set.workMarker ∧ validHeader (block0.take 40) = true
        ∧ validHeader (zeroBlock.take 40) = false ∧ directiveMarker zeroBlock ≠ base.set.workMarker)
      ∧ (∃ v ∈ (withVolume .closed).vols, v.source = headerSource (block0.take 40) ∧ v.day = headerDay (block0.take 40)
        ∧ v.gen = headerGen (block0.take 40))
      ∧ contextsUsed.ctxs.length = 32 ∧ serialsUsed.serialCounter = 0 ∧ (full base).journalFull = true
      ∧ 256 < crowded.client.slots.length + 2 := by decide +kernel

theorem witness_OpeningWriteOpensItsVolume :
    base.openRefusal block0 1 = none ∧ base.ctx 12 = none ∧ (∀ x ∈ base.client.slots, x.serial ≠ base.serialCounter)
      ∧ (aside 0 1).phase = .awaitingBlock ∧ (withTag (aside 0 1) base).openRefusal block0 64 = none := by decide +kernel

theorem witness_AbortActsByPhase :
    base.client.up = true ∧ base.tag 3 = none ∧ (withTag (request .directive 1) base).tag 3 = some (request .directive 1)
      ∧ (withTag (request .syncing 0) base).tag 3 = some (request .syncing 0)
      ∧ (withTag (request .serving 256) base).tag 3 = some (request .serving 256)
      ∧ (withTag (request .waitingCommit 64) base).tag 3 = some (request .waitingCommit 64) := by decide

theorem witness_ClientLinkLossDropsRequests : base.resetHeld = false ∧ receiving.resetHeld = false := by decide

/-- The write of tag 3 completes when its only block comes (R30, R31: COMMITTED waits for its commit). -/
theorem test_last_block_waits_for_commit :
    (receiving.placeData 3 0 zeroBlock).tag 3 = some { request .waitingCommit 1 with done := 1 } := by decide +kernel

/-- Two writes out of order (2.6): the last block of the second lies 69 beyond the ingest point of 100. -/
theorem test_reorder_window :
    ({ withVolume .opened with vols := [{ volume 12 1 .opened with ingest := 100 }] } : State).admission
      { volume 12 1 .opened with ingest := 100 } 160 10 = some (.busyRetry, none) := by decide

/-! ### Witnesses: directives -/

/-- `base` with one dispatched directive of tag 3, its completion owed or not. -/
def dispatched (owed : Bool) (c : Instr) : State :=
  { base with client := { up := true, tags := if owed then [request .directive 1] else [], dispatched := [{ owed, command := c }] } }

theorem witness_DirectivesAreAnsweredOnce :
    (Instr.report 3 7).directiveTag = some 3 ∧ halted.isHalted = true ∧ (starting.isHalted = false ∧ starting.startup.isSome = true)
      ∧ ((dispatched true (.report 3 7)).tag 3 = some (request .directive 1)
        ∧ { owed := true, command := .report 3 7 } ∈ (dispatched true (.report 3 7)).client.dispatched)
      ∧ ({ owed := true, command := .report 3 7 } ∉ (dispatched false (.report 3 7)).client.dispatched
        ∧ { owed := false, command := .report 3 7 } ∈ (dispatched false (.report 3 7)).client.dispatched) := by decide

/-- The states that the last cases of the directives tell apart. -/
theorem witness_directive_cases :
    ((full base).TakesDirectives ∧ (full base).journalFull = true)
      ∧ ((lost base).TakesDirectives ∧ (lost base).journalFull = false ∧ (lost base).lossFail = true)
      ∧ (base.TakesDirectives ∧ base.HasRoom) :=
  ⟨⟨⟨rfl, rfl, rfl⟩, by decide⟩, ⟨⟨rfl, rfl, rfl⟩, by decide, by decide⟩, base_takes_directives, base_has_room⟩

/-- Every setting at the end of its range. -/
def bounds : ConfigureBody := ⟨2047, 1, 3, 255, 1, 255, 1, 1024, 1, 3, 255, 1⟩

theorem witness_ConfigureGoesToTheImage :
    bounds.mask.toNat < 2048 ∧ bounds.mode.toNat ≤ 1 ∧ bounds.policy.toNat ≤ 3 ∧ bounds.idleUnit.toNat ≤ 1
      ∧ bounds.linkLoss.toNat ≤ 1 ∧ 1 ≤ bounds.spaceLow.toNat ∧ bounds.spaceLow.toNat ≤ 1024 ∧ 1 ≤ bounds.journalHigh.toNat
      ∧ bounds.maskLevel.toNat ≤ 3 ∧ bounds.readAhead.toNat ≤ 1 ∧ ¬ { bounds with mask := 2048 }.mask.toNat < 2048 := by decide

theorem test_configure_bounds :
    configureValid bounds = true ∧ configureValid { bounds with mask := 2048 } = false
      ∧ configureValid { bounds with spaceLow := 1025 } = false ∧ configureValid { bounds with mask := 0, spaceLow := 0 } = true := by
  decide

theorem witness_MarkerAndTariffDirectives :
    ((1 : BitVec 128) ≠ 0 ∧ (1 : BitVec 128) ≠ BitVec.allOnes 128)
      ∧ ((1 : Byte).toNat ≤ 1 ∧ 1 ≤ [entryA].length ∧ (63 : Byte).toNat + [entryA].length ≤ 64
        ∧ (∀ e ∈ [entryA], e.initial.toNat ≤ 3600 ∧ e.step.toNat ≤ 3600) ∧ base.tariff.active ≠ (1 : Byte).toNat
        ∧ (∀ v ∈ base.vols, v.bank = (1 : Byte).toNat → v.state = .closed ∨ v.state = .expiring))
      ∧ (63 < (64 : Byte).toNat ∧ 64 < (63 : Byte).toNat + [entryA, entryA].length)
      ∧ base.tariff.active = (0 : Byte).toNat := by decide

theorem witness_ReportsAreAppended :
    4095 ≤ (4095 : BitVec 16).toNat ∧ (4094 : BitVec 16).toNat < 4095 ∧ base.vol 4094 = none
      ∧ (withVolume .opened).vol 12 = some (volume 12 1 .opened) ∧ base.journalFull = false := by decide

theorem names_volume (st : LifeState) : (withVolume st).Names 12 1 (volume 12 1 st) := ⟨by decide, rfl, rfl⟩

theorem withVolume_takes_directives (st : LifeState) : (withVolume st).TakesDirectives := ⟨rfl, rfl, rfl⟩

theorem withVolume_has_room (st : LifeState) : (withVolume st).HasRoom := ⟨rfl, rfl⟩

theorem witness_NamedVolumesAreChecked :
    4095 ≤ (4095 : BitVec 16).toNat ∧ base.vol 4094 = none ∧ (withVolume .closed).vol 12 = some (volume 12 1 .closed)
      ∧ (volume 12 1 .closed).serial ≠ (2 : BitVec 32).toNat := by decide

theorem witness_CloseBeginsTheClose :
    (withVolume .opened).Names 12 1 (volume 12 1 .opened) ∧ ready0.Names 12 1 (volume 12 1 .opened)
      ∧ (ready0.heldAt 1 0).isSome = true ∧ (withVolume .expiring).Names 12 1 (volume 12 1 .expiring) :=
  ⟨names_volume _, ⟨by decide, rfl, rfl⟩, by decide +kernel, names_volume _⟩

theorem witness_ResolveResumesOrAbandons :
    (withVolume .suspended).Names 12 1 (volume 12 1 .suspended) ∧ (withVolume .suspended).HasRoom
      ∧ (full (withVolume .suspended)).journalFull = true ∧ (lost (withVolume .suspended)).lossFail = true
      ∧ (volume 12 1 .opened).state ≠ .suspended :=
  ⟨names_volume _, withVolume_has_room _, by decide, by decide, by decide⟩

theorem witness_CalendarMovesTheArchiveDay :
    (19999 : BitVec 16).toNat < ({ base with ret := { base.ret with day := 20000 } } : State).ret.day
      ∧ ({ base with ret := { base.ret with day := 20000 } } : State).ret.day ≤ (20000 : BitVec 16).toNat := by decide

theorem witness_RetentionReplacesItsEntry :
    ((7 : Byte).toNat ≤ 7 ∧ (36525 : BitVec 16).toNat ≤ 36525 ∧ (3650 : BitVec 16).toNat ≤ 3650 ∧ (1 : Byte).toNat ≤ 1)
      ∧ ¬ (8 : Byte).toNat ≤ 7
      ∧ { volume 12 1 .closed with supersededOn := some 20001 }.supersededOn = some 20001 := by decide

/-- 64 holds; and one hold on day 20,000 of any source. -/
def manyHolds : State := { base with ret := { base.ret with holds := (List.range 64).map fun i => ⟨i + 1, none, 0, 0, 0⟩ } }
def oneHold : State := { base with ret := { base.ret with holds := [⟨9, none, 20000, 20000, 0⟩] } }

theorem witness_HoldReturnsExpiringVolumes :
    (¬ 1 < (1 : Byte).toNat ∧ (9 : BitVec 16) ≠ 0 ∧ ¬ (20000 : BitVec 16).toNat < (20000 : BitVec 16).toNat)
      ∧ (19999 : BitVec 16).toNat < (20000 : BitVec 16).toNat ∧ (∃ h ∈ oneHold.ret.holds, h.id = (9 : BitVec 16).toNat)
      ∧ 64 ≤ manyHolds.ret.holds.length ∧ (¬ ∃ h ∈ manyHolds.ret.holds, h.id = (65 : BitVec 16).toNat)
      ∧ base.ret.holds.length < 64 := by decide +kernel

theorem witness_ReleaseRemovesItsHold :
    (∀ h ∈ base.ret.holds, h.id ≠ (9 : BitVec 16).toNat)
      ∧ oneHold.ret.holds.find? (fun x => x.id == (9 : BitVec 16).toNat) = some ⟨9, none, 20000, 20000, 0⟩
      ∧ oneHold.TakesDirectives ∧ oneHold.HasRoom :=
  ⟨by decide, by decide, ⟨rfl, rfl, rfl⟩, ⟨by decide, by decide⟩⟩

/-- A hold matches its days, both ends included, and its source only. -/
theorem test_hold_covers :
    (Hold.mk 9 none 20000 20000 0).covers (volume 12 1 .closed) = true ∧ (Hold.mk 9 (some 702) 20000 20000 0).covers (volume 12 1 .closed) = false
      ∧ (Hold.mk 9 (some 701) 20001 20002 0).covers (volume 12 1 .closed) = false := by decide

/-- A CLOSED volume in an audit state. -/
def audited (a : AuditState) : State := { base with vols := [{ volume 12 1 .closed with audit := a }] }

theorem witness_AcceptReplacesTheAuditState :
    (audited .discrepant).Names 12 1 { volume 12 1 .closed with audit := .discrepant }
      ∧ (audited .accepted).Names 12 1 { volume 12 1 .closed with audit := .accepted }
      ∧ (audited .reconciled).Names 12 1 { volume 12 1 .closed with audit := .reconciled }
      ∧ (full (audited .damaged)).journalFull = true :=
  ⟨⟨by decide, rfl, rfl⟩, ⟨by decide, rfl, rfl⟩, ⟨by decide, rfl, rfl⟩, by decide⟩

/-- A CLOSED volume that is queued for verification, or being verified. -/
def queued (q v : Bool) : State :=
  { base with vols := [{ volume 12 1 .closed with verifyQueued := q, verifying := v }]
              audit := { base.audit with queue := if q then [⟨12, 1, 7⟩] else [] } }

theorem witness_VerifyJoinsTheQueue :
    (queued true false).Names 12 1 { volume 12 1 .closed with verifyQueued := true }
      ∧ (queued false false).Names 12 1 (volume 12 1 .closed) ∧ (queued false false).audit.queue.length < 16
      ∧ 16 ≤ (List.replicate 16 (VerifyItem.mk 12 1 7)).length ∧ (volume 12 1 .opened).state ≠ .closed :=
  ⟨⟨by decide, rfl, rfl⟩, ⟨by decide, rfl, rfl⟩, by decide, by decide, by decide⟩

theorem witness_RevokeLeavesTheQueue :
    (queued true false).TakesDirectives ∧ (queued true false).vol 12 = some { volume 12 1 .closed with verifyQueued := true }
      ∧ (queued false true).vol 12 = some { volume 12 1 .closed with verifying := true }
      ∧ (queued false false).vol 12 = some (volume 12 1 .closed) ∧ (queued false false).vol 4094 = none
      ∧ fld (unchecked 15) 16 2 = 15 ∧ fld (unchecked 15) 22 2 ≠ 6 := ⟨⟨rfl, rfl, rfl⟩, by decide +kernel⟩

theorem witness_ClearAttentionClearsItsItems :
    ((0x07C0 : BitVec 16) ≠ 0 ∧ ∀ i, (0x07C0 : BitVec 16).getLsbD i = true → 6 ≤ i ∧ i ≤ 10)
      ∧ ((0x0820 : BitVec 16).getLsbD 5 = true ∧ (0x0820 : BitVec 16).getLsbD 11 = true)
      ∧ fld (unchecked 16) 16 2 = 16 ∧ fld (unchecked 16) 22 2 ≠ 2 := by
  refine ⟨⟨by decide, fun i h => ?_⟩, by decide, by decide +kernel⟩
  have hi : i < 16 := BitVec.lt_of_getLsbD h
  have all : ∀ j < 16, (0x07C0 : BitVec 16).getLsbD j = true → 6 ≤ j ∧ j ≤ 10 := by decide
  exact all i hi h

theorem test_clear_attention_items : clearValid 0x07C0 = true ∧ clearValid 0x0800 = false ∧ clearValid 0x0020 = false ∧ clearValid 0 = false := by
  decide

/-! ### Witnesses: records, blocks and segments -/

/-- A bank whose class 5 has `entryA` and whose other classes have step 0. -/
def bankA : List TariffEntry := (List.replicate 64 ⟨0, 0, 0, 0⟩).set 5 entryA

theorem witness_GoodRecordsAreRated :
    bankA.length = 64 ∧ recCrcGood good1 = true ∧ recCrcGood (zeros 40) = false
      ∧ (callTariff good1 = 5 ∧ ∃ e, bankA[callTariff good1]? = some e ∧ e.step ≠ 0)
      ∧ (∃ e, bankA[63]? = some e ∧ e.step = 0) ∧ bankA[64]? = none
      ∧ ((context 12 1).lastSeq = none ∧ (0 : Nat) < callSeq good1 ∧ callSeq good1 ≤ 1) := by decide +kernel

/-- The 95-second record of class 5 (3.8): 24 units, not unrated. -/
theorem test_record_is_rated :
    (let c := countCall bankA good1 (context 12 1)
     (c.counts.calls, c.counts.units, c.counts.duration, c.counts.unrated, c.lastSeq)) = (1, 24, 95, 0, some 1) := by decide +kernel

/-- A header and 101 call records; 16 bytes of the next stay in the carry (R42). -/
def callBlock : Block := header ++ (List.replicate 101 (kindC :: zeros 39)).flatten ++ kindC :: zeros 15

theorem test_call_block_length : callBlock.length = 4096 := by
  have h : header.length = 40 := by decide +kernel
  have z (n : Nat) : (kindC :: zeros n).length = n + 1 := by simp [zeros]
  simp only [callBlock, List.length_append, List.length_flatten, List.map_replicate, List.sum_replicate, h, z, smul_eq_mul]

theorem test_call_block_is_no_loss : isLossBlock (volume 12 1 .opened) (context 12 1) callBlock = false := by decide +kernel

/-- `ready0` with the header block, with a RAW context, and with a full segment that three pending segments hold back. -/
def readyCalls : State :=
  { ready0 with client := { up := true, slots := [{ serial := 1, offset := 0, tag := 9, data := some callBlock }] } }
def rawContext : Ctx := { context 12 1 with framer := .raw, headerTaken := true, seg := { index := 0, first := 0, kind := .raw } }
def fullContext : Ctx := { context 12 1 with seg := { index := 3, first := 0, blocks := 256 }, next := 3 }
def pendingSeg (i : Nat) : PendSeg := { hdr := { rawHeader with index := i }, payload := [] }
def heldBack : State := { ready0 with ctxs := [fullContext], pend := [pendingSeg 0, pendingSeg 1, pendingSeg 2] }

theorem witness_TakeBlockFramesTheBlock :
    (ready0.vol 12 = some (volume 12 1 .opened) ∧ ready0.ctx 12 = some (context 12 1) ∧ ready0.heldAt 1 0 = some zeroBlock
        ∧ readyCalls.heldAt 1 0 = some callBlock)
      ∧ isLossBlock (volume 12 1 .opened) (context 12 1) callBlock = false
      ∧ ((context 12 1).framer = .inCalls ∧ isLossBlock (volume 12 1 .opened) (context 12 1) zeroBlock = true
        ∧ (context 12 1).seg.blocks = 0 ∧ (context 12 1).seg.held = none ∧ (context 12 1).close = none)
      ∧ rawContext.framer = .raw
      ∧ (fullContext.seg.blocks ≠ 0 ∧ 256 ≤ fullContext.seg.blocks ∧ 3 ≤ (heldBack.pendOf 1).length) :=
  ⟨⟨rfl, rfl, rfl, rfl⟩, test_call_block_is_no_loss, by decide +kernel, rfl, by decide +kernel⟩

/-- After the header block the framer is still in IN_CALLS and the segment has room. -/
theorem witness_TakeBlockFramesTheBlock_quiet :
    (takeCalls bankA callBlock (context 12 1)).framer ≠ .afterTrailer ∧ (takeCalls bankA callBlock (context 12 1)).seg.blocks < 256 := by
  decide +kernel

/-- An open segment of one block whose close is held. -/
def heldContext : Ctx := { context 12 1 with seg := { index := 0, first := 0, blocks := 1, held := some .idleTimer } }
def toSeal (pend : List PendSeg) (fill : Nat) : State :=
  { withVolume .opened with
    ctxs := [heldContext], pend
    alloc := { base.alloc with zones := [{ zone := 3, filling := true, fill }] } }

theorem witness_HeldCloseSealsTheSegment :
    ((toSeal [] 4095).ctx 12 = some heldContext ∧ (toSeal [] 4095).alloc.filling = some { zone := 3, filling := true, fill := 4095 })
      ∧ (heldContext.seg.held.isSome = true ∧ (context 12 1).seg.held = none ∧ 0 < (toSeal [] 4095).alloc.mapFree
        ∧ 4095 + heldContext.sealLen ≤ 4096)
      ∧ (3 ≤ ((toSeal [pendingSeg 0, pendingSeg 1, pendingSeg 2] 0).pendOf 1).length ∧ ((toSeal [] 4095).pendOf 1).length < 3)
      ∧ (heldContext.openCatalogue = true ∧ heldContext.openSettings = true ∧ (toSeal [] 4095).pend = []) := by decide +kernel

/-- A volume whose idle timer runs. -/
def timed : State := { withVolume .opened with ctxs := [{ context 12 1 with idle := some (30, .minutes) }] }

theorem witness_IdleTimerStallsItsVolume :
    (timed.vol 12 = some (volume 12 1 .opened) ∧ timed.ctx 12 = some { context 12 1 with idle := some (30, .minutes) })
      ∧ (context 12 1).idle = none ∧ (volume 12 1 .closing).state ≠ .opened ∧ (context 12 1).seg.blocks = 0
      ∧ 3 ≤ (({ timed with pend := [pendingSeg 0, pendingSeg 1, pendingSeg 2] } : State).pendOf 1).length := by decide

/-! ### Witnesses: the store port -/

def ask (cls : Nat) (u : StoreUser) (op : StoreOp) : StoreReq := { cls, user := u, op, block := 4096, count := 1 }

/-- One request out at tag 0, three waiting: the class 1 request is granted tag 1. -/
def waiting : State :=
  { base with port := { base.port with
      queue := [ask 3 (.segment 1 0 1) .write, ask 1 (.journal 0) .write, ask 2 (.fetch 1 0) .read]
      table := [{ tag := 0, req := ask 1 .settings .write, watchdog := 250 }] } }

theorem witness_TheArbiterGrantsInClassOrder :
    (waiting.port.queue = [ask 3 (.segment 1 0 1) .write] ++ ask 1 (.journal 0) .write :: [ask 2 (.fetch 1 0) .read]
        ∧ (∀ x ∈ [ask 3 (.segment 1 0 1) .write], 1 < x.cls) ∧ (∀ x ∈ [ask 2 (.fetch 1 0) .read], 1 ≤ x.cls)
        ∧ (∀ e ∈ waiting.port.table, e.tag ≠ 1) ∧ ∀ u, u < 1 → ∃ e ∈ waiting.port.table, e.tag = u)
      ∧ ((lost base).port.up = false ∧ ∀ x ∈ base.port.queue, base.isHalted = true ∧ x.op = .write)
      ∧ (∀ t ≤ 15, ∃ e ∈ (List.range 16).map fun t => (StoreEntry.mk t (ask 1 .settings .write) 0 false false []), e.tag = t)
      ∧ zeroBlock.length = 4096 := by decide +kernel

/-- While the part is HALTED the read of class 2 goes first: writes do not go out (R91). -/
theorem test_halted_grants_reads : waiting.port.nextGrant true = some (ask 2 (.fetch 1 0) .read) := by decide

/-- `base` with one request out at tag 0. -/
def out (u : StoreUser) (op : StoreOp) (s : State) : State :=
  { s with port := { s.port with table := [{ tag := 0, req := ask 1 u op, watchdog := 250 }] } }

def outEntry (u : StoreUser) (op : StoreOp) : StoreEntry := { tag := 0, req := ask 1 u op, watchdog := 250 }

theorem out_awaits (u : StoreUser) (op : StoreOp) (s : State) (h : s.resetHeld = false) : (out u op s).Awaits 0 (outEntry u op) :=
  ⟨h, rfl, rfl, rfl⟩

theorem witness_UnawaitedCompletionsOnlyFreeTheTag :
    (base.entry 0 = none ∧ (out .settings .write base).entry 0 = some (outEntry .settings .write))
      ∧ isCatalogue (outEntry .settings .write).req.user = false ∧ isSettings (outEntry .settings .write).req.user = true
      ∧ isSegment (outEntry .settings .write).req.user = false ∧ { outEntry .settings .write with discard := true }.discard = true := by
  decide

/-- Outstanding writes of the settings block, a catalogue block and a ring block. -/
def setWrite (ws : List SetWaiter) : SettingsWrite := { settings := {}, marker := freshMarker, day := 0, bytes := [], waiters := ws }
def withSettingsWrite (ws : List SetWaiter) (g : Option (List SetWaiter)) : State :=
  out .settings .write { base with set := { base.set with write := some (setWrite ws), gathered := g } }
def withCatWrite (ws : List CatWaiter) (g : Option (List CatWaiter)) : State :=
  out (.catalogue 1) .write { base with set := { base.set with catWrites := [{ block := 1, bytes := [], waiters := ws, gathered := g }] } }
def withJournalWrite (ws : List JournalWaiter) : State :=
  out (.journal 5) .write
    (withTag (request .syncing 0) { base with jr := { base.jr with writes := [{ ring := 5, content := [], waiters := ws }] } })

theorem witness_FixedPlaceWritesComplete :
    (withSettingsWrite [.directive (some 3)] none).Awaits 0 (outEntry .settings .write)
      ∧ ((withSettingsWrite [.directive (some 3)] none).set.write = some (setWrite [.directive (some 3)])
        ∧ (setWrite []).settings.idleLimit ≠ 0 ∧ (setWrite []).settings.patrolRate ≠ 0 ∧ base.set.work.patrolRate ≠ 0)
      ∧ ((withSettingsWrite [] (some [])).set.gathered = some [] ∧ (setWrite []).waiters = [])
      ∧ (((withCatWrite [] none).catWrite 1).isSome = true ∧ ((withCatWrite [] (some [])).catWrite 1).any (·.gathered.isSome) = true)
      ∧ ((withJournalWrite [.sync 3]).jr.writes.find? (fun x => x.ring == 5) = some { ring := 5, content := [], waiters := [.sync 3] }
        ∧ (∀ x ∈ (withJournalWrite []).client.tags, x.wait ≠ .journalWrite 5)
        ∧ (withJournalWrite [.sync 3]).tag 3 = some (request .syncing 0) ∧ (request .syncing 0).journalWrites ≤ 1) :=
  ⟨out_awaits _ _ _ rfl, by decide⟩

theorem witness_FixedPlaceWritesAreRetriedOnce :
    (1 : Byte) ≠ 0 ∧ (withSettingsWrite [] none).set.write = some (setWrite []) ∧ (setWrite []).retryUsed = false
      ∧ { setWrite [] with retryUsed := true }.retryUsed = true ∧ ((withCatWrite [] none).catWrite 1).any (!·.retryUsed) = true
      ∧ (withJournalWrite []).jr.writes.find? (fun x => x.ring == 5) = some { ring := 5, content := [] }
      ∧ (withTag (request .syncing 0) base).halted = none := by decide

/-- Segment 0 of window 12's volume, placed at the start of zone 3 with stamp 1 and its write out. -/
def firstPlace : Place := { zone := 3, off := 0, len := 2, stamp := 1 }
def firstSeg : PendSeg := { hdr := { rawHeader with stamp := 1 }, payload := [], place := some firstPlace }
def firstPlacement : Placement := { window := 12, serial := 1, index := 0, off := 0, len := 2, stamp := 1 }
def firstZone : Zone := { zone := 3, filling := true, fill := 2, list := [firstPlacement] }
def segmentOut : State :=
  out (.segment 1 0 1) .write
    { withVolume .opened with
      pend := [firstSeg]
      alloc := { base.alloc with stamp := 2, zones := [firstZone] } }

/-- The statement's situation, and an owner whose volume is OPEN; the later tests say the other lists. -/
theorem witness_SegmentWritesCommit :
    (segmentOut.pendOf 1 = [firstSeg] ∧ firstZone.list = [firstPlacement] ∧ firstSeg.failure = none ∧ firstSeg.retryUsed = false)
      ∧ segmentOut.alloc.waiting = [] ∧ (∀ x ∈ segmentOut.client.tags, x.serial ≠ some 1) ∧ (1 : Byte) ≠ 0 := by decide

theorem witness_WatchdogAndLinkEndRequests :
    (base.entry 0 = none ∧ (out .settings .write base).entry 0 = some (outEntry .settings .write)
        ∧ (outEntry .settings .write).watchdog ≠ 0 ∧ { outEntry .settings .write with watchdog := 0 }.watchdog = 0)
      ∧ ((withSettingsWrite [] none).set.write = some (setWrite []) ∧ (setWrite []).retryUsed = false)
      ∧ (waiting.set.work.linkLoss = .hold
        ∧ ∀ e ∈ waiting.port.table, e.req.op = .write ∧ e.abandoned = false ∧ e.discard = false)
      ∧ ((lost base).set.work.linkLoss = .fail ∧ (lost base).port.table = []
        ∧ ∃ e ∈ (withTag (request .waitingCommit 1) (lost base)).client.tags, e.phase = .waitingCommit) := by decide

/-! ### Witnesses: reading back -/

/-- The map entry of segment 0 of window 12's volume. -/
def firstEntry : MapEntry := { first := 0, count := 1, zone := 3, off := 0, len := 2, kind := .raw, lead := 0, tail := 0, recs := 0 }
def lostEntry : MapEntry := { firstEntry with kind := .lost }

/-- A CLOSED volume of one segment, its cache, and a read of its blocks. -/
def readable (m : MapEntry) (cache : List CacheEntry) : State :=
  withTag (reader 12 0 2 (some 1))
    { base with vols := [{ volume 12 1 .closed with ingest := 1, map := [m] }], rd := { cache } }
def cacheEntry (st : FetchState) : CacheEntry := { window := 12, serial := 1, index := 0, entry := firstEntry, st }

theorem witness_ReadsAreServedFromTheirRegion :
    ((withTag (reader 4094 0 1 none) base).tag 3 = some (reader 4094 0 1 none) ∧ (reader 4094 0 1 none).wait = .idle)
      ∧ (base.volOf 1 = none)
      ∧ ((withVolume .opened).volOf 1 = some (volume 12 1 .opened) ∧ (withVolume .opened).ctx 12 = some (context 12 1)
        ∧ (context 12 1).committed ≤ 0 ∧ (withVolume .opened).pendCovering 1 0 = none
        ∧ ({ withVolume .opened with pend := [pendingSeg 0] } : State).pendCovering 1 0 = some (pendingSeg 0))
      ∧ ((readable firstEntry []).volOf 1 = some { volume 12 1 .closed with ingest := 1, map := [firstEntry] }
        ∧ findEntry 0 0 [firstEntry] = some (0, firstEntry) ∧ findEntry 1 0 [firstEntry] = none
        ∧ (readable firstEntry []).cached 1 0 = none ∧ firstEntry.kind ≠ .lost ∧ lostEntry.kind = .lost
        ∧ (readable firstEntry []).lossFail = false ∧ (lost (readable firstEntry [])).lossFail = true
        ∧ (readable firstEntry []).rd.cache.length < 8
        ∧ (readable firstEntry [cacheEntry (.ready [])]).cached 1 0 = some (cacheEntry (.ready []))
        ∧ (reader 12 0 2 (some 1)).done + 1 < (reader 12 0 2 (some 1)).count)
      ∧ (base.ringLen = 8192 ∧ base.headRing = 0 ∧ (∀ w ∈ base.jr.writes, w.ring ≠ 1)
        ∧ ({ base with jr := { base.jr with readPtr := 1 } } : State).jr.readPtr % base.ringLen ≠ 0) := by decide

/-- A fetch of segment 0 of the CLOSED volume of window 12, out at store tag 0. -/
def fetching (ahead : Bool) (first : Option FaultClass) (ws : List Nat) : State :=
  out (.fetch 1 0) .read (readable firstEntry [cacheEntry (.fetching ahead first ws)])
def ringReader (second : Bool) : TagEntry := { reader 4095 5 1 none with wait := .journalRead 5 second }

theorem witness_StoreReadsAreDelivered :
    (fetching false none [3]).Awaits 0 (outEntry (.fetch 1 0) .read)
      ∧ ((fetching false none [3]).cached 1 0 = some (cacheEntry (.fetching false none [3])) ∧ (fetching false none [3]).rd.roomWait = []
        ∧ (fetching false none [3]).tag 3 = some (reader 12 0 2 (some 1)))
      ∧ (some FaultClass.check ≠ none ∧ (1 : Byte) ≠ 0)
      ∧ ((fetching false (some .check) [3]).vol 12 = some { volume 12 1 .closed with ingest := 1, map := [firstEntry] }
        ∧ (volume 12 1 .closed).audit ≠ .damaged)
      ∧ ((out (.journalRead 3 5) .read (withTag (ringReader false) base)).tag 3 = some (ringReader false)
        ∧ (ringReader true).wait = .journalRead 5 true) := ⟨out_awaits _ _ _ rfl, by decide⟩

/-- The blocks of a stored segment decode, whatever the segment marker (12.3 leaves it open, entry 7). -/
theorem witness_StoreReadsAreDelivered_gather : gather [(0, zeroBlock)] 1 = some [zeroBlock] := by rfl

/-! ### Witnesses: the journal, closes, sweeps, reclaims -/

/-- A journal buffer with `n` bytes of entries. -/
def journalAt (n : Nat) : State := { base with jr := { base.jr with buf := { base.jr.buf with count := 1, body := zeros n } } }

theorem witness_EntriesJoinTheJournal :
    (full base).journalFull = true
      ∧ (base.jr.waitList = [] ∧ base.journalFull = false ∧ ∀ w ∈ base.jr.writes, w.ring ≠ base.headRing)
      ∧ entryLen [] = 16
      ∧ ((journalAt 4048).jr.buf.used + entryLen [] = 4096 ∧ 4096 < (journalAt 4056).jr.buf.used + entryLen [])
      ∧ (base.jr.buf.complete = false ∧ halted.isHalted = true) := by decide +kernel

/-- A close at a stage, with a context of the window above whose close holds the link before. -/
def earlierClose : State :=
  { closing .catalogue with
    vols := [{ volume 12 1 .closing with chain := some ⟨2, 0⟩ }, { volume 13 2 .closing with chain := some ⟨1, 0⟩ }]
    ctxs := [{ context 12 1 with close := some { stage := .catalogue } }, { context 13 2 with close := some { stage := .writing } }] }

theorem witness_ClosesReachTheirVerdict :
    (((closing .verdict).vols.map (·.window)).Nodup ∧ (closing .verdict).vol 12 = some (volume 12 1 .closing)
        ∧ (closing .verdict).ctx 12 = some { context 12 1 with close := some { stage := .verdict } }
        ∧ ∀ u ∈ (closing .verdict).vols, u.source = 701 → u.day = 20000 → u.gen ≤ 0)
      ∧ (∃ d ∈ earlierClose.ctxs, d.window ≠ 12 ∧ d.close.isSome = true ∧ (earlierClose.vol d.window).any (fun u =>
          u.chain.any fun l => l.index + 1 == 2) = true)
      ∧ (∀ d ∈ (closing .catalogue).ctxs, d.window ≠ 12 → d.close = none)
      ∧ ((closing .writing).jr.waitList = [] ∧ (closing .writing).journalFull = false)
      ∧ ((withCatWrite [.closing 12 1] none).catWrite 1).any (fun c => c.waiters == [.closing 12 1] && c.gathered.isNone) = true := by
  decide

/-- Step 2 gives the switch-day's lower generation its superseded-on day and its grace (1.7, 7.2). -/
def generations : State :=
  { closing .verdict with
    vols := [{ volume 12 1 .closing with gen := 1 }, { volume 13 2 .closed with audit := .reconciled }]
    ret := { base.ret with day := 20005 }
    audit := { closes := [12] } }

theorem test_lower_generation_is_superseded :
    (match exec (.closeVerdict 12) generations with
      | .next t => (t.vol 13).map fun v => (v.supersededOn, v.expiry)
      | _ => none) = some (some 20005, some 23655) := by decide +kernel

/-- A sweep of day 20,000 at a window. -/
def sweeping (next : Nat) (v : Option Volume) (holds : List Hold) : State :=
  { base with vols := v.toList, ret := { base.ret with sweep := some { day := 20000, ref := 7, next }, holds } }
def dueVolume : Volume := { volume 12 1 .closed with expiry := some 20000, audit := .reconciled }

theorem witness_SweepExaminesInWindowOrder :
    (sweeping 12 none []).Runs ∧ ((sweeping 12 none []).vol 12 = none ∧ (sweeping 12 (some dueVolume) []).vol 12 = some dueVolume)
      ∧ (dueVolume.state = .closed ∧ dueVolume.expiry = some 20000 ∧ (volume 12 1 .closed).expiry = none)
      ∧ (∃ h ∈ [Hold.mk 9 none 20000 20000 0], (h.source = none ∨ h.source = some dueVolume.source) ∧ h.first ≤ dueVolume.day
        ∧ dueVolume.day ≤ h.last)
      ∧ ({ dueVolume with verifying := true }.verifying = true ∧ { dueVolume with audit := .pending }.audit ≠ .reconciled)
      ∧ (sweeping 4094 none []).vol 4094 = none := ⟨⟨rfl, rfl, rfl⟩, by decide⟩

/-- The head of the reclaim queue, its EXPIRING record written or not. -/
def toReclaim (written : Bool) : State :=
  { base with
    vols := [{ volume 12 1 .expiring with map := [firstEntry] }]
    ret := { base.ret with queue := [{ window := 12, serial := 1, written }] } }

theorem witness_ReclaimsFreeTheirWindow :
    (toReclaim true).Runs
      ∧ ((toReclaim true).ret.reclaim = none ∧ (toReclaim true).ret.queue = [{ window := 12, serial := 1, written := true }]
        ∧ (toReclaim true).vol 12 = some { volume 12 1 .expiring with map := [firstEntry] })
      ∧ (∃ e ∈ (withTag (reader 12 0 1 (some 1)) (toReclaim true)).client.tags, e.phase = .serving ∧ e.serial = some 1)
      ∧ ((toReclaim true).rd.roomWait = [] ∧ (toReclaim true).alloc.waiting = [])
      ∧ ((withCatWrite [.free 12 1] none).catWrite 1).any (fun c => c.waiters == [.free 12 1] && c.gathered.isNone) = true :=
  ⟨⟨rfl, rfl, rfl⟩, by decide⟩

/-! ### Witnesses: verification and start-up -/

/-- The patrol at segment 0 of the CLOSED volume of window 12, its timer run out. -/
def patrolling (serial : Option Nat) (active : Option (Option FaultClass)) (m : List MapEntry) : State :=
  { base with
    vols := [{ volume 12 1 .closed with map := m }]
    audit := { base.audit with patrol := { window := 12, serial, timer := true, active } } }

theorem witness_VerificationsFollowTheDigest :
    ((patrolling (some 1) none [firstEntry]).patrolReady = true
        ∧ (patrolling (some 1) none [firstEntry]).vol 12 = some { volume 12 1 .closed with map := [firstEntry] }
        ∧ (patrolling none none [firstEntry]).nextClosed 12 = some { volume 12 1 .closed with map := [firstEntry] }
        ∧ (patrolling none none [firstEntry]).audit.patrol.serial ≠ some 1)
      ∧ ((queued true false).audit.current = none ∧ (queued true false).audit.queue = [⟨12, 1, 7⟩])
      ∧ ((out (.patrol 1 0) .read (patrolling (some 1) (some none) [firstEntry, firstEntry])).audit.patrol.active = some none
        ∧ (0 : Nat) + 1 < [firstEntry, firstEntry].length) := by decide

/-- A start-up in a phase. -/
def phase (p : StartPhase) (second : Bool) : State :=
  { base with startup := some { phase := p, second, pos := if p == .catalogue then 254 else 0 } }

theorem witness_StartUpRunsItsPhases :
    ((phase .capacity false).startup.any (fun u => u.phase == .capacity && !u.issued) = true ∧ (lost (phase .capacity false)).port.up = false
        ∧ (phase .capacity false).port.table = [])
      ∧ ((out .capacity .capacity (phase .capacity true)).Awaits 0 (outEntry .capacity .capacity))
      ∧ ((out .startup .read (phase .settings true)).Awaits 0 (outEntry .startup .read))
      ∧ ((phase .catalogue false).startup.any (fun u => u.pos < 255) = true ∧ parseStored [1] = none
        ∧ (phase .settings false).straps + 3 ≤ (phase .settings false).alloc.zoneCount ∧ (phase .settings false).alloc.zoneCount < 62 + 3)
      ∧ ((phase .finish false).startupSettled = true ∧ (∀ q ∈ (phase .finish false).ret.queue, q.cut = false)
        ∧ (withSettingsWrite [] none).startupSettled = false) :=
  ⟨by decide, out_awaits _ _ _ rfl, out_awaits _ _ _ rfl, by decide +kernel, by decide⟩

/-! ### Witnesses: formats, attention, and the client's requests, clause by clause -/

/-- Each kind of attention item can be set: JOURNAL_FULL and JOURNAL_HIGH, STORE_LINK_DOWN, a latched item, HALTED (11.3). -/
theorem witness_ResetsClearAndSilenceThePart_attention :
    ((full base).attention.testBit 4 = true ∧ (full base).attention.testBit 3 = true ∧ (lost base).attention.testBit 5 = true
        ∧ base.setDamage.attention.testBit 8 = true ∧ halted.attention.testBit 11 = true)
      ∧ (halted.haltAsserted = true ∧ base.resetHeld = false ∧ ({ base with resetHeld := true } : State).attention = 0) := by decide

def lostHeader : SegHeader := { rawHeader with index := 1, first := 1, kind := .lost, payloadLen := 0, stamp := 2 }

/-- A zone that begins with a RAW segment and a LOST marker behind it; the block behind them cannot be read. -/
theorem witness_StoredSegmentsReadBack_zone :
    (lostHeader.Fits ∧ payloadFits lostHeader [])
      ∧ ([(rawHeader, zeroBlock), (lostHeader, [])].flatMap fun x => segmentBlocks x.1 x.2).length = 3
      ∧ ∀ b : Block, ([none] : List (Option Block)).head? ≠ some (some b) :=
  ⟨⟨⟨by decide, by decide, by decide, by decide, by decide, by decide, by decide, by decide, by decide, by decide,
      (by intro q h; cases h), ⟨by decide, by decide, by decide, by decide, by decide, by decide, by decide, by decide⟩, by decide⟩,
    rfl, rfl⟩, rfl, by intro b h; cases h⟩

/-- A start-up at ring position 1, and a ring block of sequence 9 of a ring of 8. -/
theorem witness_JournalBlocksReadBack_start :
    ({ pos := 1 } : Startup).pos = 9 % 8 ∧ ({ best := some (renderJournal 9 {}) } : Startup).best = some (renderJournal 9 {})
      ∧ ({} : Startup).best = none ∧ (18446744073709551615 : Nat) < 2 ^ 64 := ⟨rfl, rfl, rfl, by decide⟩

/-- A SYNC of an OPEN volume with nothing HELD: everything committed, with and without a lost range; an open segment that can be
sealed, and one that three pending segments hold back. -/
def synced (m : List MapEntry) (blocks : Nat) (pend : List PendSeg) : State :=
  { withVolume .opened with
    vols := [{ volume 12 1 .opened with ingest := 1, map := m }]
    ctxs := [{ context 12 1 with seg := { index := 0, first := 0, blocks }, committed := if blocks = 0 then 1 else 0 }], pend }

theorem witness_SyncsAreAnsweredByWindow_open :
    ((synced [] 0 []).heldAt 1 1 = none ∧ ((synced [] 0 []).ctx 12).any (fun c => c.seg.blocks == 0 && c.committed == 1 && c.seg.held.isNone) = true
        ∧ (synced [] 0 []).client.tags = [])
      ∧ (lostEntry.kind = .lost ∧ 0 < lostEntry.count ∧ lostEntry.first < 1)
      ∧ (((synced [] 1 []).ctx 12).any (fun c => c.seg.blocks == 1 && c.committed == 0 && c.openCatalogue && c.openSettings) = true
        ∧ (synced [] 1 []).lossFail = false ∧ ((synced [] 1 []).pendOf 1).length < 3 ∧ 0 < (synced [] 1 []).alloc.mapFree
        ∧ (synced [] 1 []).alloc.filling = some { zone := 3, filling := true })
      ∧ 3 ≤ ((synced [] 1 [pendingSeg 5, pendingSeg 6, pendingSeg 7]).pendOf 1).length := by decide +kernel

/-- A write put aside for a FREE window whose window its own twin has taken since; and writes put aside that meet each state. -/
def opener : TagEntry := { aside 0 1 with opening := true }

theorem witness_OpeningTestsInOrder_examined :
    ((withTag opener (withVolume .opened)).tag 3 = some opener ∧ opener.opening = true ∧ (withVolume .opened).vol 12 = some (volume 12 1 .opened)
        ∧ (volume 12 1 .opened).source = headerSource (block0.take 40) ∧ (volume 12 1 .opened).day = headerDay (block0.take 40)
        ∧ (volume 12 1 .opened).gen = headerGen (block0.take 40))
      ∧ ({ aside 0 1 with window := 4095 }.window = 4095 ∧ { aside 0 65 with opening := true }.count = 65 ∧ (aside 1 2).offset ≠ 0
        ∧ (aside 1 2).opening = false ∧ (aside 1 2).done = 0 ∧ (aside 1 2).count ≠ 1)
      ∧ ((0 : Nat) < 1 ∧ (∃ x ∈ staged.client.slots, x.serial = 1 ∧ 2 ≤ x.offset ∧ x.offset < 2 + 2) ∧ 1 + 63 < 64 + 2 - 1
        ∧ 256 < crowded.client.slots.length + 2)
      ∧ (¬((1 : Nat) < 1) ∧ (∀ x ∈ staged.client.slots, ¬(x.serial = 1 ∧ 1 ≤ x.offset ∧ x.offset < 1 + 2)) ∧ ¬(1 + 63 < 1 + 2 - 1)
        ∧ staged.client.linkData = [] ∧ staged.set.work.mode = .posted ∧ (1 : BitVec 16) ≠ 0) := by decide +kernel

/-! ### Witnesses: directives and closes, clause by clause -/

theorem witness_ReportsAreAppended_journal :
    (({ base with jr := { base.jr with waitList := [{ code := 1, body := [] }] } } : State).jr.waitList ≠ []
        ∧ (full base).journalFull = true ∧ base.jr.buf.complete = false)
      ∧ ({ base with jr := { base.jr with buf := { complete := true } } } : State).jr.buf.complete = true := by decide

/-- A CLOSING volume at its taking with a slot RESERVED, a slot HELD beyond it, a COMMITTED write of each and a SYNC. -/
def endingTags : List TagEntry :=
  [{ request .receiving 1 with tag := 1 }, { request .waitingCommit 1 with tag := 2, offset := 1 }, { request .syncing 0 with tag := 3 }]
def ending : State :=
  { closing .taking with
    client := { up := true, tags := endingTags
                slots := [{ serial := 1, offset := 0, tag := 1 }, { serial := 1, offset := 1, tag := 2, data := some [] }] } }

theorem witness_CloseBeginsTheClose_taking :
    (ending.vol 12 = some (volume 12 1 .closing) ∧ ending.ctx 12 = some { context 12 1 with close := some { stage := .taking } }
        ∧ ending.heldAt 1 0 = none ∧ (ending.client.tags.map (·.tag)).Nodup ∧ ending.pendOf 1 = [])
      ∧ ((closing .segments).ctx 12 = some { context 12 1 with close := some { stage := .segments } })
      ∧ (({ ready0 with ctxs := (closing .taking).ctxs } : State).heldAt 1 0).isSome = true
      ∧ (3 ≤ ((toSeal [pendingSeg 5, pendingSeg 6, pendingSeg 7] 0).pendOf 1).length
        ∧ (toSeal [] 4095).alloc.filling = some { zone := 3, filling := true, fill := 4095 }) := by decide +kernel

/-- The reads and writes of the ending volume are answered, its HELD block is discarded, the SYNC completes with step 1 (1.6, 2.6). -/
theorem test_close_discards :
    ((ending.endTaking 12).sent, ((ending.endTaking 12).ctx 12).bind (·.close), (ending.endTaking 12).audit.closes)
      = ([.completion 1 .refused (some .volumeClosed) 0, .completion 2 .refused (some .volumeClosed) 0, .completion 3 .good none 0],
          some { stage := .verdict, discarded := 1 }, [12]) := by decide +kernel

/-! ### Witnesses: taking records -/

/-- A trailer behind 40 call records, and what is left of its block. -/
def trailerRec : List Byte := kindT :: zeros 39
def trailBlock : Block := (List.replicate 40 (kindC :: zeros 39)).flatten ++ trailerRec ++ zeros 2456

theorem witness_TakeBlockFramesTheBlock_records :
    (∀ r ∈ header :: List.replicate 101 (kindC :: zeros 39), r.length = 40 ∧ recKind r ≠ kindT)
      ∧ (trailerRec.length = 40 ∧ recKind trailerRec = kindT ∧ trailBlock.length = 4096)
      ∧ ((kindC :: zeros 15).length < 40 ∧ (context 12 1).carry = [] ∧ (context 12 1).headerTaken = false)
      ∧ (context 12 1).seg = { index := 0, first := 0 } ∧ (context 12 1).reference = zeroRecord := by decide +kernel

/-- An open segment that holds one block's bytes (4.5). -/
theorem witness_TakeBlockFramesTheBlock_holds : ({ context 12 1 with carry := [kindC] } : Ctx).Holds [kindC] :=
  ⟨rfl, by decide, [], [], rfl, rfl, rfl, (by intro p h; cases h), rfl, rfl⟩

/-! ### Witnesses: the store port, clause by clause -/

theorem witness_TheArbiterGrantsInClassOrder_outcomes :
    ((3 : Byte) ≠ 0 ∧ (1 : Byte) ≠ 3 ∧ (outEntry .settings .write).req.op ≠ .read)
      ∧ ({ outEntry (.fetch 1 0) .read with got := [(0, zeroBlock)] }.got = [zeroBlock].zipIdx.map (fun p => (p.2, p.1)))
      ∧ ((0 : Nat) < (outEntry (.fetch 1 0) .read).req.count ∧ (outEntry (.fetch 1 0) .read).got = []) :=
  ⟨by decide, rfl, by decide⟩

/-- A write of segment 0 that the watchdog has abandoned, alone in its zone. -/
def abandonedOut (filling : Bool) (live : Nat) : State :=
  let s := out (.segment 1 0 1) .write
    { withVolume .opened with alloc := { base.alloc with zones :=
        [{ zone := 3, filling, live, list := [{ window := 12, serial := 1, index := 0, off := 0, len := 2, stamp := 1, status := .abandoned }] }] } }
  { s with port := { s.port with table := s.port.table.map fun e => { e with abandoned := true } } }

theorem witness_UnawaitedCompletionsOnlyFreeTheTag_abandoned :
    (abandonedOut false 0).entry 0 = some { outEntry (.segment 1 0 1) .write with abandoned := true }
      ∧ ((abandonedOut false 0).alloc.zoneOfStamp 1).any (fun z => !z.filling && z.live == 0) = true
      ∧ ((abandonedOut true 1).alloc.zoneOfStamp 1).any (fun z => z.live != 0) = true
      ∧ (abandonedOut false 0).alloc.waiting = [] := by decide

theorem witness_FixedPlaceWritesComplete_calls :
    ((withSettingsWrite [.calendar (some 3) 7] none).set.write = some (setWrite [.calendar (some 3) 7])
        ∧ base.ret.sweep = none ∧ (sweeping 12 none []).ret.sweep ≠ none)
      ∧ (base.set.write = none ∧ (withSettingsWrite [] none).set.write ≠ none ∧ halted.isHalted = true)
      ∧ ((∀ x ∈ base.set.catWrites, x.block ≠ 1 + 4094 / 16) ∧ ∃ x ∈ (withCatWrite [] none).set.catWrites, x.block = 1 + 12 / 16)
      ∧ (((closing .journal).ctx 12).any (fun c => c.close.any (·.stage == .journal)) = true
        ∧ ((closing .catalogue).ctx 12).any (fun c => c.close.any (·.stage == .catalogue)) = true
        ∧ ({ toReclaim true with ret := { base.ret with reclaim := some { window := 12, serial := 1, freeIssued := true } } } : State).ret.reclaim.any
            (·.freeIssued) = true) := by decide

theorem witness_FixedPlaceWritesAreRetriedOnce_halt :
    base.halted = none ∧ (∃ e ∈ (withTag (request .syncing 0) base).client.tags, e.phase ≠ .serving)
      ∧ ∃ a ∈ ({ base with jr := { base.jr with waitList := [{ code := 3, body := [], who := .close 12 1 }] } } : State).jr.waitList,
          a.who = .close 12 1 := by decide

/-- Segments 0 and 1 of window 12's volume, in a zone's list, with the write of segment 0 out. -/
def secondPlace : Place := { zone := 3, off := 2, len := 2, stamp := 2 }
def secondSeg (st : PendStatus) : PendSeg :=
  { hdr := { rawHeader with index := 1, first := 1, stamp := 2 }, payload := [], place := some secondPlace, status := st }
def secondPlacement (st : PlaceStatus) : Placement :=
  { window := 12, serial := 1, index := 1, off := 2, len := 2, stamp := 2, status := st }
def twoOut (pend : List PendSeg) (list : List Placement) : State :=
  out (.segment 1 0 1) .write
    { withVolume .opened with pend, alloc := { base.alloc with stamp := 3, zones := [{ firstZone with list, live := 1 }] } }
def zoneOf (list : List Placement) : Zone := { firstZone with list, live := 1 }

theorem segmentOut_out : segmentOut.SegmentOut 0 (outEntry (.segment 1 0 1) .write) firstZone firstPlacement firstSeg firstPlace :=
  ⟨out_awaits _ _ _ rfl, rfl, rfl, rfl, rfl, by decide, by decide, by decide, rfl, rfl, rfl, rfl, by decide⟩

theorem segmentOut_open : segmentOut.OwnerOpen firstPlacement (volume 12 1 .opened) (context 12 1) :=
  ⟨rfl, rfl, rfl, rfl, rfl, rfl⟩

/-- The next placement in the zone takes stamp 2 (5.3). -/
theorem witness_SegmentWritesCommit_stamps :
    (segmentOut.alloc.takePlace 12 1 1 4).map (fun r => (r.1.stamp, r.1.off, r.2.stamp)) = some (2, 2, 3)
      ∧ ∀ x ∈ segmentOut.alloc.zones, ∀ y ∈ x.list, y.stamp < segmentOut.alloc.stamp := by decide

theorem segmentOut_fresh : segmentOut.StampsFresh firstZone firstPlacement := ⟨by decide, by decide⟩

theorem twoOut_out (l : List Placement) (h : (zoneOf l).list.any (·.stamp == 1) = true) (pend : List PendSeg)
    (hp : (twoOut pend l).pendSeg 1 0 = some firstSeg) :
    (twoOut pend l).SegmentOut 0 (outEntry (.segment 1 0 1) .write) (zoneOf l) firstPlacement firstSeg firstPlace := by
  refine ⟨out_awaits _ _ _ rfl, rfl, rfl, rfl, rfl, ?_, ?_, hp, rfl, rfl, rfl, rfl, by decide⟩
  · exact List.find?_cons_of_pos h
  · intro x hx _; simpa [twoOut, out, zoneOf] using hx

theorem witness_SegmentWritesCommit_lists :
    ((twoOut [firstSeg, secondSeg .writing] [firstPlacement, secondPlacement .landed]).pendOf 1 = [firstSeg, secondSeg .writing]
        ∧ (secondPlacement .landed).stamp ≠ firstPlacement.stamp ∧ (secondSeg .writing).failure = none)
      ∧ ((twoOut [firstSeg, secondSeg .written] [firstPlacement]).pendOf 1 = [firstSeg, secondSeg .written] ∧ (secondSeg .written).status = .written)
      ∧ ((twoOut [secondSeg .writing, firstSeg] [firstPlacement]).pendOf 1 = [secondSeg .writing, firstSeg] ∧ 0 < (zoneOf [firstPlacement]).live)
      ∧ ((zoneOf [secondPlacement .issued, firstPlacement]).list.head? = some (secondPlacement .issued)
        ∧ (secondPlacement .issued).status ≠ .landed)
      ∧ ({ firstSeg with failure := some (.timeout, firstPlace), retryUsed := true }.failure = some (.timeout, firstPlace)
        ∧ { firstSeg with retryUsed := true }.status ≠ .marking ∧ { firstSeg with status := .marking }.status = .marking
        ∧ segmentOut.client.tags = [] ∧ segmentOut.jr.waitList = [])
      ∧ ((∀ m ∈ (volume 12 1 .opened).map, m.kind ≠ .lost) ∧ 0 < firstSeg.hdr.count
        ∧ (request .waitingCommit 1).offset + (request .waitingCommit 1).count ≤ 0 + 1
        ∧ { request .syncing 0 with target := some 1 }.target = some 1)
      ∧ ((secondPlacement .issued).status ≠ .abandoned
        ∧ (twoOut [firstSeg, secondSeg .writing] [firstPlacement, secondPlacement .issued]).pendSeg 1 1 = some (secondSeg .writing)) := by
  decide

/-- A FILLING zone without room, and a FULL zone that holds nothing, with a segment or a seal that waits. -/
def fillingFull : Zone := { zone := 8, filling := true, fill := 4096, live := 1 }
def emptied : Zone := { zone := 3, filling := false, fill := 9 }
def spaceWaits (w : List WaitItem) : State :=
  { toSeal [{ secondSeg .writing with place := none }] 0 with
    alloc := { base.alloc with zones := [emptied, fillingFull], fifo := [], waiting := w } }

theorem witness_SegmentWritesCommit_space :
    ((spaceWaits []).OnlyRoom 3 2 emptied
        ∧ ({ spaceWaits [] with alloc := { (spaceWaits []).alloc with zones := [{ fillingFull with live := 0 }] } } : State).OnlyRoom 8 2
            { fillingFull with live := 0 })
      ∧ ((spaceWaits [.place 1 1]).alloc.waiting = [.place 1 1] ∧ ((spaceWaits []).pendSeg 1 1).isSome = true
        ∧ (spaceWaits [.seal 12 1]).ctx 12 = some heldContext ∧ heldContext.seg.held.isSome = true
        ∧ ((spaceWaits []).pendOf 1).length < 3 ∧ 0 < (spaceWaits []).alloc.mapFree)
      ∧ (halted.halted.isSome = true ∧ (1, 1) ≠ ((1, 2) : Nat × Nat) ∧ fillingFull.live ≠ 0
        ∧ 4096 < { fillingFull with fill := 4095 }.fill + 2 ∧ { fillingFull with fill := 4095 }.fill + 1 ≤ 4096) :=
  ⟨⟨⟨rfl, by decide, rfl, rfl, by decide, rfl, fillingFull, rfl, by decide, by decide, .inr (.inl (by decide))⟩,
      ⟨rfl, by decide, rfl, rfl, by decide, rfl, _, rfl, by decide, by decide, .inl rfl⟩⟩, by decide⟩

/-- A LOST marker's commit answers the write over its blocks STORE_ERROR (4.11), and the empty FULL zone takes what waited (5.5). -/
theorem test_zone_freed_for_waiting :
    (((spaceWaits [.place 1 1]).zoneTest 3).alloc.waiting, ((spaceWaits [.place 1 1]).zoneTest 3).alloc.filling.map fun z => (z.zone, z.fill))
      = ([], some (3, 2)) := by decide +kernel

theorem witness_WatchdogAndLinkEndRequests_fail :
    (∃ r ∈ ({ lost base with port := { (lost base).port with queue := [ask 2 (.fetch 1 0) .read] } } : State).port.queue,
        ∃ n i, r.user = .fetch n i)
      ∧ (lost base).halted = none := ⟨⟨_, List.mem_singleton.mpr rfl, 1, 0, rfl⟩, rfl⟩

/-! ### Witnesses: reads, the journal, closes, reclaims and start-up, clause by clause -/

/-- A read of a ring block whose write is out, waits, or has failed. -/
def ringWritten (failed : Bool) (s : State) : State :=
  withTag (reader 4095 5 1 none)
    { s with jr := { base.jr with writes := [{ ring := 5, content := [], failed }] }, port := { base.port with queue := [ask 1 (.journal 5) .write] } }

theorem witness_ReadsAreServedFromTheirRegion_more :
    ({ pendingSeg 0 with status := .marking }.status = .marking ∧ { rawHeader with kind := .lost }.kind = .lost)
      ∧ (∀ m ∈ ([] : List MapEntry), ¬(m.first ≤ 0 ∧ 0 < m.first + m.count))
      ∧ (({ withVolume .opened with ctxs := [{ context 12 1 with committed := 1 }] } : State).ctx 12).any (·.committed == 1) = true
      ∧ (∀ x ∈ List.replicate 8 (cacheEntry (.fetching true none [])), ∃ a f ws, x.st = .fetching a f ws)
      ∧ ((readable firstEntry [cacheEntry (.fetching false none [4])]).cached 1 0 = some (cacheEntry (.fetching false none [4]))
        ∧ (readable firstEntry [cacheEntry (.failed .check)]).cached 1 0 = some (cacheEntry (.failed .check)))
      ∧ ((ringWritten true base).jr.writes.find? (fun x => x.ring == 5) = some { ring := 5, content := [], failed := true }
        ∧ (halted.halted.isSome = true ∧ ∃ r ∈ (ringWritten false halted).port.queue, r.user = .journal 5)
        ∧ (ringWritten false base).halted.isSome = false ∧ (5 : Nat) ≠ base.headRing ∧ 0 % base.ringLen ≠ 5)
      ∧ (base.jr.readPtr ≤ base.jr.head ∧ base.jr.readPtr % base.ringLen = base.headRing) := by
  refine ⟨by decide, by decide, by decide, ?_, by decide, by decide, by decide⟩
  intro x hx; obtain rfl := List.eq_of_mem_replicate hx; exact ⟨_, _, _, rfl⟩

theorem witness_EntriesJoinTheJournal_more :
    (∃ w ∈ (withJournalWrite []).jr.writes, w.ring = 5)
      ∧ ({ base with jr := { base.jr with buf := { complete := true } } } : State).jr.buf.complete = true
      ∧ (∀ w ∈ (journalAt 4056).jr.writes, w.ring ≠ (journalAt 4056).headRing) ∧ 2 ≤ base.ringLen := by decide

/-- A close at step 2 with a higher generation beside it; one that is not the first; a close at step 4 with a SUPERSEDE entry to come. -/
def outranked : State :=
  { generations with vols := [{ volume 12 1 .closing with gen := 1 }, volume 13 2 .closed, { volume 14 3 .opened with gen := 2 }] }
def toJournal : State :=
  { withCatWrite [.closing 12 1] none with
    vols := [volume 12 1 .closing], ctxs := [{ context 12 1 with close := some { stage := .writing, supersedes := [[1]] } }] }

theorem witness_ClosesReachTheirVerdict_order :
    (generations.audit.closes.head? = some 12 ∧ (closing .verdict).audit.closes.head? ≠ some 12
        ∧ (∀ u ∈ generations.vols, u.source = 701 → u.day = 20000 → u.gen ≤ 1)
        ∧ { volume 12 1 .closing with supersededOn := some 20000 }.supersededOn ≠ none)
      ∧ ((outranked.vols.map (·.window)).Nodup ∧ outranked.audit.closes.head? = some 12
        ∧ ∀ x ∈ outranked.vols, x ≠ { volume 14 3 .opened with gen := 2 } → x.gen < 2)
      ∧ (toJournal.catWrite 1).any (fun w => w.gathered.isNone && w.waiters == [.closing 12 1]) = true
      ∧ (toJournal.startup = none ∧ toJournal.jr.waitList = [] ∧ toJournal.journalFull = false ∧ (full toJournal).journalFull = true)
      ∧ ({ closing .verdict with halted := some .medium } : State).halted.isSome = true := by decide

/-- The volume's own SUPERSEDE entry comes last, and names the higher generation (1.7, log entry 37). -/
theorem test_own_supersede_comes_last :
    (match exec (.closeVerdict 12) outranked with
      | .next t => (t.ctx 12).bind (·.close) |>.map fun k => k.supersedes.map fun b => (fld b 2 4, fld b 7 4)
      | _ => none) = some [(2, 1), (1, 3)] := by decide +kernel

/-- The CLOSE entry makes the volume CLOSED; while JOURNAL_FULL holds it stays CLOSING (1.6). -/
theorem test_close_entry_closes :
    (match exec (.catalogueWriteCompletion 0 0 0) toJournal, exec (.catalogueWriteCompletion 0 0 0) (full toJournal) with
      | .next t, .next u => ((t.vol 12).map (·.state), t.jr.nextSeq, (u.vol 12).map (·.state), u.jr.waitList.map (·.code))
      | _, _ => (none, 0, none, [])) = (some .closed, 3, some .closing, [3, 4]) := by decide +kernel

/-- A reclaim that may begin, one that a hold matches, and one that a reset cut. -/
def dueReclaim (holds : List Hold) (cut : Bool) : State :=
  { base with
    vols := [{ dueVolume with state := .expiring, map := [firstEntry] }]
    ret := { base.ret with day := 20000, holds, queue := [{ window := 12, serial := 1, written := true, cut }] } }

theorem witness_ReclaimsFreeTheirWindow_due :
    ((∀ h ∈ (dueReclaim [] false).ret.holds, ¬((h.source = none ∨ h.source = some dueVolume.source) ∧ h.first ≤ dueVolume.day ∧ dueVolume.day ≤ h.last))
        ∧ dueVolume.audit = .reconciled ∧ dueVolume.expiry = some 20000 ∧ (20000 : Nat) ≤ (dueReclaim [] false).ret.day
        ∧ dueVolume.verifyQueued = false ∧ dueVolume.verifying = false)
      ∧ ((dueReclaim [] true).ret.queue = [{ window := 12, serial := 1, written := true, cut := true }]
        ∧ ((dueReclaim [] false).alloc.zones.map (·.zone)).Nodup) := by decide

/-- A matching hold keeps an EXPIRING volume from its reclaim, but not one whose reclaim a reset cut (7.5, 7.7). -/
theorem test_hold_stops_the_reclaim :
    ([dueReclaim [] false, dueReclaim [⟨9, none, 20000, 20000, 0⟩] false, dueReclaim [⟨9, none, 20000, 20000, 0⟩] true].map fun s =>
      match exec .reclaimBegin s with
      | .next t => t.ret.reclaim.isSome
      | _ => false) = [true, false, true] := by decide +kernel

/-- Segments 0 and 1 of window 12's volume as a scan finds them; the second one's older copy; a start-up at the end of the ring. -/
def foundSeg (zone index first stamp : Nat) (k : SegKind) : Found :=
  { zone, off := 0, hdr := { rawHeader with index, first, stamp, kind := k }, lead := [], tail := [], last := [] }
def scanned : Startup := { phase := .journal, found := [foundSeg 3 0 0 1 .raw, foundSeg 4 1 1 2 .raw, foundSeg 5 1 1 7 .coded], top := some (7, 5) }
def restoring (st : LifeState) : State :=
  { base with vols := [{ volume 12 1 st with ingest := 4 }], startup := some scanned, alloc := { base.alloc with j := 2, zoneCount := 8 } }

theorem witness_StartUpRunsItsPhases_rebuild :
    ((scanned.kept (volume 12 1 .opened)).map (fun f => (f.zone, f.hdr.index)) = [(3, 0), (5, 1)])
      ∧ (((restoring .opened).rebuildMaps scanned).alloc.zone 5).isSome = true
      ∧ ((∀ d ∈ base.ctxs, d.num ≠ 0) ∧ (scanned.kept (volume 12 1 .opened)).getLast? = some (foundSeg 5 1 1 7 .coded)
        ∧ scanned.kept (volume 13 2 .opened) = [])
      ∧ ((2 ^ 48 - 1 : Nat) = 281474976710655 ∧ (0 : Nat) < 32) := by decide +kernel

/-- The last segment's header and kind decide: RAW, IN_CALLS, or the trailer of a whole or split record; a lost tail closes. -/
def tailOf (k : SegKind) (recs tail : Nat) (seen : Bool) : Startup :=
  { phase := .finish, found := [{ foundSeg 3 0 0 1 k with hdr := { rawHeader with kind := k, recs, tail, run := { trailerSeen := seen } } }] }

theorem witness_StartUpRunsItsPhases_rules :
    (((tailOf .lost 0 3 false).kept (volume 12 1 .opened)).getLast?.any (fun f => f.hdr.kind == .lost && 0 < f.hdr.tail) = true
        ∧ ((tailOf .coded 1 0 true).kept (volume 12 1 .opened)).getLast?.any (fun f => f.hdr.run.trailerSeen && 0 < f.hdr.recs) = true
        ∧ ((tailOf .coded 0 0 true).kept (volume 12 1 .opened)).getLast?.any (fun f => f.hdr.run.trailerSeen && f.hdr.recs == 0) = true)
      ∧ ((phase .finish false).startup.isSome = true ∧ base.set.work.policy = .preserve ∧ (withVolume .opened).ctx 12 = some (context 12 1)
        ∧ (volume 12 1 .suspended).state = .suspended ∧ (volume 12 1 .closed).ingest ≤ 0 ∧ (0 : Nat) < (dueVolume.ingest + 1))
      ∧ ((phase .finish false).alloc.waiting = [] ∧ (phase .finish false).pend = [] ∧ (0 : Nat) + 1 ≤ 4096)
      ∧ ((phase .scan false).startup.any (fun u => u.pos + 1 != (64 - 2 - 1) * 4096) = true ∧ (phase .journal true).startup.any (·.second) = true
        ∧ (phase .journal true).startup.any (fun u => u.pos + 1 != 8192) = true)
      ∧ (dueReclaim [] true).vol 12 = some { dueVolume with state := .expiring, map := [firstEntry] } := by decide +kernel

/-- PRESERVE suspends; a CLOSED volume short of its final block count is DAMAGED, with a marker for what is missing (11.5, 11.6). -/
theorem test_start_up_settles :
    (let o := settleVolume {} (volume 12 1 .opened) { withVolume .opened with startup := some {} }
     let s := settleVolume scanned { volume 12 1 .closed with ingest := 4 } { restoring .closed with vols := [{ volume 12 1 .closed with ingest := 4 }] }
     ((o.vol 12).map (·.state), o.startup.map (·.suspended), (s.vol 12).map (·.audit), s.pend.map fun p => (p.hdr.index, p.hdr.first, p.hdr.count)))
      = (some .suspended, some 1, some .damaged, [(2, 0, 4)]) := by decide +kernel

/-! ### Witnesses: waiters, seals, failures and deliveries, clause by clause -/

/-- A write of two blocks whose block 0 begins with the directive marker is no directive (2.5). -/
theorem witness_OpeningTestsInOrder_marker :
    (aside 0 2).count ≠ 1 ∧ 1 ≤ (aside 0 2).count ∧ directiveMarker reportBlock = base.set.workMarker := by decide +kernel

/-- A total that comes to stand at 2^48 - 1 by an exact sum sets the mark, one that stays one below does not (3.9, R54). -/
theorem test_overflow_mark :
    ([281474976710559, 281474976710560, 281474976710561].map fun n =>
      let c := countCall bankA good1 { context 12 1 with counts := { duration := n } }
      (c.counts.duration, c.overflow))
      = [(281474976710654, false), (281474976710655, true), (281474976710655, true)] := by decide +kernel

/-- Days of 10 move the expiry day of a CLOSED volume of the class, not that of an EXPIRING one or of another class (7.3). -/
theorem witness_RetentionReplacesItsEntry_moves :
    ((volume 12 1 .closed).cls = 0 ∧ (volume 12 1 .closed).state ≠ .expiring
        ∧ recomputeExpiry (volume 12 1 .closed) { days := 10 } ≠ (volume 12 1 .closed).expiry)
      ∧ (¬(volume 12 1 .expiring).state ≠ .expiring ∧ (volume 12 1 .closed).cls ≠ 7
        ∧ recomputeExpiry (volume 12 1 .closed) { days := 0 } = (volume 12 1 .closed).expiry) := by decide

theorem witness_HoldReturnsExpiringVolumes_returns :
    ((volume 12 1 .expiring).state = .expiring ∧ ∃ q ∈ (toReclaim true).ret.queue, q.window = 12 ∧ q.serial = 1 ∧ q.cut = false)
      ∧ ∀ q ∈ (dueReclaim [] true).ret.queue, q.window = 12 → q.serial = 1 → q.cut = true := by decide

/-- An OPEN volume with one block in its open segment and its idle timer running; the pending list, the filling zone and the map memory
given. -/
def stalling (pend : List PendSeg) (z : Zone) (mapFree : Nat) (waiting : List WaitItem) (written : Bool) : State :=
  { withVolume .opened with
    ctxs := [{ context 12 1 with seg := { index := 0, first := 0, blocks := 1 }, idle := some (30, .minutes)
                                 openCatalogue := written }]
    pend
    alloc := { base.alloc with zones := [z], fifo := [], mapFree, waiting } }
def threePending : List PendSeg := [pendingSeg 5, pendingSeg 6, pendingSeg 7]

/-- A close that is made, one that three pending segments hold, one without a map entry, one without room, waiting already or not; and
a seal of an open whose catalogue write is out, or of a HALTED part. -/
theorem witness_IdleTimerStallsItsVolume_blocks :
    (((stalling [] { zone := 3, filling := true, fill := 4095 } 1 [] true).ctx 12).any (fun c => c.seg.blocks != 0 && c.seg.held.isNone
          && c.idle.isSome && c.openCatalogue && c.openSettings && 4095 + c.sealLen == 4096) = true
        ∧ (stalling [] { zone := 3, filling := true, fill := 4095 } 1 [] true).vol 12 = some (volume 12 1 .opened)
        ∧ ((stalling [] emptied 1 [] true).pendOf 1).length < 3 ∧ (stalling [] emptied 1 [] true).pend = []
        ∧ 0 < (stalling [] emptied 1 [] true).alloc.mapFree ∧ (stalling [] emptied 1 [] true).halted = none)
      ∧ (3 ≤ ((stalling threePending { zone := 3, filling := true } 1 [] true).pendOf 1).length)
      ∧ ((stalling [] fillingFull 0 [.seal 12 1] true).alloc.mapFree = 0
        ∧ WaitItem.seal 12 1 ∈ (stalling [] fillingFull 0 [.seal 12 1] true).alloc.waiting
        ∧ WaitItem.seal 12 1 ∉ (stalling [] fillingFull 1 [] true).alloc.waiting)
      ∧ ((stalling [] fillingFull 1 [] true).alloc.filling = some fillingFull ∧ 4096 < fillingFull.fill + 1 ∧ fillingFull.live ≠ 0
        ∧ (stalling [] fillingFull 1 [] true).alloc.fifo = [])
      ∧ (((stalling [] fillingFull 1 [] false).ctx 12).any (fun c => !c.openCatalogue) = true
        ∧ ({ stalling [] fillingFull 1 [] true with halted := some .medium } : State).isHalted = true) := by decide +kernel

/-- The close is made, or held for the idle timer, and the STALL entry takes sequence 1 (1.5). -/
theorem test_idle_timer_closes_or_holds :
    ([stalling [] { zone := 3, filling := true, fill := 4095 } 1 [] true, stalling threePending { zone := 3, filling := true } 1 [] true,
        stalling [] fillingFull 1 [] true].map fun s => match exec (.idleTimerExpiry 12) s with
      | .next t => (t.pend.length, (t.ctx 12).bind (·.seg.held), t.alloc.waiting, t.port.queue.length, t.jr.nextSeq, t.latched.volumeStalled)
      | _ => (0, none, [], 0, 0, false))
      = [(1, none, [], 1, 2, true), (3, some .idleTimer, [], 0, 2, true), (0, some .idleTimer, [.seal 12 1], 0, 2, true)] := by
  decide +kernel

/-- A settings write with several waiters, or with an idle limit and a patrol rate of 0; a RESOLVE and an EXPIRING record behind a
catalogue write; a CALENDAR while a sweep runs. -/
theorem witness_FixedPlaceWritesComplete_waiters :
    ((setWrite [.directive (some 3), .directive none]).waiters = [some 3, none].map .directive
        ∧ (withSettingsWrite [.directive (some 3), .directive none] none).startup = none)
      ∧ ({ setWrite [] with settings := { idleLimit := 0, patrolRate := 0 } }.settings.idleLimit = 0
        ∧ { setWrite [] with settings := { idleLimit := 0, patrolRate := 0 } }.settings.patrolRate = 0
        ∧ ({ base with set := { base.set with work := { patrolRate := 0 } } } : State).set.work.patrolRate = 0)
      ∧ (((withCatWrite [.resume (some 3), .resume none] none).catWrite 1).any
          (fun w => w.waiters == [some 3, none].map CatWaiter.resume) = true
        ∧ ((withCatWrite [.expiring 12 1] none).catWrite 1).any (fun w => w.waiters == [.expiring 12 1]) = true) := by decide

/-- An idle limit and a patrol rate of 0 stop the timers when they come into force; a rate above 0 after 0 loads the patrol's (1.5, 8.7). -/
theorem test_rates_come_into_force :
    ([(0, 0, 1), (30, 1, 0)].map fun (p : Nat × Nat × Nat) =>
      match exec (.settingsWriteCompletion 0 0 0)
        { withSettingsWrite [] none with
          ctxs := timed.ctxs
          audit := { base.audit with patrol := { base.audit.patrol with timer := p.2.2 == 1 } }
          set := { (withSettingsWrite [] none).set with
            work := { patrolRate := p.2.2 }
            write := some { setWrite [] with settings := { idleLimit := p.1, patrolRate := p.2.1 } } } } with
      | .next t => ((t.ctx 12).any (·.idle.isSome), t.audit.patrol.timer)
      | _ => (false, false)) = [(false, false), (true, true)] := by decide +kernel

/-- An open with one of its writes done, whose segment 0 was sealed without a placement; and an open whose context is gone. -/
def opening (catalogue settings : Bool) : State :=
  { withVolume .opened with
    ctxs := [{ context 12 1 with openCatalogue := catalogue, openSettings := settings, next := 1 }]
    pend := [{ firstSeg with place := none }] }

theorem witness_FixedPlaceWritesComplete_open :
    ((opening true false).volOf 1 = some (volume 12 1 .opened) ∧ ((opening true false).ctx 12).any (fun c => c.openCatalogue && !c.openSettings) = true
        ∧ ((opening false true).ctx 12).any (fun c => !c.openCatalogue && c.openSettings) = true
        ∧ ((opening false false).ctx 12).any (fun c => !c.openCatalogue && !c.openSettings) = true)
      ∧ (base.volOf 1 = none ∧ (audited .pending).volOf 1 = some (volume 12 1 .closed) ∧ (audited .pending).ctx 12 = none)
      ∧ ((opening true true).halted = none ∧ (opening true true).pendSeg 1 0 = some { firstSeg with place := none }
        ∧ (opening true true).alloc.filling = some { zone := 3, filling := true } ∧ 0 + firstSeg.hdr.len ≤ 4096)
      ∧ ((spaceWaits []).halted = none ∧ ((spaceWaits []).pendSeg 1 1).isSome = true ∧ (spaceWaits []).alloc.filling = some fillingFull
        ∧ 4096 < fillingFull.fill + rawHeader.len ∧ (spaceWaits []).alloc.fifo = [] ∧ fillingFull.live ≠ 0
        ∧ WaitItem.place 1 1 ∉ (spaceWaits []).alloc.waiting) := by decide +kernel

/-- The second of an open's writes has the sealed segment placed and the OPEN entry appended (1.4). -/
theorem test_open_completes :
    (let t := settingsWaiter 0 (.opening 1) (opening true false)
     (t.port.queue.map (·.user), (t.pendSeg 1 0).bind (·.place) |>.map (·.zone), t.jr.nextSeq)) = ([.segment 1 0 1], some 3, 2) := by
  decide +kernel

/-- The format's last write, and one of its writes before it. -/
theorem witness_FixedPlaceWritesComplete_format :
    ((phase .format false).startup.any (·.phase == .format) = true ∧ (phase .format false).set.write = none
        ∧ (phase .format false).set.gathered = none ∧ (phase .format false).set.catWrites = [])
      ∧ ({ withCatWrite [.format] none with startup := (phase .format false).startup } : State).set.catWrites ≠ [] := by decide

/-- A journal write whose retry is used, with a read that waits for it or without one; reads of an OPEN volume and of a CLOSED one at
the halt; entries that stop with what waits for them. -/
theorem witness_FixedPlaceWritesAreRetriedOnce_journal :
    (({ withJournalWrite [] with jr := { base.jr with writes := [{ ring := 5, content := [], retryUsed := true }] } } : State).jr.writes.find?
          (fun x => x.ring == 5) = some { ring := 5, content := [], retryUsed := true }
        ∧ (∀ x ∈ (withJournalWrite []).client.tags, x.wait ≠ .journalWrite 5))
      ∧ ((reader 12 0 1 (some 1)).phase = .serving ∧ (withVolume .opened).volOf 1 = some (volume 12 1 .opened)
        ∧ (withVolume .closed).volOf 1 = some (volume 12 1 .closed) ∧ ((withTag (reader 12 0 1 (some 1)) base).client.tags.map (·.tag)).Nodup)
      ∧ ([Machine.Append.mk 3 [] true (.close 12 1), Machine.Append.mk 4 [] false (.supersede 12 1)].any (·.who == .close 12 1) = true
        ∧ [Machine.Append.mk 4 [] false (.supersede 12 1)].any (·.who == .close 12 1) = false) := by decide

/-- The watchdog of each user of the store (5.8, 11.5). -/
theorem witness_WatchdogAndLinkEndRequests_users :
    ((out (.journal 5) .write (withJournalWrite [])).entry 0 = some (outEntry (.journal 5) .write)
        ∧ (out (.catalogue 1) .write (withCatWrite [] none)).entry 0 = some (outEntry (.catalogue 1) .write)
        ∧ (outEntry (.journal 5) .write).discard = false ∧ (outEntry (.journal 5) .write).abandoned = false
        ∧ { outEntry .settings .write with discard := true }.discard = true)
      ∧ ((out .startup .read (phase .settings false)).startup.any (fun u => !u.second) = true
        ∧ (out .startup .read (phase .catalogue true)).startup.any (fun u => u.second && u.phase == .catalogue) = true
        ∧ (out .capacity .capacity (phase .capacity false)).startup.any (fun u => !u.second && u.phase == .capacity) = true
        ∧ (outEntry .startup .read).req.user = .startup ∧ (outEntry .capacity .capacity).req.user = .capacity)
      ∧ (segmentOut.alloc.waiting = [] ∧ firstZone.list = [firstPlacement] ∧ firstSeg.retryUsed = false) := by decide

/-- One entry of the request table at a DOWN: ABANDONED with its placement, disowned, a write, an AHEAD and a demand fetch, a ring block's
read, start-up's reads; and directives that wait for a settings or a catalogue write. -/
theorem witness_WatchdogAndLinkEndRequests_down :
    ((abandonedOut false 0).alloc.zoneOfStamp 1 = some { zone := 3, filling := false, live := 0, list := [{ firstPlacement with status := .abandoned }] }
        ∧ base.alloc.zoneOfStamp 1 = none ∧ (abandonedOut true 1).alloc.waiting = [])
      ∧ ((outEntry .settings .write).req.op = .write ∧ (outEntry (.fetch 1 0) .read).req.op = .read
        ∧ (fetching true none []).cached 1 0 = some (cacheEntry (.fetching true none []))
        ∧ (fetching false none [3]).cached 1 0 = some (cacheEntry (.fetching false none [3]))
        ∧ (fetching true none []).rd.roomWait = [] ∧ (fetching false none [3]).set.work.linkLoss = .hold
        ∧ (lost (fetching false none [3])).set.work.linkLoss = .fail)
      ∧ ((withTag (ringReader false) base).tag 3 = some (ringReader false) ∧ (ringReader false).wait = .journalRead 5 false)
      ∧ ((phase .journal false).startup.isSome = true ∧ (phase .capacity false).startup.any (·.phase == .capacity) = true)
      ∧ ((withSettingsWrite [.directive (some 3), .calendar (some 4) 7] (some [.directive (some 5)])).set.gathered = some [.directive (some 5)]
        ∧ ((withCatWrite [.resume (some 6)] none).catWrite 1).any (fun w => w.waiters == [.resume (some 6)]) = true) := by decide

/-- The directives that wait on a write are answered UNAVAILABLE in the order of its waiters, then the others by tag (log entry 10). -/
theorem test_fail_answers_owed_first :
    ((withTag { request .waitingCommit 1 with tag := 1 }
        (withSettingsWrite [.directive (some 9), .calendar (some 4) 7] (some [.directive (some 5)]))).failAtDown).sent
      = [.completion 9 .unavailable none 0, .completion 4 .unavailable none 0, .completion 5 .unavailable none 0,
          .completion 1 .unavailable none 0] := by decide +kernel

/-- The map of two segments, whose second the read-ahead wants; a cache of eight with a READY entry, or all FETCHING. -/
def twoEntries : List MapEntry := [firstEntry, { firstEntry with first := 1, off := 2 }]
def eight (x : FetchState) : List CacheEntry :=
  (List.range 7).map (fun i => { cacheEntry (.fetching true none []) with index := i + 10 }) ++ [{ cacheEntry x with index := 20 }]

theorem witness_ReadsAreServedFromTheirRegion_cache :
    (twoEntries[0]? = some firstEntry ∧ 0 + 1 = firstEntry.first + firstEntry.count ∧ twoEntries[0 + 1]?.any (fun m => m.kind != .lost) = true
        ∧ ({ base with set := { base.set with work := { readAhead := true } } } : State).set.work.readAhead = true
        ∧ base.cached 1 1 = none ∧ base.rd.cache.length < 8)
      ∧ (8 ≤ (eight (.ready [])).length
        ∧ (eight (.ready [])).drop 7 = [{ cacheEntry (.ready []) with index := 20 }]
        ∧ CacheEntry.isFetching { cacheEntry (.ready []) with index := 20 } = false
        ∧ (∀ x ∈ eight (.fetching true none []), x.isFetching = true)
        ∧ (readable firstEntry (eight (.ready []))).cached 1 0 = none)
      ∧ ((readable firstEntry [cacheEntry (.fetching true (some .check) [])]).cached 1 0
          = some (cacheEntry (.fetching true (some .check) []))) := by decide

/-- A demand fetch takes over an AHEAD entry: its queued read goes to class 2, behind the other reads (6.3). -/
theorem test_demand_takes_over_ahead :
    (match exec (.serveBlock 3)
        { readable firstEntry [cacheEntry (.fetching true none [])] with
          port := { base.port with queue := [ask 4 (.fetch 1 0) .read, ask 2 (.fetch 9 0) .read] } } with
      | .next t => (t.port.queue.map fun r => (r.cls, r.user), t.rd.cache.map (·.st), t.client.tags.map (·.wait))
      | _ => ([], [], [])) = ([(2, .fetch 9 0), (2, .fetch 1 0)], [.fetching false none [3]], [.fetch 1 0]) := by decide +kernel

/-- The last block of a map entry asks ahead for the next one; the least recent READY entry makes room for it (6.3, 6.4). -/
theorem test_read_ahead_evicts :
    (((volume 12 1 .closed, eight (.ready [])) : Volume × List CacheEntry) |> fun p =>
      let t := State.readAhead { p.1 with map := twoEntries } 0 0
        { base with rd := { cache := p.2 }, set := { base.set with work := { readAhead := true } } }
      (t.rd.cache.map (·.index), t.port.queue.map fun r => (r.cls, r.user, r.block)))
      = ([1, 10, 11, 12, 13, 14, 15, 16], [(4, .fetch 1 1, 3 * 4096 + 2)]) := by decide +kernel

/-- A fetch with an attempt behind it, by class; and volumes of each state that a second failure finds. -/
theorem witness_StoreReadsAreDelivered_damage :
    ((fetching false (some .medium) [3]).cached 1 0 = some (cacheEntry (.fetching false (some .medium) [3]))
        ∧ (fetching true none []).cached 1 0 = some (cacheEntry (.fetching true none [])) ∧ (outEntry (.fetch 1 0) .read).watchdog ≠ 0
        ∧ (outEntry (.fetch 1 0) .read).got = [] ∧ gather [] 1 = none)
      ∧ ((audited .damaged).vol 12 = some { volume 12 1 .closed with audit := .damaged }
        ∧ (withVolume .opened).vol 12 = some (volume 12 1 .opened) ∧ base.vol 12 = none
        ∧ (volume 12 2 .closed).serial ≠ 1
        ∧ (toReclaim true).vol 12 = some { volume 12 1 .expiring with map := [firstEntry] }
        ∧ (∃ q ∈ (toReclaim true).ret.queue, q.window = 12 ∧ q.serial = 1)
        ∧ ¬∃ q ∈ base.ret.queue, q.window = 12 ∧ q.serial = 1)
      ∧ ((reader 12 0 2 (some 1)).done + 1 ≠ (reader 12 0 2 (some 1)).count ∧ (reader 12 0 1 (some 1)).done + 1 = (reader 12 0 1 (some 1)).count)
      ∧ ((outEntry (.journalRead 3 5) .read).req.count = 1
        ∧ { outEntry (.journalRead 3 5) .read with got := [(0, [])] }.got = [(0, [])]
        ∧ (ringReader true).wait = .journalRead 5 true) := by decide

/-- The second failure of a demand fetch marks an OPEN volume, makes a CLOSED one DAMAGED and returns a waiting EXPIRING one; a TIMEOUT
records nothing (6.4). -/
theorem test_second_failure_is_damage :
    ([(LifeState.opened, FaultClass.medium), (.closed, .check), (.expiring, .medium), (.closed, .timeout)].map fun p =>
      let s : State := { toReclaim true with vols := [volume 12 1 p.1] }
      let t := State.demandFailed (cacheEntry (.fetching false (some .medium) [])) p.2 [] s
      ((t.vol 12).map fun v => (v.state, v.audit, v.markDamaged), t.ret.queue.length, t.latched.damageFound, t.jr.nextSeq))
      = [(some (.opened, .pending, true), 1, true, 2), (some (.closed, .damaged, false), 1, true, 2),
          (some (.closed, .damaged, false), 0, true, 2), (some (.closed, .pending, false), 1, false, 1)] := by decide +kernel

/-- The complete block that start-up loaded, in a running and in a HALTED part; entries that wait while the ring has room. -/
def loaded (s : State) : State := { s with jr := { s.jr with buf := { complete := true } } }
def waitingEntries (s : State) : State := { s with jr := { s.jr with waitList := [{ code := 1, body := [] }, { code := 2, body := [] }] } }

theorem witness_EntriesJoinTheJournal_waits :
    ((loaded base).jr.buf.complete = true ∧ (loaded halted).isHalted = true ∧ (loaded halted).journalFull = false)
      ∧ ((waitingEntries base).jr.waitList = { code := 1, body := [] } :: [{ code := 2, body := [] }]
        ∧ (waitingEntries base).journalFull = false ∧ (waitingEntries base).halted = none
        ∧ (waitingEntries (full base)).journalFull = true ∧ base.jr.waitList = [])
      ∧ (({ journalAt 4056 with halted := some .medium } : State).isHalted = true
        ∧ 4096 < 32 + (journalAt 4056).jr.buf.body.length + entryLen [])
      ∧ (base.jr.readPtr ≤ base.jr.head ∧ base.jr.readPtr % base.ringLen = 0 ∧ ¬ base.jr.readPtr % base.ringLen = 1) := by
  decide +kernel

/-- A HALTED part passes on from the complete block that start-up loaded, without a write (9.2, log entry 45). -/
theorem test_halted_part_passes_a_loaded_block :
    (let t := State.append { code := 12, body := [], forced := true } (loaded halted)
     (t.jr.waitList, t.jr.head, t.jr.buf.count, t.port.queue)) = ([], 1, 1, []) := by decide +kernel

/-- A read at the read pointer makes a ring block free, and the entries that waited join the journal in order (9.3). -/
theorem test_read_pointer_drains :
    (let t := (waitingEntries (full base)).advancePointer 0
     (t.jr.readPtr, t.jr.waitList, t.jr.nextSeq, t.jr.buf.count)) = (1, [], 3, 2) := by decide +kernel

/-- Each flag of R129 can hold, and none. -/
theorem witness_ClosesReachTheirVerdict_flags :
    (let t (good : Bool) : TrailerTotals := { count := 1, duration := 1, units := 1, volume := 1, crcGood := good }
     [reconcileFlags (some (t true)) { gaps := 1, bad := 1, unrated := 1 } true 20002 20000, reconcileFlags (some (t false)) {} false 20001 20000,
        reconcileFlags none {} false 20001 20000].map (·.code))
      = [767, 256, 0] := by decide +kernel

/-- The sweep's last window holds a due volume that is blocked, one that is not due, or one that joins the reclaim queue. -/
theorem witness_SweepExaminesInWindowOrder_last :
    (sweeping 4094 (some { dueVolume with window := 4094 }) []).vol 4094 = some { dueVolume with window := 4094 }
      ∧ (sweeping 4094 (some { dueVolume with window := 4094 }) []).Runs ∧ { dueVolume with audit := .discrepant }.audit ≠ .accepted
      ∧ (sweeping 4095 none []).ret.sweep = some { day := 20000, ref := 7, next := 4095 } := ⟨by decide, ⟨rfl, rfl, rfl⟩, by decide, rfl⟩

theorem test_sweep_ends_with_the_last_window :
    ([{ dueVolume with window := 4094, audit := .pending }, { dueVolume with window := 4094 }].map fun v =>
      match exec .sweepExamine (sweeping 4094 (some v) []) with
      | .next t => (t.ret.sweep.isNone, t.latched.expiryBlocked, t.ret.queue.length, t.jr.nextSeq)
      | _ => (false, false, 0, 0)) = [(true, true, 0, 2), (true, false, 1, 2)] := by decide +kernel

/-- A reclaim whose PURGE entry or floor write is still out; each alone behind its write; and a volume whose link lies above the floor. -/
def reclaiming (r : Reclaim) : State := { toReclaim true with ret := { base.ret with reclaim := some r } }

theorem witness_ReclaimsFreeTheirWindow_floor :
    (base.audit.floor.index < ({ volume 12 1 .expiring with chain := some ⟨5, 9⟩ }.chain.getD {}).index
        ∧ ((volume 12 1 .expiring).chain.getD {}).index ≤ base.audit.floor.index ∧ base.set.write = none
        ∧ (withSettingsWrite [] none).set.write ≠ none)
      ∧ ((reclaiming { window := 12, serial := 1, purgeStored := true }).ret.reclaim = some { window := 12, serial := 1, purgeStored := true }
        ∧ (reclaiming { window := 12, serial := 1, floorDone := true }).ret.reclaim = some { window := 12, serial := 1, floorDone := true }
        ∧ (reclaiming { window := 12, serial := 1 }).halted = none)
      ∧ ((setWrite [.floor]).waiters = [.floor] ∧ (setWrite [.floor]).settings.idleLimit ≠ 0 ∧ (setWrite [.floor]).settings.patrolRate ≠ 0
        ∧ (withJournalWrite [.purge]).jr.writes.find? (fun x => x.ring == 5) = some { ring := 5, content := [], waiters := [.purge] }
        ∧ ∀ x ∈ (withJournalWrite [.purge]).client.tags, x.wait ≠ .journalWrite 5) := by decide

/-- The FREE record is written after the later of the two writes (7.7). -/
theorem test_free_record_after_both_writes :
    ([journalWaiter .purge (reclaiming { window := 12, serial := 1 }),
        journalWaiter .purge (reclaiming { window := 12, serial := 1, floorDone := true }),
        settingsWaiter 0 .floor (reclaiming { window := 12, serial := 1, purgeStored := true })].map fun t =>
      (t.ret.reclaim.any (·.freeIssued), t.set.catWrites.map (·.waiters)))
      = [(false, []), (true, [[.free 12 1]]), (true, [[.free 12 1]])] := by decide +kernel

/-- Verdicts on a CLOSED volume and on another; a LOST segment, no segment, the last segment, a second failure, a changed volume. -/
theorem witness_VerificationsFollowTheDigest_verdicts :
    ((audited .damaged).vol 12 = some { volume 12 1 .closed with audit := .damaged } ∧ (volume 12 1 .closed).audit ≠ .damaged
        ∧ (withVolume .expiring).vol 12 = some (volume 12 1 .expiring) ∧ (volume 12 1 .expiring).state ≠ .closed)
      ∧ ((patrolling (some 1) none [lostEntry]).patrolReady = true ∧ lostEntry.kind = .lost
        ∧ (patrolling none none []).nextClosed 12 = some (volume 12 1 .closed) ∧ ([] : List MapEntry)[0]? = none
        ∧ base.nextClosed 12 = none ∧ (volume 12 1 .closed).digest.getD 0 = 0)
      ∧ ((queued true false).vol 12 = some { volume 12 1 .closed with verifyQueued := true } ∧ (queued true false).Runs)
      ∧ ((0 : Nat) + 1 = [firstEntry].length ∧ [firstEntry, lostEntry][0 + 1]? = some lostEntry ∧ some FaultClass.timeout ≠ none)
      ∧ ((patrolling (some 1) (some none) []).audit.patrol.serial = some 1 ∧ base.vol 12 = none) :=
  ⟨by decide, by decide, ⟨by decide, ⟨rfl, rfl, rfl⟩⟩, by decide, by decide⟩

/-- The queue verification's read of a segment, out at store tag 0, in a part that runs or is HALTED. -/
def verifyingRead (first : Option FaultClass) (m : List MapEntry) : State :=
  out (.queueVerify 1 0) .read
    { base with
      vols := [{ volume 12 1 .closed with verifying := true, map := m }]
      audit := { base.audit with current := some { window := 12, serial := 1, ref := 7, firstFail := first } } }

theorem witness_VerificationsFollowTheDigest_queue :
    (verifyingRead none [firstEntry]).Awaits 0 (outEntry (.queueVerify 1 0) .read)
      ∧ ((verifyingRead none [firstEntry]).audit.current = some { window := 12, serial := 1, ref := 7 }
        ∧ (verifyingRead none [firstEntry]).vol 12 = some { volume 12 1 .closed with verifying := true, map := [firstEntry] }
        ∧ (verifyingRead (some .medium) [firstEntry]).audit.current.any (·.firstFail.isSome) = true)
      ∧ ({ verifyingRead none [firstEntry] with halted := some .medium } : State).isHalted = true :=
  ⟨out_awaits _ _ _ rfl, by decide, rfl⟩

/-- A second failure: DAMAGED after MEDIUM, INCOMPLETE after TIMEOUT and at the link's DOWN; each appends a VERIFY entry, which ends the
verification (8.6, 8.8). -/
theorem test_second_verification_failures :
    ([exec (.verificationReadCompletion 0 1 0) (verifyingRead (some .check) [firstEntry]),
        exec (.storeWatchdogExpiry 0) (verifyingRead (some .check) [firstEntry]), exec .storeLinkDown (verifyingRead none [firstEntry])].map
      fun r => match r with
      | .next t => ((t.vol 12).map fun v => (v.audit, v.verifying), t.latched.damageFound, t.audit.current.isNone, t.jr.nextSeq)
      | _ => (none, false, false, 0))
      = [(some (.damaged, false), true, true, 2), (some (.pending, false), false, true, 2), (some (.pending, false), false, true, 2)] := by
  decide +kernel

/-- Of a trailer in a segment that is lost the totals that the catalogue record holds stand (11.5, log entry 12). -/
def storedTotals : TrailerTotals := { count := 7, duration := 8, units := 9, volume := 10, crcGood := true }

theorem test_lost_trailer_keeps_its_totals :
    ((giveContext (tailOf .lost 0 0 true) { volume 12 1 .closing with trailer := some storedTotals } (restoring .closing)).ctxs.map
      (·.trailer)) = [some storedTotals] := by decide +kernel

/-! ### Witnesses: window 4095, a close's last commit, the patrol's turns and start-up's re-reads -/

/-- An outstanding write of ring block 0, which is the head's, or of ring block 5. -/
def ringOut (w : JournalWrite) (tags : List TagEntry) (s : State) : State :=
  out (.journal w.ring) .write { s with client := { s.client with tags }, jr := { s.jr with writes := [w] } }

theorem witness_SyncsAreAnsweredByWindow_journal :
    ((journalAt 16).jr.buf.count ≠ 0 ∧ (journalAt 16).lossFail = false ∧ (lost (journalAt 16)).lossFail = true
        ∧ (∀ w ∈ (journalAt 16).jr.writes, w.ring ≠ (journalAt 16).headRing))
      ∧ (∃ w ∈ (ringOut { ring := 0, content := [] } [] (journalAt 16)).jr.writes, w.ring = (journalAt 16).headRing)
      ∧ (∃ w ∈ (ringOut { ring := 5, content := [] } [] base).jr.writes, w.ring ≠ base.headRing)
      ∧ addrWindow (addr 4095 0) = 4095 := by decide

/-- A SYNC of window 4095 while an earlier write is out waits for that write and for the one it calls for (9.2). -/
theorem test_sync_of_the_journal_waits :
    (match exec (.sync 3 (addr 4095 0) 0) (ringOut { ring := 5, content := [] } [] (journalAt 16)) with
      | .next t => (t.client.tags.map (·.journalWrites), t.jr.writes.map fun w => (w.ring, w.waiters), t.port.queue.map (·.block))
      | _ => ([], [], [])) = ([2], [(5, [.sync 3]), (0, [.sync 3])], [4096]) := by decide +kernel

/-- The head's write with a gathered one, a read that waits for it and a SYNC that waits for two writes; the read pointer at the head with
an entry that waits, whose forced write comes first. -/
def gatheredWrite : JournalWrite := { ring := 0, content := [], waiters := [.sync 3], gathered := some ([], [.sync 3]) }
def gatheredOut : State :=
  ringOut gatheredWrite [{ reader 4095 0 2 none with tag := 4, wait := .journalWrite 0 }, { request .syncing 0 with journalWrites := 2 }] base
def forcedWaits : State := { gatheredOut with jr := { gatheredOut.jr with waitList := [{ code := 1, body := [], forced := true }] } }

/-- What the statement calls `told`. -/
def gatheredTold (s : State) : State :=
  gatheredWrite.waiters.foldl (fun u x => journalWaiter x u)
    (((s.client.tags.filter fun x => x.wait = .journalWrite 0).map (·.tag)).foldl (fun u t => wakeRead t u)
      { s with port := { s.port with table := s.port.table.filter (·.tag ≠ 0) }
               jr := { s.jr with writes := s.jr.writes.filter (·.ring ≠ 0) } })

theorem witness_FixedPlaceWritesComplete_journal :
    gatheredOut.Awaits 0 (outEntry (.journal 0) .write)
      ∧ ((∀ s ∈ [gatheredOut, forcedWaits], s.jr.writes.find? (fun x => x.ring == 0) = some gatheredWrite)
        ∧ gatheredWrite.gathered = some ([], [.sync 3]) ∧ ((gatheredOut.tag 3).any fun x => 1 < x.journalWrites) = true)
      ∧ ((gatheredTold gatheredOut).halted = none ∧ ∀ x ∈ (gatheredTold gatheredOut).jr.writes, x.ring ≠ 0)
      ∧ ((gatheredTold forcedWaits).halted = none ∧ ∃ x ∈ (gatheredTold forcedWaits).jr.writes, x.ring = 0) :=
  ⟨out_awaits _ _ _ rfl, by decide, ⟨rfl, by decide +kernel⟩, ⟨rfl, by decide +kernel⟩⟩

/-- The write ends: the read is served, the SYNC has one write fewer to wait for, and the gathered write goes out (6.2, 9.2). -/
theorem test_gathered_journal_write_is_handed_over :
    (match exec (.journalWriteCompletion 0 0 0) gatheredOut with
      | .next t => (t.client.tags.map fun x => (x.tag, x.done, x.journalWrites), t.jr.writes.map fun w => (w.ring, w.waiters),
          t.port.queue.map (·.block))
      | _ => ([], [], [])) = ([(4, 1, 0), (3, 0, 1)], [(0, [.sync 3])], [4096]) := by decide +kernel

/-- The last segment of a CLOSING volume, its write out, with a SYNC of the volume. -/
def lastOut (k : SegKind) : State :=
  out (.segment 1 0 1) .write
    { closing .segments with
      pend := [{ firstSeg with hdr := { firstSeg.hdr with kind := k } }]
      client := { up := true, tags := [{ request .syncing 0 with op := .sync }] }
      alloc := { base.alloc with stamp := 2, zones := [firstZone] } }

theorem witness_SegmentWritesCommit_close :
    (lastOut .raw).SegmentOut 0 (outEntry (.segment 1 0 1) .write) firstZone firstPlacement firstSeg firstPlace
      ∧ ((lastOut .raw).vol 12 = some (volume 12 1 .closing) ∧ (lastOut .raw).ctx 12 = some { context 12 1 with close := some { stage := .segments } }
        ∧ (lastOut .raw).pendOf 1 = [firstSeg] ∧ firstSeg.failure = none ∧ firstZone.list = [firstPlacement])
      ∧ (((lastOut .raw).client.tags.map (·.tag)).Nodup ∧ firstSeg.hdr.kind ≠ .lost ∧ 0 < firstSeg.hdr.count
        ∧ firstSeg.hdr.first < 16777216) :=
  ⟨⟨out_awaits _ _ _ rfl, rfl, rfl, rfl, rfl, by decide, by decide, by decide, rfl, rfl, rfl, rfl, by decide⟩, by decide, by decide⟩

/-- It ends step 1 of the close: the volume waits for its verdict, its SYNC is answered (1.6, 2.8). -/
theorem test_last_commit_ends_step_1 :
    ([lastOut .raw, lastOut .lost].map fun s => match exec (.segmentWriteCompletion 0 0 0) s with
      | .next t => (t.audit.closes, (t.ctx 12).bind (fun c => c.close.map (·.stage)), t.sent)
      | _ => ([], none, []))
      = [([12], some .verdict, [.completion 3 .good none 0]), ([12], some .verdict, [.completion 3 .storeError none 0])] := by
  decide +kernel

/-- A ring block read from the store for a read of window 4095: the head's, one whose write is out, one whose write has failed. -/
def ringRead (ring : Nat) (writes : List JournalWrite) : State :=
  { out (.journalRead 3 ring) .read
      (withTag { reader 4095 ring 2 none with wait := .journalRead ring false } { base with jr := { base.jr with writes } }) with
    port := { base.port with table := [{ outEntry (.journalRead 3 ring) .read with got := [(0, zeroBlock)] }] } }

theorem witness_StoreReadsAreDelivered_ring :
    (0 < base.ringLen ∧ 5 < base.ringLen ∧ 8191 < base.ringLen ∧ (ringRead 0 []).headRing = 0 ∧ (ringRead 5 []).headRing ≠ 5
        ∧ ∀ w ∈ (ringRead 5 []).jr.writes, w.ring ≠ 5)
      ∧ ((ringRead 5 [{ ring := 5, content := [] }]).jr.writes.find? (fun y => y.ring == 5) = some { ring := 5, content := [] }
        ∧ (ringRead 5 []).halted = none ∧ (ringRead 5 []).lossFail = false)
      ∧ (ringRead 5 [{ ring := 5, content := [], failed := true }]).jr.writes.find? (fun y => y.ring == 5)
        = some { ring := 5, content := [], failed := true } := by decide

/-- A ring block that the head has come to is served from the buffer (its bytes 8 to 15 hold the first entry sequence, 12.3); one whose
write is out waits for it (6.1, 6.2). -/
theorem test_ring_read_follows_the_head :
    ([ringRead 0 [], ringRead 5 [{ ring := 5, content := [] }]].map fun s => match exec (.journalReadCompletion 0 0 0) s with
      | .next t => (t.sent.map (fun m => match m with | .clientData _ _ b => fld b 8 8 | _ => 0), t.client.tags.map fun x => (x.done, x.wait))
      | _ => ([], [])) = [([base.jr.buf.firstSeq], [(1, .idle)]), ([], [(0, .journalWrite 5)])] := by decide +kernel

/-- CLOSED volumes below and above the cursor. -/
def around : State := { base with vols := [volume 3 1 .closed, volume 7 2 .opened, volume 12 3 .closed, volume 40 4 .closed] }

theorem witness_VerificationsFollowTheDigest_turns :
    (base.patrolReady = false ∧ ∀ v ∈ base.vols, v.state ≠ .closed)
      ∧ ([0, 3, 12, 40].map fun w => (around.nextClosed w).map (·.window)) = [some 3, some 12, some 40, some 3]
      ∧ ({ around with vols := [volume 12 3 .closed] } : State).nextClosed 12 = some (volume 12 3 .closed) := by decide

/-- A data block that begins with the segment marker and spells no kind of segment. -/
def badSegment : Block := be 8 Config.segmentMarker.toNat ++ List.replicate 4088 0xFF

theorem badSegment_marker : fld badSegment 0 8 = Config.segmentMarker.toNat := by
  have h := fld_append [] (be 8 Config.segmentMarker.toNat) (List.replicate 4088 0xFF)
  rw [ofBE_be, length_be] at h
  rw [show fld badSegment 0 8 = _ from h]
  exact Nat.mod_eq_of_lt Config.segmentMarker.isLt

theorem badSegment_check (room : Nat) (rest : List (Option Block)) : segmentCheck room (some badSegment :: rest) = some 1 := by
  have h : parseHeader badSegment = none := rfl
  simp [segmentCheck, badSegment_marker, segmentAt, h]

/-- The last block of a zone has been read, or the last of a re-read: the zone is judged (11.5). -/
theorem witness_StartUpRunsItsPhases_check :
    (segmentCheck 4096 [some badSegment] = some 1 ∧ (0 : Nat) ∉ ([] : List Nat))
      ∧ (({ phase := .scan, pos := 4095 } : Startup).redo = none ∧ 4095 % 4096 = 4095
        ∧ ({ phase := .scan, pos := 4096, redo := some 1 } : Startup).redo = some 1 ∧ 4096 % 4096 + 1 = 1)
      ∧ (∀ off n, segmentCheck (4096 - off) (([] : List (Option Block)).drop off) ≠ some n)
      ∧ (parseStored [1] = none ∧ { phase .settings false with straps := 62 }.alloc.zoneCount < 62 + 3
        ∧ { phase .settings false with straps := 61 }.straps + 3 ≤ (phase .settings false).alloc.zoneCount) :=
  ⟨⟨badSegment_check _ _, by decide⟩, by decide, fun off n => by simp [segmentCheck], by decide +kernel⟩

/-- A segment that fails its checks is asked for once more, and not a third time (11.5). -/
theorem test_failed_segment_is_asked_for_once_more :
    (({ zoneBlocks := [some badSegment] } : Startup).toCheck, scanCheck [0] 1 0 [some badSegment]) = (some (0, 1), none) := by
  have h : parseHeader badSegment = none := rfl
  simp [Startup.toCheck, scanKept, segmentAt, h, scanCheck, badSegment_check]

/-- A blank store that is too small halts with GEOMETRY and writes nothing (5.1, 11.5). -/
theorem test_blank_store_too_small :
    (match State.settingsRead {} [1] { phase .settings false with straps := 62 } with
      | t => (t.halted, t.port.queue.length, t.set.write.isNone)) = (some .geometry, 0, true) := by decide +kernel

/-! ### Witnesses: dispatch, closes around a block, zone changes -/

/-- A directive block with a code, a body length and the bytes of a body (12.2). -/
def spelt (code len : Nat) (body : List Byte) : List Byte :=
  padTo 4092 (be 16 freshMarker.toNat ++ be 2 code ++ be 4 7 ++ be 2 len ++ body)
def speltBlock (code len : Nat) (body : List Byte) : Block := spelt code len body ++ be 4 (crc32 (spelt code len body)).toNat

theorem witness_DirectiveBlocksAreDispatched_check (code len : Nat) (body : List Byte) (h : body.length ≤ 4068) :
    directiveCheckGood (speltBlock code len body) = true ∧ (speltBlock code len body).length = 4096 := by
  have hl : (spelt code len body).length = 4092 := length_padTo _ _ (by simp; omega)
  refine ⟨?_, by simp [speltBlock, hl]⟩
  rw [speltBlock, directiveCheckGood_append _ hl, Nat.mod_eq_of_lt (crc32 (spelt code len body)).isLt, beq_self_eq_true]

/-- The code, the body length, a RESOLVE's choice, a TARIFF_LOAD's entry count and its first zero byte. -/
def speltFields (b : Block) : List Nat := [fld b 16 2, fld b 22 2, fld b 30 1, fld b 26 1, fld b 28 1]

theorem witness_DirectiveBlocksAreDispatched_fields :
    [speltBlock 6 7 [0, 12, 0, 0, 0, 1, 2], speltBlock 7 11 [0, 0, 1, 0, 9], speltBlock 7 12 [0, 0, 1], speltBlock 3 4069 []].map speltFields
      = [[6, 7, 2, 0, 0], [7, 11, 0, 1, 9], [7, 12, 0, 1, 0], [3, 4069, 0, 0, 0]] := by decide +kernel

/-- What dispatch refuses a block with. -/
def refusedWith (b : Block) : Option Reason := match decodeDirective 3 b with | .error r => some r | .ok _ => none

/-- Codes, body lengths, a RESOLVE choice and a TARIFF_LOAD zero byte at and beyond the ends of their ranges (R153, R172). -/
theorem test_dispatch_refuses :
    (refusedWith (speltBlock 0 0 []) = some .unknownDirective ∧ refusedWith (speltBlock 17 4069 []) = some .unknownDirective)
      ∧ ([speltBlock 1 13 [], speltBlock 1 15 [], speltBlock 3 1 [], speltBlock 3 4069 [], speltBlock 16 1 [], speltBlock 16 3 [],
          speltBlock 6 7 [0, 12, 0, 0, 0, 1, 2], speltBlock 7 10 [0, 0, 1], speltBlock 7 12 [0, 0, 1],
          speltBlock 7 11 [0, 0, 1, 0, 9]].all fun b => refusedWith b == some .badField) = true
      ∧ ([speltBlock 1 14 [], speltBlock 3 0 [], speltBlock 16 2 [], speltBlock 6 7 [0, 12, 0, 0, 0, 1, 1], speltBlock 7 3 [],
          speltBlock 7 11 [0, 0, 1, 9, 0]].all fun b => (refusedWith b).isNone) = true := by decide +kernel

/-- `ready0` with a RAW segment of `n` blocks, tags, and a close that may be held. -/
def nearLimit (n : Nat) (held : Option CloseCond) (tags : List TagEntry) : State :=
  { ready0 with
    ctxs := [{ rawContext with seg := { rawContext.seg with blocks := n, held } }]
    client := { ready0.client with tags } }

theorem witness_TakeBlockFramesTheBlock_closes :
    (((nearLimit 14 none []).ctx 12).any (fun c => c.seg.kind == .raw && c.seg.held.isNone) = true ∧ 15 ≤ 14 + 1 ∧ ¬15 ≤ 13 + 1 ∧ ¬15 ≤ 14)
      ∧ (((nearLimit 2 none [{ request .waitingCommit 1 with waitingOn := some 0 }]).client.tags.filter fun x =>
            x.serial = some 1 ∧ x.waitingOn = some 0).length = 1
        ∧ (nearLimit 2 none []).heldAt 1 1 = none)
      ∧ ((nearLimit 2 none [{ request .syncing 0 with target := some 1 }]).client.tags.any fun x =>
          x.phase == .syncing && x.serial == some 1 && x.target == some (0 + 1)) = true
      ∧ ((nearLimit 15 (some .idleTimer) []).ctx 12).any (fun c => c.seg.held.isSome && 15 ≤ c.seg.blocks) = true
      ∧ (((nearLimit 15 none []).pendOf 1).length < 3 ∧ 0 < (nearLimit 15 none []).alloc.mapFree
        ∧ (nearLimit 15 none []).alloc.filling.any (fun z => z.fill + (fullContext.sealLen) ≤ 4096) = true) := by decide +kernel

/-- What TAKE_BLOCK leaves: the open segment's index and blocks, 1 for a held block limit, the pending segments, the ingest point. -/
def takeLeaves (s : State) : List (List Nat) :=
  match exec (.takeBlock 12) s with
  | .next t => t.ctxs.map fun c => [c.seg.index, c.seg.blocks, if c.seg.held == some .blockLimit then 1 else 0, t.pend.length,
      ((t.vol 12).map (·.ingest)).getD 99]
  | _ => []

/-- A close before the block, the block limit after it, a COMMITTED write without a next block, a SYNC's target, no condition; and
three pending segments, which hold the close before the block and after it. -/
theorem test_closes_around_a_block :
    ([nearLimit 15 none [], nearLimit 14 none [], nearLimit 2 none [{ request .waitingCommit 1 with waitingOn := some 0 }],
      nearLimit 2 none [{ request .syncing 0 with target := some 1 }], nearLimit 2 none []].map takeLeaves
        = [[[1, 1, 0, 1, 1]], [[1, 0, 0, 1, 1]], [[1, 0, 0, 1, 1]], [[1, 0, 0, 1, 1]], [[0, 3, 0, 0, 1]]])
      ∧ ([nearLimit 15 none [], nearLimit 14 none []].map fun s =>
          takeLeaves { s with pend := [pendingSeg 0, pendingSeg 1, pendingSeg 2] })
        = [[[0, 15, 1, 3, 0]], [[0, 15, 1, 3, 1]]] := by decide +kernel

/-- A segment of two blocks beside a FILLING zone at 4,095 that is not empty, or empty, and a FIFO. -/
def changing (live : Nat) (fifo : List Nat) : State :=
  { withVolume .opened with
    pend := [{ secondSeg .writing with place := none }]
    alloc := { base.alloc with stamp := 5, zones := [{ zone := 9, filling := true, fill := 4095, live }], fifo } }

theorem witness_FixedPlaceWritesComplete_zones :
    ((changing 1 [14, 3]).halted = none ∧ ((changing 1 [14, 3]).pendSeg 1 1).any (·.hdr.len == 2) = true ∧ 4096 < 4095 + 2
        ∧ (changing 1 [14, 3]).alloc.filling.any (fun z => z.live != 0 && z.zone == 9) = true)
      ∧ ((changing 1 [14, 3]).alloc.zones.all fun x => x.zone != 14 && x.zone == 9) = true
      ∧ ((changing 0 [14, 3]).alloc.filling.any fun z => z.live == 0 && z.list.isEmpty) = true
      ∧ (changing 0 []).alloc.fifo = [] ∧ (changing 0 [14, 3]).alloc.waiting = [] := by decide

/-- R84's cases beyond the filling zone's end: the next zone, with the old one FULL or free; offset 0 again; a wait. -/
theorem test_placing_beyond_the_zone :
    ([changing 1 [14, 3], changing 0 [14, 3], changing 0 [], changing 1 []].map fun s =>
        let t := s.placeOrWait 1 1
        (t.alloc.zones.map fun z => (z.zone, z.filling, z.fill), t.alloc.fifo, t.alloc.waiting, t.port.queue.map (·.block)))
      = [([(9, false, 4095), (14, true, 2)], [3], [], [14 * 4096]), ([(14, true, 2)], [3, 9], [], [14 * 4096]),
        ([(9, true, 2)], [], [], [9 * 4096]), ([(9, true, 4095)], [], [.place 1 1], [])] := by decide +kernel

/-! ### Witnesses: a CLOSING volume's blocks, held closes, start-up's second expiries -/

/-- `closing` with the blocks at offsets 0 to `n - 1` HELD. -/
def closingHeld (st : CloseStage) (n : Nat) : State :=
  { closing st with client := { up := true, slots := (List.range n).map fun i => { serial := 1, offset := i, tag := 9, data := some zeroBlock } } }

/-- A volume in a state whose context waits, with a close held or not, for the block that holds the trailer. -/
def trailing (v : LifeState) (c : Ctx) : State :=
  { withVolume v with
    ctxs := [c], client := { up := true, slots := [{ serial := 1, offset := 0, tag := 9, data := some trailBlock }] } }
def trailContext (held : Option CloseCond) (k : Option Closing) : Ctx :=
  { context 12 1 with headerTaken := true, seg := { index := 0, first := 0, blocks := 1, held }, close := k }

/-- The framer's taking of a CLOSING volume; a trailer block before which a close is held, or none, OPEN and CLOSING; and what is not
taken. -/
theorem witness_TakeBlockFramesTheBlock_closing :
    ((closingHeld .taking 1).heldAt 1 0 = some zeroBlock ∧ (closingHeld .taking 2).heldAt 1 1 = some zeroBlock
        ∧ (trailing .opened (trailContext (some .idleTimer) none)).heldAt 1 0 = some trailBlock)
      ∧ (((closingHeld .taking 1).vol 12).any (·.state == .closing) = true ∧ (closingHeld .taking 1).heldAt 1 1 = none
        ∧ ((closingHeld .taking 1).ctx 12).any (fun c => c.close.any (·.stage == .taking) && c.serial == 1) = true)
      ∧ (isLossBlock (volume 12 1 .opened) (trailContext (some .idleTimer) none) trailBlock = false
        ∧ (trailContext (some .idleTimer) none).reserveShort = false ∧ ¬256 ≤ (trailContext (some .idleTimer) none).seg.blocks
        ∧ (takeCalls [] trailBlock (trailContext (some .idleTimer) none)).framer = .afterTrailer
        ∧ (takeCalls [] trailBlock (trailContext none (some { stage := .taking }))).framer = .afterTrailer)
      ∧ (((withVolume .suspended).vol 12).any (·.state == .suspended) = true ∧ (closing .taking).heldAt 1 0 = none
        ∧ base.vol 12 = none ∧ base.ctx 12 = none
        ∧ ((closingHeld .segments 1).ctx 12).any (fun c => c.close.any (·.stage != .taking)) = true) :=
  ⟨⟨rfl, rfl, rfl⟩, ⟨by decide, rfl, by decide⟩, by decide +kernel, by decide, rfl, rfl, rfl, by decide⟩

/-- What TAKE_BLOCK leaves of a close: the ingest point, whether the taking goes on, the pending segments, the slots, 1 for a close
still held. -/
def closeLeaves (s : State) : List Nat :=
  match exec (.takeBlock 12) s with
  | .next t => (t.vols.map (·.ingest)) ++ (t.ctxs.map fun c => if c.close.any (·.stage == .taking) then 1 else 0)
      ++ [t.pend.length, t.client.slots.length] ++ t.ctxs.map fun c => if c.seg.held.isSome then 1 else 0
  | _ => []

/-- The taking of a CLOSING volume takes its blocks one by one and ends with the last (R18, R59), when the open segment is sealed (R68). -/
theorem test_take_block_of_a_closing_volume :
    [closingHeld .taking 2, closingHeld .taking 1, closingHeld .segments 1].map closeLeaves
      = [[1, 1, 0, 1, 0], [1, 0, 1, 0, 0], [0, 0, 0, 1, 0]] := by decide +kernel

/-- A trailer behind a held close: the close stays held, and step 1 waits for it (R70, R12). -/
theorem test_trailer_with_a_held_close :
    [trailing .opened (trailContext (some .idleTimer) none), trailing .closing (trailContext (some .idleTimer) (some { stage := .taking })),
        trailing .opened (trailContext none none)].map closeLeaves = [[1, 0, 0, 0, 1], [1, 0, 0, 0, 1], [1, 0, 1, 0, 0]] := by decide +kernel

/-- `stalling` with the close of its open segment held. -/
def sealing (pend : List PendSeg) (z : Zone) (mapFree : Nat) (waiting : List WaitItem) (written : Bool) : State :=
  { stalling pend z mapFree waiting written with ctxs := [{ heldContext with openCatalogue := written }] }

/-- No map entry, and no room, with the seal on the waiting list or not; three pending with both; a HALTED part and an open whose
catalogue write is out, without room; room in the next FREE zone. -/
theorem witness_HeldCloseSealsTheSegment_blocks :
    ((sealing [] fillingFull 0 [.seal 12 1] true).ctx 12 = some heldContext ∧ (sealing [] fillingFull 0 [] true).alloc.mapFree = 0
        ∧ WaitItem.seal 12 1 ∈ (sealing [] fillingFull 0 [.seal 12 1] true).alloc.waiting
        ∧ WaitItem.seal 12 1 ∉ (sealing [] fillingFull 1 [] true).alloc.waiting ∧ base.ctx 12 = none)
      ∧ ((sealing [] fillingFull 1 [] true).alloc.filling = some fillingFull ∧ 4096 < fillingFull.fill + heldContext.sealLen
        ∧ fillingFull.live ≠ 0 ∧ (sealing [] fillingFull 1 [] true).alloc.fifo = [])
      ∧ (3 ≤ ((sealing threePending { zone := 3, filling := true } 1 [] true).pendOf 1).length
        ∧ ((sealing (threePending.take 2) fillingFull 1 [] true).pendOf 1).length < 3)
      ∧ (((sealing [] fillingFull 1 [] false).ctx 12).any (fun c => !c.openCatalogue && c.seg.held.isSome) = true
        ∧ ({ sealing [] fillingFull 1 [.seal 12 1] true with halted := some .medium } : State).isHalted = true)
      ∧ ((toSeal [] 4096).alloc.fifo ≠ [] ∧ 4096 < 4096 + heldContext.sealLen ∧ (toSeal [] 4096).halted = none
        ∧ ∀ x ∈ (toSeal [] 4096).pend, ¬(x.hdr.serial = 1 ∧ x.hdr.index = 0)) := by decide +kernel

/-- What HELD_CLOSE leaves: whether the close is held, the waiting list, the pending segments' status with whether they are placed, and
the requests. -/
def sealLeaves (s : State) : Bool × List WaitItem × List (PendStatus × Bool) × Nat :=
  match exec (.heldClose 12) s with
  | .next t => (t.ctxs.any (·.seg.held.isSome), t.alloc.waiting, t.pend.map fun p => (p.status, p.place.isSome), t.port.queue.length)
  | _ => (false, [], [], 9)

/-- R70, R79, R8, R88: no room; HALTED; the open's catalogue write out; the next FREE zone. -/
theorem test_held_close_without_room :
    [sealing [] fillingFull 1 [] true, { sealing [] fillingFull 1 [.seal 12 1] true with halted := some .medium },
        sealing [] fillingFull 1 [] false, toSeal [] 4096].map sealLeaves
      = [(true, [.seal 12 1], [], 0), (false, [], [(.unwritten, false)], 0), (false, [], [(.writing, false)], 0),
        (false, [], [(.writing, true)], 1)] := by decide +kernel

/-- A start-up read out in a phase, at a place, asked for a second time. -/
def secondRead (p : StartPhase) (pos : Nat) (redo : Option Nat) : State :=
  out .startup .read { base with startup := some { phase := p, second := true, pos, redo } }

/-- The last block of a zone and the one before it; a segment read again up to its end; the last block of the ring and the one before. -/
theorem witness_WatchdogAndLinkEndRequests_second :
    ((secondRead .scan 4095 none).entry 0 = some (outEntry .startup .read)
        ∧ (secondRead .scan 4095 none).startup = some { phase := .scan, second := true, pos := 4095 }
        ∧ 4095 % 4096 = 4095 ∧ 4094 % 4096 ≠ 4095)
      ∧ ((secondRead .scan 4096 (some 1)).startup.any (fun u => u.redo == some 1 && u.phase == .scan) = true
        ∧ 4096 % 4096 + 1 = 1 ∧ 4096 % 4096 + 1 ≠ 2)
      ∧ ((secondRead .journal 8191 none).startup.any (fun u => u.phase == .journal && u.second) = true
        ∧ 8190 + 1 ≠ (secondRead .journal 8190 none).ringLen ∧ 8191 + 1 = (secondRead .journal 8191 none).ringLen) := by decide +kernel

/-- What an expiry leaves of start-up: the block asked for next, the place, the blocks of the zone that were not readable, 1 where the
phases after the reads have begun. -/
def startLeaves (s : State) : List Nat :=
  match exec (.storeWatchdogExpiry 0) s with
  | .next t => (t.port.queue.map (·.block)) ++ t.startup.toList.flatMap fun u =>
      [u.pos, u.zoneBlocks.countP (·.isNone), if u.phase == .finish then 1 else 0]
  | _ => []

/-- A block of a zone that times out twice counts as not readable, one of the ring as invalid, and the next is asked for; the last of
the ring ends the reading (R167, R168). -/
theorem test_second_expiry_of_a_scan_and_a_ring_read :
    [secondRead .scan 7 none, secondRead .journal 7 none, secondRead .journal 8191 none].map startLeaves
      = [[3 * 4096 + 8, 8, 1, 0], [4096 + 8, 8, 0, 0], [8191, 0, 1]] := by decide +kernel

end Sys2Proof.Tests
end

section
/-! SUPPORT. What a directive's owner does before the directive's own cases: taking it up, the answers HALTED and BUSY_RETRY, and the
cases that directives naming a volume share (R153, 1.9). -/

namespace Sys2Proof.Machine

/-! ### Taking a directive up -/

/-- Taking a directive up changes the record of dispatched directives at most. -/
theorem takeUp_only (tag : Byte) (c : Instr) (s : State) :
    (s.takeUp tag c).2 = { s with client := (s.takeUp tag c).2.client } := by
  unfold State.takeUp
  dsimp only
  split
  · rfl
  · split <;> rfl

@[simp] theorem takeUp_vols (tag : Byte) (c : Instr) (s : State) : (s.takeUp tag c).2.vols = s.vols :=
  (congrArg State.vols (takeUp_only tag c s)).trans rfl

@[simp] theorem takeUp_vol (tag : Byte) (c : Instr) (s : State) (w : Nat) : (s.takeUp tag c).2.vol w = s.vol w := by
  simp only [State.vol, takeUp_vols]

/-- Taking a directive up leaves which volume a directive names. -/
theorem takeUp_names {s : State} {window : BitVec 16} {serial : BitVec 32} {v : Volume} (h : s.Names window serial v)
    (tag : Byte) (c : Instr) : (s.takeUp tag c).2.Names window serial v :=
  ⟨h.range, (takeUp_vol tag c s _).trans h.found, h.serial⟩

/-! ### The first case: HALTED, BUSY_RETRY -/

theorem directiveGate_of_halted {s : State} (h : s.isHalted = true) : s.directiveGate = some .halted := by
  simp [State.directiveGate, h]

theorem directiveGate_of_starting {s : State} (h : s.isHalted = false) (hs : s.startup.isSome = true) :
    s.directiveGate = some .busyRetry := by
  simp [State.directiveGate, State.starting, h, hs]

theorem directiveGate_of_takes {s : State} (h : s.TakesDirectives) : s.directiveGate = none := by
  simp [State.directiveGate, State.isHalted, State.starting, h.alive, h.started]

/-- A directive that the gate answers. -/
theorem own_of_gate {s : State} {st : Status} (hr : s.resetHeld = false) (hg : s.directiveGate = some st) (tag : Byte) (c : Instr)
    (body : Option Nat → State → State) : s.own tag c body = (s.takeUp tag c).2.answer (s.takeUp tag c).1 st none := by
  simp [State.own, hr, hg]

/-- A directive that passes the gate. -/
theorem own_of_takes {s : State} (h : s.TakesDirectives) (tag : Byte) (c : Instr) (body : Option Nat → State → State) :
    s.own tag c body = body (s.takeUp tag c).1 (s.takeUp tag c).2 := by
  simp [State.own, h.released, directiveGate_of_takes h]

/-! ### Naming a volume -/

section
variable {o : Option Nat} {window : BitVec 16} {serial : BitVec 32} {s : State} {v : Volume} (body : Volume → State)

theorem named_of_no_window (h : 4095 ≤ window.toNat) : s.named o window serial body = s.deny o .badField := by
  simp [State.named, h]

theorem named_of_free (h : window.toNat < 4095) (hv : s.vol window.toNat = none) :
    s.named o window serial body = s.deny o .noSuchVolume := by
  simp [State.named, Nat.not_le.mpr h, hv]

theorem named_of_other_serial (h : window.toNat < 4095) (hv : s.vol window.toNat = some v) (hn : v.serial ≠ serial.toNat) :
    s.named o window serial body = s.deny o .noSuchVolume := by
  simp [State.named, Nat.not_le.mpr h, hv, hn]

theorem named_of_names (h : s.Names window serial v) : s.named o window serial body = body v := by
  simp [State.named, Nat.not_le.mpr h.range, h.found, h.serial]

end

/-! ### Reading a directive block -/

/-- A directive whose block states another length than its code's is refused at dispatch (R153, R172). -/
theorem decodeDirective_of_other_length {b : Block} {want : Nat}
    (hw : bodyLength (fld b 16 2) (slice b 24 (fld b 22 2)) = some want) (hl : fld b 22 2 ≠ want) (tag : Byte) :
    decodeDirective tag b = .error .badField := by
  simp [decodeDirective, hw, hl]

end Sys2Proof.Machine
end

section
/-! REVOKE (R143): what it does case by case, and the statement O40. -/

namespace Sys2Proof.Machine

/-- A volume that leaves the verify queue: its flag and its items of the queue change, nothing else. -/
theorem unqueueVerify_eq (v : Volume) (s : State) :
    s.unqueueVerify v = { s with
      vols := s.vols.map fun x => if x.window = v.window then { x with verifyQueued := false } else x
      audit := { s.audit with queue := s.audit.queue.filter fun q => ¬(q.window = v.window ∧ q.serial = v.serial) } } := by
  simp [State.unqueueVerify, State.modVol, Bool.beq_eq_decide_eq]

/-- What REVOKE does with the volume it names: the last three cases of R143. -/
def State.revokeVolume (o : Option Nat) (s : State) (v : Volume) : State :=
  if v.verifying then s.deny o .tooLate
  else if !v.verifyQueued then s.deny o .noSuchVolume
  else (s.unqueueVerify v).answer o .good none

section
variable {tag : Byte} {ref : BitVec 32} {window : BitVec 16} {serial : BitVec 32} {s : State} {v : Volume}

/-- REVOKE in a part that is HALTED or starts up: the gate's answer. -/
theorem exec_revoke_of_gate {st : Status} (hr : s.resetHeld = false) (hg : s.directiveGate = some st) :
    exec (.revoke tag ref window serial) s
      = .next ((s.takeUp tag (.revoke tag ref window serial)).2.answer (s.takeUp tag (.revoke tag ref window serial)).1 st none) :=
  congrArg _ (own_of_gate hr hg _ _ _)

/-- REVOKE in a part that takes directives: the cases of naming a volume, then those of the volume named. -/
theorem exec_revoke_of_takes (h : s.TakesDirectives) :
    exec (.revoke tag ref window serial) s
      = .next ((s.takeUp tag (.revoke tag ref window serial)).2.named (s.takeUp tag (.revoke tag ref window serial)).1 window serial
          ((s.takeUp tag (.revoke tag ref window serial)).2.revokeVolume (s.takeUp tag (.revoke tag ref window serial)).1)) :=
  congrArg _ (own_of_takes h _ _ _)

/-- REVOKE of a volume that it names. -/
theorem exec_revoke_of_names (h : s.TakesDirectives) (hv : s.Names window serial v) :
    exec (.revoke tag ref window serial) s
      = .next ((s.takeUp tag (.revoke tag ref window serial)).2.revokeVolume
          (s.takeUp tag (.revoke tag ref window serial)).1 v) := by
  rw [exec_revoke_of_takes h, named_of_names _ (takeUp_names hv _ _)]

end

section
variable {o : Option Nat} {s : State} {v : Volume}

theorem revokeVolume_of_verifying (h : v.verifying = true) : s.revokeVolume o v = s.answer o .refused (some .tooLate) := by
  simp [State.revokeVolume, State.deny, h]

theorem revokeVolume_of_not_queued (h : v.verifying = false) (hq : v.verifyQueued = false) :
    s.revokeVolume o v = s.answer o .refused (some .noSuchVolume) := by
  simp [State.revokeVolume, State.deny, h, hq]

theorem revokeVolume_of_queued (h : v.verifying = false) (hq : v.verifyQueued = true) :
    s.revokeVolume o v = (s.unqueueVerify v).answer o .good none := by
  simp [State.revokeVolume, h, hq]

end

/-- Settles O40: R143 case by case, and the body length of REVOKE at dispatch (R172). -/
theorem revokeLeavesTheQueue : Obligations.RevokeLeavesTheQueue := by
  refine ⟨fun tag ref window serial s hr => ?_, fun tag b hc hl =>
    decodeDirective_of_other_length (want := 6) (by rw [hc]; rfl) hl tag⟩
  intro c o u refused
  refine ⟨fun hh => exec_revoke_of_gate hr (directiveGate_of_halted hh),
    fun hh hs => exec_revoke_of_gate hr (directiveGate_of_starting hh hs), fun ht hw => ?noWindow, fun ht hw hv => ?free,
    fun ht hw v hv => ⟨fun hn => ?otherSerial, fun hn hb => ?verifying, fun hn hb hq => ?notQueued, fun hn hb hq => ?queued⟩⟩
  case noWindow => exact (exec_revoke_of_takes ht).trans (congrArg _ (named_of_no_window _ hw))
  case free =>
    exact (exec_revoke_of_takes ht).trans (congrArg _ (named_of_free _ hw ((takeUp_vol tag c s _).trans hv)))
  case otherSerial =>
    exact (exec_revoke_of_takes ht).trans (congrArg _ (named_of_other_serial _ hw ((takeUp_vol tag c s _).trans hv) hn))
  case verifying => exact (exec_revoke_of_names ht ⟨hw, hv, hn⟩).trans (congrArg _ (revokeVolume_of_verifying hb))
  case notQueued => exact (exec_revoke_of_names ht ⟨hw, hv, hn⟩).trans (congrArg _ (revokeVolume_of_not_queued hb hq))
  case queued =>
    rw [exec_revoke_of_names ht ⟨hw, hv, hn⟩, revokeVolume_of_queued hb hq, unqueueVerify_eq]

end Sys2Proof.Machine
end

section
/-! CLEAR_ATTENTION (R164): which item sets it takes, what it does case by case, and the statement O41. -/

namespace Sys2Proof.Machine

/-! ### The item set -/

/-- The mask of the bits that stand for no latched item (R172). -/
theorem getLsbD_notLatchedMask : ∀ i < 16, (0xF83F : BitVec 16).getLsbD i = true ↔ ¬(6 ≤ i ∧ i ≤ 10) := by decide

/-- An item set misses the mask exactly when each of its bits stands for a latched item. -/
theorem and_notLatchedMask_eq_zero_iff {items : BitVec 16} :
    items &&& 0xF83F = 0 ↔ ∀ i, items.getLsbD i = true → 6 ≤ i ∧ i ≤ 10 := by
  constructor
  · intro h i hi
    by_contra hout
    have hmask := (getLsbD_notLatchedMask i (BitVec.lt_of_getLsbD hi)).mpr hout
    have hboth : (items &&& 0xF83F).getLsbD i = true := by rw [BitVec.getLsbD_and, hi, hmask]; rfl
    rw [h] at hboth
    simp at hboth
  · intro h
    refine BitVec.eq_of_getLsbD_eq fun i hi => ?_
    cases hitem : items.getLsbD i with
    | false => simp [hitem]
    | true =>
      have hmask : (0xF83F : BitVec 16).getLsbD i = false :=
        Bool.eq_false_iff.mpr fun hm => (getLsbD_notLatchedMask i hi).mp hm (h i hitem)
      rw [BitVec.getLsbD_and, hmask]
      simp

/-- The item sets that case 2 of R164 lets pass. -/
theorem clearValid_iff {items : BitVec 16} :
    clearValid items = true ↔ items ≠ 0 ∧ ∀ i, items.getLsbD i = true → 6 ≤ i ∧ i ≤ 10 := by
  simp only [clearValid, Bool.and_eq_true, bne_iff_ne, beq_iff_eq, and_notLatchedMask_eq_zero_iff]

/-! ### The cases of R164 -/

/-- Taking a directive up leaves the latched items. -/
@[simp] theorem takeUp_latched (tag : Byte) (c : Instr) (s : State) : (s.takeUp tag c).2.latched = s.latched :=
  (congrArg State.latched (takeUp_only tag c s)).trans rfl

section
variable {tag : Byte} {ref : BitVec 32} {items : BitVec 16} {s : State}

/-- CLEAR_ATTENTION in a part that is HALTED or starts up: the gate's answer. -/
theorem exec_clearAttention_of_gate {st : Status} (hr : s.resetHeld = false) (hg : s.directiveGate = some st) :
    exec (.clearAttention tag ref items) s
      = .next ((s.takeUp tag (.clearAttention tag ref items)).2.answer (s.takeUp tag (.clearAttention tag ref items)).1 st none) :=
  congrArg _ (own_of_gate hr hg _ _ _)

/-- CLEAR_ATTENTION in a part that takes directives: refused for its item set, or its items cleared. -/
theorem exec_clearAttention_of_takes (h : s.TakesDirectives) :
    exec (.clearAttention tag ref items) s
      = .next (let o := (s.takeUp tag (.clearAttention tag ref items)).1
          let u := (s.takeUp tag (.clearAttention tag ref items)).2
          if !clearValid items then u.deny o .badField
          else State.answer o .good none { u with latched := u.latched.clear items }) :=
  congrArg _ (own_of_takes h _ _ _)

/-- An item set that is empty, or names an item that is not latched, is refused. -/
theorem exec_clearAttention_of_invalid (h : s.TakesDirectives) (hi : clearValid items = false) :
    exec (.clearAttention tag ref items) s
      = .next ((s.takeUp tag (.clearAttention tag ref items)).2.answer (s.takeUp tag (.clearAttention tag ref items)).1
          .refused (some .badField)) := by
  rw [exec_clearAttention_of_takes h, hi]
  rfl

/-- A set of latched items is cleared, and nothing else changes. -/
theorem exec_clearAttention_of_valid (h : s.TakesDirectives) (hi : clearValid items = true) :
    exec (.clearAttention tag ref items) s
      = .next (State.answer (s.takeUp tag (.clearAttention tag ref items)).1 .good none
          { (s.takeUp tag (.clearAttention tag ref items)).2 with latched := s.latched.clear items }) := by
  rw [exec_clearAttention_of_takes h, hi, ← takeUp_latched tag (.clearAttention tag ref items) s]
  rfl

end

/-- Settles O41: R164 case by case, and the body length of CLEAR_ATTENTION at dispatch (R172). -/
theorem clearAttentionClearsItsItems : Obligations.ClearAttentionClearsItsItems := by
  refine ⟨fun tag ref items s hr => ?_, fun tag b hc hl =>
    decodeDirective_of_other_length (want := 2) (by rw [hc]; rfl) hl tag⟩
  intro c o u latchedOnly
  refine ⟨fun hh => exec_clearAttention_of_gate hr (directiveGate_of_halted hh),
    fun hh hs => exec_clearAttention_of_gate hr (directiveGate_of_starting hh hs), fun ht hbad => ?refused,
    fun ht hne hlatched => ?taken⟩
  case refused =>
    refine exec_clearAttention_of_invalid ht (Bool.eq_false_iff.mpr fun hvalid => ?_)
    obtain ⟨hne, hlatched⟩ := clearValid_iff.mp hvalid
    exact hbad.elim hne fun hn => hn hlatched
  case taken => exact exec_clearAttention_of_valid ht (clearValid_iff.mpr ⟨hne, hlatched⟩)

end Sys2Proof.Machine
end

section
/-! What each command keeps, put together from the lemmas of Laws/Keeps*.lean, and the statements about the whole machine that follow:
O1, O2, O4, O5, O6, O7, O8. -/

namespace Sys2Proof.Machine

/-! ### The commands that keep everything -/

/-- The commands that send no REQUEST to the store and reach none of the pins' and CLEAR_ATTENTION's own effects. -/
def plainCommand : Instr → Bool
  | .storeGrant => false
  | .startupCapacity => false
  | .clearAttention _ _ _ => false
  | c => !c.isPin

/-- A plain command keeps the queue, the pins, a halt, the latched items, the messages sent and the limits of the tables. -/
theorem keepsNext_exec {c : Instr} (h : plainCommand c = true) (s : State) : KeepsNext s (exec c s) := by
  cases c with
  | read tag addr n => exact keepsNext_read tag addr n s
  | write tag addr n => exact keepsNext_write tag addr n s
  | sync tag addr n => exact keepsNext_sync tag addr n s
  | clientCapacity tag op addr n => exact keepsNext_clientCapacity tag op addr n s
  | clientData tag i b => exact keepsNext_clientData tag i b s
  | abort tag => exact keepsNext_abort tag s
  | clientLinkDown => exact keepsNext_clientLinkDown s
  | clientLinkUp => exact keepsNext_clientLinkUp s
  | configure tag ref body => exact keepsNext_configure tag ref body s
  | signature tag ref marker => exact keepsNext_signature tag ref marker s
  | report tag ref => exact keepsNext_report tag ref s
  | inquire tag ref w first => exact keepsNext_inquire tag ref w first s
  | close tag ref w n => exact keepsNext_close tag ref w n s
  | resolveResume tag ref w n => exact keepsNext_resolveResume tag ref w n s
  | resolveAbandon tag ref w n => exact keepsNext_resolveAbandon tag ref w n s
  | tariffLoad tag ref bank first es => exact keepsNext_tariffLoad tag ref bank first es s
  | tariffSelect tag ref bank => exact keepsNext_tariffSelect tag ref bank s
  | calendar tag ref day => exact keepsNext_calendar tag ref day s
  | retention tag ref cls days grace choice => exact keepsNext_retention tag ref cls days grace choice s
  | hold tag ref id a source first last => exact keepsNext_hold tag ref id a source first last s
  | release tag ref id => exact keepsNext_release tag ref id s
  | accept tag ref w n => exact keepsNext_accept tag ref w n s
  | verify tag ref w n => exact keepsNext_verify tag ref w n s
  | revoke tag ref w n => exact keepsNext_revoke tag ref w n s
  | takeBlock w => exact keepsNext_takeBlock w s
  | heldClose w => exact keepsNext_heldClose w s
  | idleTimerExpiry w => exact keepsNext_idleTimerExpiry w s
  | storeData tag i b => exact keepsNext_storeData tag i b s
  | segmentWriteCompletion tag st n => exact keepsNext_next (keeps_completeFor isSegment tag st n s)
  | catalogueWriteCompletion tag st n => exact keepsNext_next (keeps_completeFor isCatalogue tag st n s)
  | settingsWriteCompletion tag st n => exact keepsNext_next (keeps_completeFor isSettings tag st n s)
  | journalWriteCompletion tag st n => exact keepsNext_next (keeps_completeFor isJournal tag st n s)
  | fetchCompletion tag st n => exact keepsNext_next (keeps_completeFor isFetch tag st n s)
  | journalReadCompletion tag st n => exact keepsNext_next (keeps_completeFor isJournalRead tag st n s)
  | verificationReadCompletion tag st n => exact keepsNext_next (keeps_completeFor isVerification tag st n s)
  | storeWatchdogExpiry tag => exact keepsNext_storeWatchdogExpiry tag s
  | storeLinkDown => exact keepsNext_storeLinkDown s
  | storeLinkUp => exact keepsNext_storeLinkUp s
  | serveBlock tag => exact keepsNext_serveBlock tag s
  | closeVerdict w => exact keepsNext_closeVerdict w s
  | closeCatalogue w => exact keepsNext_closeCatalogue w s
  | sweepExamine => exact keepsNext_sweepExamine s
  | reclaimBegin => exact keepsNext_reclaimBegin s
  | patrolTurn => exact keepsNext_patrolTurn s
  | queueVerificationBegin => exact keepsNext_queueVerificationBegin s
  | startupReadCompletion tag st n => exact keepsNext_next (keeps_completeFor isStartup tag st n s)
  | startEntry => exact keepsNext_startEntry s
  | capacityCompletion tag st n =>
    exact keepsNext_next (keeps_takeCompletion tag isCapacity (fun _ _ => keeps_capacityEnds _ _) s)
  | storeGrant => cases h
  | startupCapacity => cases h
  | clearAttention tag ref items => cases h
  | powerOn straps => cases h
  | resetNAssert => cases h
  | resetNRelease => cases h

/-! ### The commands that send a REQUEST to the store -/

/-- A grant issues the request that the arbiter finds, or does nothing. -/
theorem exec_storeGrant_cases (s : State) :
    exec .storeGrant s = .next s ∨ ∃ t r, s.port.freeTag = some t ∧ s.port.nextGrant s.isHalted = some r
      ∧ exec .storeGrant s = .next (State.issue t r { s with port := { s.port with queue := dequeue r s.port.queue } }) := by
  simp only [exec, execStoreGrant]
  split
  · exact .inl rfl
  · split
    · next t r ht hr => exact .inr ⟨t, r, ht, hr, rfl⟩
    · exact .inl rfl

/-- STARTUP_CAPACITY issues the CAPACITY request, or does nothing. -/
theorem exec_startupCapacity_cases (s : State) :
    exec .startupCapacity s = .next s ∨ ∃ t u, s.port.freeTag = some t
      ∧ exec .startupCapacity s = .next (State.issue t
          { cls := 2, user := .capacity, op := .capacity, block := 0, count := 0 } { s with startup := some u }) := by
  simp only [exec, execStartupCapacity]
  split
  · exact .inl rfl
  · split
    · split
      · exact .inl rfl
      · next u _ _ t ht => exact .inr ⟨t, _, ht, rfl⟩
    · exact .inl rfl

/-- A request that the arbiter grants may be granted (R91). -/
theorem nextGrant_grantable {halted : Bool} {p : StorePort} {r : StoreReq} (h : p.nextGrant halted = some r) :
    r.grantable halted = true := by
  obtain ⟨c, -, hc⟩ := List.exists_of_findSome?_eq_some h
  exact (Bool.and_eq_true_iff.mp (List.find?_some (p := fun r : StoreReq => r.cls == c && r.grantable halted) hc)).2

/-- No store REQUEST, so no store WRITE. -/
theorem isStoreWrite_of_not_isStoreRequest {m : Msg} (h : m.isStoreRequest = false) : m.isStoreWrite = false := by
  cases m with
  | storeRequest => cases h
  | _ => rfl

/-! ### What every command keeps -/

/-- What a command that is no reset keeps, with the two commands that send a REQUEST and the one that clears latched items told
apart. -/
structure CommandKeeps (c : Instr) (s t : State) : Prop where
  pending : t.pending = s.pending
  halted : s.isHalted = true → t.isHalted = true
  latched : c.isClear = false → s.latched.le t.latched
  sent : ∃ ms, t.sent = s.sent ++ ms
    ∧ (c ≠ .storeGrant → c ≠ .startupCapacity → ∀ m ∈ ms, m.isStoreRequest = false)
    ∧ (s.isHalted = true → ∀ m ∈ ms, m.isStoreWrite = false)
  ok : s.outline.Ok → t.outline.Ok

theorem CommandKeeps.of_keeps {c : Instr} {s t : State} (h : Keeps s t) : CommandKeeps c s t := by
  obtain ⟨ms, hsent, hms⟩ := h.sent
  exact ⟨h.pending, h.halted, fun _ => h.latched, ⟨ms, hsent, fun _ _ => hms,
    fun _ m hm => isStoreWrite_of_not_isStoreRequest (hms m hm)⟩, h.ok⟩

/-- Issuing a request keeps as one of the two commands does that issue one; it is no WRITE in a HALTED part. -/
theorem CommandKeeps.of_issue {c : Instr} {s x : State} {t : Nat} {r : StoreReq} (hc : c = .storeGrant ∨ c = .startupCapacity)
    (hx : x.outline = s.outline) (ht : x.port.freeTag = some t) (hw : s.isHalted = true → r.op ≠ .write) :
    CommandKeeps c s (State.issue t r x) := by
  obtain ⟨hpend, -, hhalt, hlatch, ⟨ms, hsent, hms⟩, hok⟩ := issue_keeps t r x ht
  have kx := Keeps.of_outline hx
  have hsx : x.sent = s.sent := congrArg Outline.sent hx
  have hhx : x.halted = s.halted := congrArg Outline.halted hx
  refine ⟨hpend.trans kx.pending, fun hs => ?_, fun _ => Latched.le_trans kx.latched hlatch, ⟨_, hsent.trans (by rw [hsx]), ?_, ?_⟩,
    fun o => hok (kx.ok o)⟩
  · rwa [State.isHalted, hhalt, hhx]
  · exact fun h1 h2 => (hc.elim h1 h2).elim
  · intro hs m hm
    rcases List.mem_cons.mp hm with rfl | hm
    · have hop := hw hs
      cases hr : r.op with
      | write => exact absurd hr hop
      | read => rfl
      | capacity => rfl
    · exact isStoreWrite_of_not_isStoreRequest (hms m hm)

/-- Every command but the two resets keeps. -/
theorem commandKeeps_exec {c : Instr} {s t : State} (hr : c.isReset = false) (h : exec c s = .next t) : CommandKeeps c s t := by
  by_cases hp : plainCommand c = true
  · exact .of_keeps (keepsNext_exec hp s t h)
  cases c with
  | storeGrant =>
    rcases exec_storeGrant_cases s with he | ⟨tag, r, htag, hgrant, he⟩
    · cases he.symm.trans h
      exact .of_keeps (Keeps.refl s)
    · cases he.symm.trans h
      refine .of_issue (.inl rfl) rfl htag fun hs hop => ?_
      have := nextGrant_grantable hgrant
      simp [StoreReq.grantable, hs, hop] at this
  | startupCapacity =>
    rcases exec_startupCapacity_cases s with he | ⟨tag, u, htag, he⟩
    · cases he.symm.trans h
      exact .of_keeps (Keeps.refl s)
    · cases he.symm.trans h
      exact .of_issue (.inr rfl) rfl htag fun _ => nofun
  | clearAttention tag ref items =>
    obtain ⟨hpend, -, hhalt, ⟨ms, hsent, hms⟩, hok⟩ := keepsNext_clearAttention tag ref items s t h
    exact ⟨hpend, hhalt, nofun,
      ⟨ms, hsent, fun _ _ => hms, fun _ m hm => isStoreWrite_of_not_isStoreRequest (hms m hm)⟩, hok⟩
  | resetNRelease =>
    obtain ⟨u, hu, hpend, hsent, hlatch, hhalt, hok⟩ := keepsNext_resetNRelease_rest s
    cases hu.symm.trans h
    exact ⟨hpend, fun hs => by rwa [State.isHalted, hhalt], fun _ => hlatch ▸ s.latched.le_refl, ⟨[], by simp [hsent], by simp, by simp⟩, hok⟩
  | powerOn straps => cases hr
  | resetNAssert => cases hr
  | _ => exact absurd rfl hp

/-! ### The resets -/

/-- The outline of a part after a reset is within the limits, whatever the queue and the messages. -/
theorem restart_ok (straps : Nat) (held : Bool) (s : State) : (s.restart straps held).outline.Ok := by
  refine ⟨nofun, List.nodup_nil, Nat.zero_le _, nofun, List.nodup_nil, Nat.zero_le _, ?_, ?_, ?_, Nat.zero_le _, Nat.zero_le _⟩ <;>
    exact List.length_replicate

/-- A reset clears the part but for the queue and the messages (R165). -/
theorem exec_reset {c : Instr} {s t : State} (hr : c.isReset = true) (h : exec c s = .next t) :
    ∃ straps held, t = s.restart straps held := by
  cases c with
  | powerOn straps => exact ⟨_, _, (Host.Outcome.next.inj h).symm⟩
  | resetNAssert => exact ⟨_, _, (Host.Outcome.next.inj h).symm⟩
  | _ => cases hr

/-! ### The statements -/

/-- Settles O1: both cases are the definition of a step. -/
theorem stepRunsTheFrontCommand : Obligations.StepRunsTheFrontCommand :=
  ⟨fun c rest s h => by rw [step, h], fun s h => by rw [step, h]⟩

/-- Settles O2: only the two DATA commands have an arm that is no next state, and it asks for a block of another length. -/
theorem onlyMalformedDataStops : Obligations.OnlyMalformedDataStops := by
  refine ⟨fun c s hwf => ?_, fun tag index b s hb => ?_⟩
  · cases c with
    | clientData tag i b =>
      have hwf : blockWf b = true := hwf
      exact ⟨_, by simp only [exec, execClientData, hwf]; rfl⟩
    | storeData tag i b =>
      have hwf : blockWf b = true := hwf
      exact ⟨_, by simp only [exec, execStoreData, hwf]; rfl⟩
    | _ => exact ⟨_, rfl⟩
  · have hwf : blockWf b = false := beq_false_of_ne hb
    exact ⟨by simp [exec, execClientData, hwf], by simp [exec, execStoreData, hwf]⟩

/-- Settles O4: the reset state is a restart. -/
theorem tableLimitsHoldAtReset : Obligations.TableLimitsHoldAtReset :=
  (capacities_iff _).mpr (restart_ok 2 false State.reset)

/-- Settles O5: a step is a command's effect, and every command keeps the limits or restarts the part. -/
theorem everyStepKeepsTheTableLimits : Obligations.EveryStepKeepsTheTableLimits := by
  intro s t hs hstep
  rw [capacities_iff] at hs ⊢
  cases hp : s.pending with
  | nil =>
    rw [step, hp] at hstep
    cases hstep
    exact hs
  | cons c rest =>
    rw [step, hp] at hstep
    have hs' : State.outline { s with pending := rest } |>.Ok := ⟨hs.1, hs.2, hs.3, hs.4, hs.5, hs.6, hs.7, hs.8, hs.9, hs.10, hs.11⟩
    by_cases hr : c.isReset = true
    · obtain ⟨straps, held, rfl⟩ := exec_reset hr hstep
      exact restart_ok straps held _
    · exact (commandKeeps_exec (Bool.eq_false_iff.mpr hr) hstep).ok hs'

/-- Settles O6. -/
theorem latchedItemsStaySet : Obligations.LatchedItemsStaySet :=
  fun _ _ _ hclear hreset h => (commandKeeps_exec hreset h).latched hclear

/-- Settles O7. -/
theorem haltedPartWritesNothing : Obligations.HaltedPartWritesNothing := by
  intro c s t hs hreset h
  have k := commandKeeps_exec hreset h
  obtain ⟨ms, hsent, -, hms⟩ := k.sent
  exact ⟨k.halted hs, ms, hsent, hms hs⟩

/-- Settles O8: a reset sends nothing, and every other command keeps. -/
theorem onlyGrantsSendStoreRequests : Obligations.OnlyGrantsSendStoreRequests := by
  intro c s t h
  by_cases hr : c.isReset = true
  · obtain ⟨straps, held, rfl⟩ := exec_reset hr h
    exact ⟨rfl, [], (List.append_nil _).symm, by simp⟩
  · have k := commandKeeps_exec (Bool.eq_false_iff.mpr hr) h
    obtain ⟨ms, hsent, hms, -⟩ := k.sent
    exact ⟨k.pending, ms, hsent, hms⟩

end Sys2Proof.Machine
end

section
/-! The pins (11.4, 11.3): what the resets leave, that a held part rests, and the attention set bit by bit; O3. -/

namespace Sys2Proof.Machine

/-! ### A part held in RESET_N -/

/-- A directive waits while RESET_N is held. -/
theorem own_of_held {s : State} (h : s.resetHeld = true) (tag : Byte) (c : Instr) (body : Option Nat → State → State) :
    s.own tag c body = s := by
  simp [State.own, h]

theorem takeCompletion_of_held {s : State} (h : s.resetHeld = true) (tag : Byte) (isUser : StoreUser → Bool)
    (act : StoreEntry → State → State) : s.takeCompletion tag isUser act = s := by
  simp [State.takeCompletion, h]

theorem clientLive_of_held {s : State} (h : s.resetHeld = true) : s.clientLive = false := by simp [State.clientLive, h]

/-- While RESET_N is held every command but the pins' leaves the state as it is (log entry 28). -/
theorem exec_of_held {c : Instr} {s : State} (h : s.resetHeld = true) (hpin : c.isPin = false) (hwf : c.wf = true) :
    exec c s = .next s := by
  have hlive := clientLive_of_held h
  cases c with
  | read | write | sync | clientCapacity | abort =>
    simp [exec, execRead, execWrite, execSync, execClientCapacity, execAbort, hlive]
  | clientData tag i b =>
    have hwf : blockWf b = true := hwf
    simp [exec, execClientData, hwf, hlive]
  | storeData tag i b =>
    have hwf : blockWf b = true := hwf
    simp [exec, execStoreData, hwf, h]
  | clientLinkDown | clientLinkUp | storeLinkDown | storeLinkUp | storeGrant | storeWatchdogExpiry | serveBlock =>
    simp [exec, execClientLinkDown, execClientLinkUp, execStoreLinkDown, execStoreLinkUp, execStoreGrant,
      execStoreWatchdogExpiry, execServeBlock, h]
  | configure | signature | report | inquire | close | resolveResume | resolveAbandon | tariffLoad | tariffSelect | calendar
  | retention | hold | release | accept | verify | revoke | clearAttention =>
    exact congrArg _ (own_of_held h _ _ _)
  | takeBlock | heldClose | idleTimerExpiry =>
    simp [exec, execTakeBlock, execHeldClose, execIdleTimerExpiry, h]
  | segmentWriteCompletion | catalogueWriteCompletion | settingsWriteCompletion | journalWriteCompletion | fetchCompletion
  | journalReadCompletion | verificationReadCompletion | startupReadCompletion | capacityCompletion =>
    exact congrArg _ (takeCompletion_of_held h _ _ _)
  | closeVerdict | closeCatalogue | reclaimBegin | queueVerificationBegin =>
    simp only [exec, execCloseVerdict, execCloseCatalogue, execReclaimBegin, execQueueVerificationBegin, h, Bool.not_true,
      Bool.and_false, Bool.false_and, Bool.false_eq_true, if_false]
    split
    · split <;> rfl
    · rfl
  | sweepExamine | startupCapacity | startEntry =>
    simp only [exec, execSweepExamine, execStartupCapacity, execStartEntry, h, Bool.not_true, Bool.and_false, Bool.false_and,
      Bool.false_eq_true, if_false]
    split <;> rfl
  | patrolTurn => simp [exec, execPatrolTurn, State.patrolReady, h]
  | powerOn | resetNAssert | resetNRelease => cases hpin

/-! ### The attention set as a number -/

/-- The number whose bits, lowest first, a list gives. -/
def bitSum : List Bool → Nat
  | [] => 0
  | b :: bs => Nat.bit b (bitSum bs)

theorem testBit_bitSum (bs : List Bool) (i : Nat) : (bitSum bs).testBit i = bs.getD i false := by
  induction bs generalizing i with
  | nil => simp [bitSum]
  | cons b bs ih =>
    cases i with
    | zero => simp [bitSum]
    | succ i => simp [bitSum, Nat.testBit_bit_succ, ih]

theorem bitSum_lt (bs : List Bool) : bitSum bs < 2 ^ bs.length := by
  induction bs with
  | nil => exact Nat.one_pos
  | cons b bs ih =>
    rw [bitSum, Nat.bit_val, List.length_cons, Nat.pow_succ]
    have := b.toNat_le
    omega

/-- Powers of two summed by position are the bits' number. -/
theorem sum_zipIdx_eq_bitSum {α : Type} (p : α → Bool) (l : List α) (n : Nat) :
    ((l.zipIdx n).map fun q => if p q.1 then 2 ^ q.2 else 0).sum = 2 ^ n * bitSum (l.map p) := by
  induction l generalizing n with
  | nil => simp [bitSum]
  | cons a l ih =>
    rw [List.zipIdx_cons, List.map_cons, List.sum_cons, ih, List.map_cons, bitSum, Nat.bit_val, Nat.pow_succ]
    cases p a <;> simp <;> ring

theorem attention_of_held {s : State} (h : s.resetHeld = true) : s.attention = 0 := by simp [State.attention, h]

theorem attention_of_released {s : State} (h : s.resetHeld = false) : s.attention = bitSum (Item.all.map s.itemSet) := by
  have := sum_zipIdx_eq_bitSum s.itemSet Item.all 0
  simpa [State.attention, h] using this

/-- Bit `i` of the attention set of a released part is set exactly when item `i` is. -/
theorem testBit_attention {s : State} (h : s.resetHeld = false) (i : Nat) :
    s.attention.testBit i = (Item.all.map s.itemSet).getD i false := by
  rw [attention_of_released h, testBit_bitSum]

theorem attention_lt {s : State} (h : s.resetHeld = false) : s.attention < 4096 := by
  rw [attention_of_released h]
  have hlt := bitSum_lt (Item.all.map s.itemSet)
  rwa [List.length_map] at hlt

/-- ATTN_N: the items of the list are the bits of the number, each with its level. -/
theorem attnAsserted_iff (s : State) :
    s.attnAsserted = true
      ↔ ∃ i, s.attention.testBit i = true ∧ s.set.work.maskLevel < [1, 3, 3, 1, 3, 2, 1, 2, 3, 2, 1, 4].getD i 0 := by
  cases h : s.resetHeld with
  | true => simp [State.attnAsserted, attention_of_held h, h]
  | false =>
    have hlevels : [1, 3, 3, 1, 3, 2, 1, 2, 3, 2, 1, 4] = Item.all.map Item.level := rfl
    simp only [State.attnAsserted, h, testBit_attention h, hlevels, Bool.not_false, Bool.true_and, List.any_eq_true,
      Bool.and_eq_true, decide_eq_true_eq, List.mem_iff_getElem?]
    constructor
    · rintro ⟨x, ⟨i, hi⟩, hset, hlevel⟩
      exact ⟨i, by simp [hi, hset], by simpa [hi] using hlevel⟩
    · rintro ⟨i, hset, hlevel⟩
      cases hi : Item.all[i]? with
      | none => simp [hi] at hset
      | some x => exact ⟨x, ⟨i, hi⟩, by simpa [hi] using hset, by simpa [hi] using hlevel⟩

/-! ### The conditions of the items -/

/-- With no FREE zone, a seal cannot be placed exactly when it would be and the FILLING zone has no room and holds something. -/
theorem sealPlaces_eq_false_iff {s : State} {c : Ctx} (hfifo : s.alloc.fifo = []) :
    s.sealPlaces c = false ↔ s.halted = none ∧ c.openCatalogue = true ∧ c.openSettings = true
      ∧ ∀ z, s.alloc.filling = some z → 4096 < z.fill + c.sealLen ∧ ¬(z.live = 0 ∧ z.list = []) := by
  have hroom : s.alloc.canPlace c.sealLen = false
      ↔ ∀ z, s.alloc.filling = some z → 4096 < z.fill + c.sealLen ∧ ¬(z.live = 0 ∧ z.list = []) := by
    cases hf : s.alloc.filling with
    | none => simp [Alloc.canPlace, hf]
    | some z => simp [Alloc.canPlace, Alloc.fits, Zone.idle, hf, hfifo]
  simp only [State.sealPlaces, State.isHalted, Ctx.opened, Bool.or_eq_false_iff, Option.isSome_eq_false_iff, Option.isNone_iff_eq_none,
    Bool.not_eq_false', Bool.and_eq_true, hroom, and_assoc]

theorem waitsForPlace_seal {s : State} {w n : Nat} :
    s.waitsForPlace (.seal w n) = true ↔ ∃ c, s.ctx w = some c ∧ s.sealPlaces c = false := by
  simp [State.waitsForPlace, Option.any_eq_true]

theorem itemSet_mapFull {s : State} :
    s.itemSet .mapFull = true ↔ s.alloc.mapFree = 0 ∧ ∃ w n, WaitItem.seal w n ∈ s.alloc.waiting := by
  simp only [State.itemSet, List.any_eq_true]
  constructor
  · rintro ⟨i, hi, hw⟩
    match i, hw with
    | .seal w n, hw => exact ⟨by simpa [State.waitsForMap] using hw, w, n, hi⟩
  · rintro ⟨hfree, w, n, hi⟩
    exact ⟨_, hi, by simp [State.waitsForMap, hfree]⟩

/-! ### The statement -/

/-- Settles O3. -/
theorem resetsClearAndSilenceThePart : Obligations.ResetsClearAndSilenceThePart := by
  refine ⟨fun _ _ => rfl, fun _ => rfl, fun s h => ?_, fun s h => ?_, fun c s h hpin hwf => exec_of_held h hpin hwf, ?_⟩
  · simp [exec, execResetNRelease, h]
  · simp [exec, execResetNRelease, h]
  intro s set free noPlace
  refine ⟨attention_of_held, fun hr => ⟨attention_lt hr, ?_⟩, attnAsserted_iff s, by simp [State.haltAsserted]⟩
  have hset (i : Nat) : set i ↔ (Item.all.map s.itemSet).getD i false = true := by
    simp only [set, testBit_attention hr]
  have hexhausted : s.itemSet .spaceExhausted = true ↔ s.alloc.fifo = [] ∧ ∃ i ∈ s.alloc.waiting, noPlace i := by
    simp only [State.itemSet, Bool.and_eq_true, List.isEmpty_iff, List.any_eq_true]
    refine and_congr_right fun hfifo => exists_congr fun i => and_congr_right fun _ => ?_
    match i with
    | .place n k => exact iff_of_true rfl trivial
    | .seal w n =>
      rw [waitsForPlace_seal]
      exact exists_congr fun c => and_congr_right fun _ => sealPlaces_eq_false_iff hfifo
  refine ⟨(hset 0).trans ?_, (hset 1).trans hexhausted, (hset 2).trans itemSet_mapFull, (hset 3).trans ?_, (hset 4).trans ?_,
    (hset 5).trans ?_, hset 6, hset 7, hset 8, hset 9, hset 10, hset 11⟩
  · simp [Item.all, State.itemSet]
  · simp only [Item.all, List.map_cons, List.getD_cons_succ, List.getD_cons_zero, State.itemSet, State.journalIsHigh,
      Bool.and_eq_true]
    exact and_congr_right fun _ => decide_eq_true_iff
  · simp [Item.all, State.itemSet, State.journalFull, State.journalFree, free]
  · simp [Item.all, State.itemSet]

end Sys2Proof.Machine
end

section
/-! The checks on a REQUEST and the routing of READ and WRITE (2.4, 2.5, 2.6, 2.9): O15, O16, O17, O18. -/

namespace Sys2Proof.Machine

/-! ### The common checks -/

theorem clientLive_of_up {s : State} (hup : s.client.up = true) (hr : s.resetHeld = false) : s.clientLive = true := by
  simp [State.clientLive, hup, hr]

theorem notServing_of_early {s : State} (h : s.haltedEarly = true) : s.notServing = some .halted := by
  simp [State.notServing, h]

theorem notServing_of_starting {s : State} (h : s.haltedEarly = false) (hs : s.startup.isSome = true) :
    s.notServing = some .busyRetry := by
  simp [State.notServing, State.starting, h, hs]

theorem notServing_of_started {s : State} (h : s.haltedEarly = false) (hs : s.startup = none) : s.notServing = none := by
  simp [State.notServing, State.starting, h, hs]

theorem badTag_iff {tag : Byte} {s : State} : s.badTag tag = true ↔ 31 < tag.toNat ∨ (s.tag tag.toNat).isSome = true := by
  simp [State.badTag]

theorem badTag_eq_false {tag : Byte} {s : State} (h31 : tag.toNat ≤ 31) (hnew : s.tag tag.toNat = none) : s.badTag tag = false := by
  simp [State.badTag, Nat.not_lt.mpr h31, hnew]

section
variable {tag : Byte} {addr : BitVec 64} {n : BitVec 16} {s : State}

/-- The first check of R24 answers a READ or WRITE. -/
theorem checkTransfer_of_notServing {st : Status} (h : s.notServing = some st) : s.checkTransfer tag addr n = some (st, none) := by
  simp [State.checkTransfer, h]

theorem checkSync_of_notServing {st : Status} (h : s.notServing = some st) : s.checkSync tag n = some (st, none) := by
  simp [State.checkSync, h]

/-- A bad tag or count. -/
theorem checkTransfer_of_bad (h : s.notServing = none) (hb : s.badTag tag = true ∨ n = 0 ∨ 256 < n.toNat) :
    s.checkTransfer tag addr n = some (.refused, some .badRequest) := by
  have : (s.badTag tag || n == 0 || decide (256 < n.toNat)) = true := by
    simpa [or_assoc] using hb
  simp only [State.checkTransfer, h, this, if_true]

theorem checkSync_of_bad (h : s.notServing = none) (hb : s.badTag tag = true ∨ n ≠ 0) :
    s.checkSync tag n = some (.refused, some .badRequest) := by
  have : (s.badTag tag || n != 0) = true := by simpa using hb
  simp only [State.checkSync, h, this, if_true]

theorem count_ne_zero (h : 1 ≤ n.toNat) : n ≠ 0 := by
  rintro rfl
  exact absurd h (by decide)

/-- A good tag and count, and then the window's end. -/
theorem checkTransfer_of_good (h : s.notServing = none) (hb : s.badTag tag = false) (h1 : 1 ≤ n.toNat) (h256 : n.toNat ≤ 256) :
    s.checkTransfer tag addr n
      = if 16777215 < addrOffset addr + n.toNat - 1 then some (.refused, some .crossesWindow) else none := by
  have hn : (n == 0) = false := beq_false_of_ne (count_ne_zero h1)
  simp only [State.checkTransfer, h, hb, hn, Nat.not_lt.mpr h256, decide_false, Bool.or_false, Bool.false_eq_true, if_false]

/-- A request that a check answers, in a part that hears the client link. -/
theorem exec_of_check {c : Instr} (hup : s.client.up = true) (hr : s.resetHeld = false) {st : Status} {r : Option Reason}
    (hc : c = .read tag addr n ∨ c = .write tag addr n) (h : s.checkTransfer tag addr n = some (st, r)) :
    exec c s = .next (s.send (.completion tag.toNat st r 0)) := by
  have hlive := clientLive_of_up hup hr
  rcases hc with rfl | rfl
  · simp [exec, execRead, hlive, h, State.turnAway]
  · simp [exec, execWrite, hlive, h, State.turnAway]

theorem exec_sync_of_check (hup : s.client.up = true) (hr : s.resetHeld = false) {st : Status} {r : Option Reason}
    (h : s.checkSync tag n = some (st, r)) : exec (.sync tag addr n) s = .next (s.send (.completion tag.toNat st r 0)) := by
  simp [exec, execSync, clientLive_of_up hup hr, h, State.turnAway]

/-- CAPACITY and unknown operations are answered by the first check, or refused. -/
theorem exec_clientCapacity (hup : s.client.up = true) (hr : s.resetHeld = false) (op : Byte) :
    exec (.clientCapacity tag op addr n) s = .next (s.send (match s.notServing with
      | some st => .completion tag.toNat st none 0
      | none => .completion tag.toNat .refused (some .badRequest) 0)) := by
  simp only [exec, execClientCapacity, clientLive_of_up hup hr]
  cases s.notServing <;> rfl

/-- Every request that the first check of R24 answers. -/
theorem exec_of_notServing (hup : s.client.up = true) (hr : s.resetHeld = false) {st : Status} (h : s.notServing = some st)
    {op : Byte} {c : Instr}
    (hc : c ∈ [.read tag addr n, .write tag addr n] ++ [.sync tag addr n, Instr.clientCapacity tag op addr n]) :
    exec c s = .next (s.send (.completion tag.toNat st none 0)) := by
  simp only [List.cons_append, List.nil_append, List.mem_cons, List.not_mem_nil, or_false] at hc
  rcases hc with rfl | rfl | rfl | rfl
  · exact exec_of_check hup hr (.inl rfl) (checkTransfer_of_notServing h)
  · exact exec_of_check hup hr (.inr rfl) (checkTransfer_of_notServing h)
  · exact exec_sync_of_check hup hr (checkSync_of_notServing h)
  · rw [exec_clientCapacity hup hr, h]

end

/-- Settles O15. -/
theorem requestChecksInOrder : Obligations.RequestChecksInOrder := by
  intro tag op addr n s hup hr refused transfers all
  have htransfers {c : Instr} (hc : c ∈ transfers) : c = .read tag addr n ∨ c = .write tag addr n := by
    simpa [transfers] using hc
  refine ⟨fun he c hc => exec_of_notServing hup hr (notServing_of_early he) hc,
    fun he hs c hc => exec_of_notServing hup hr (notServing_of_starting he hs) hc, fun he hs => ?_⟩
  have hserve := notServing_of_started he hs
  have hcapacity : refused (.clientCapacity tag op addr n) .refused (some .badRequest) := by
    simp only [refused, exec_clientCapacity hup hr, hserve]
  refine ⟨fun hbad c hc => ?badTag, hcapacity,
    fun hn => exec_sync_of_check hup hr (checkSync_of_bad hserve (.inr hn)),
    fun hn c hc => exec_of_check hup hr (htransfers hc) (checkTransfer_of_bad hserve (.inr hn)),
    fun h31 hnew h1 h256 hcross c hc => ?crosses⟩
  case badTag =>
    rcases List.mem_append.mp hc with hc | hc
    · exact exec_of_check hup hr (htransfers hc) (checkTransfer_of_bad hserve (.inl (badTag_iff.mpr hbad)))
    · simp only [List.mem_cons, List.not_mem_nil, or_false] at hc
      rcases hc with rfl | rfl
      · exact exec_sync_of_check hup hr (checkSync_of_bad hserve (.inl (badTag_iff.mpr hbad)))
      · exact hcapacity
  case crosses =>
    refine exec_of_check hup hr (htransfers hc) ?_
    rw [checkTransfer_of_good hserve (badTag_eq_false h31 hnew) h1 h256, if_pos hcross]

/-! ### Routing -/

section
variable {tag : Byte} {addr : BitVec 64} {n : BitVec 16} {s : State}

/-- A READ or WRITE that passes the checks of R24. -/
theorem checkTransfer_of_passes (h : s.TakesRequests) (h31 : tag.toNat ≤ 31) (hnew : s.tag tag.toNat = none) (h1 : 1 ≤ n.toNat)
    (h256 : n.toNat ≤ 256) (hin : addrOffset addr + n.toNat - 1 ≤ 16777215) : s.checkTransfer tag addr n = none := by
  rw [checkTransfer_of_good (notServing_of_started h.mapped h.started) (badTag_eq_false h31 hnew) h1 h256,
    if_neg (Nat.not_lt.mpr hin)]

/-- A READ that passes the checks is routed. -/
theorem exec_read_of_passes (h : s.TakesRequests) (hc : s.checkTransfer tag addr n = none) :
    exec (.read tag addr n) s = .next (s.routeRead tag (addrWindow addr) (addrOffset addr) n.toNat) := by
  simp [exec, execRead, clientLive_of_up h.up h.released, hc]

/-- A WRITE that passes the checks goes where its route sends it. -/
theorem exec_write_of_passes (h : s.TakesRequests) (hc : s.checkTransfer tag addr n = none) :
    exec (.write tag addr n) s = .next (match s.routeWrite false (addrWindow addr) (addrOffset addr) n.toNat with
      | .done st r => s.turnAway tag st r
      | .await => s.putAside tag (addrWindow addr) (addrOffset addr) n.toNat
      | .opening => s.putAside tag (addrWindow addr) (addrOffset addr) n.toNat
      | .admitted v => match s.admission v (addrOffset addr) n.toNat with
        | some (st, r) => s.turnAway tag st r
        | none => (s.addTag (awaitEntry tag (addrWindow addr) (addrOffset addr) n.toNat)).admitWrite tag.toNat v
            (addrOffset addr) n.toNat) := by
  simp only [exec, execWrite, clientLive_of_up h.up h.released, hc]
  rfl

/-- The entry of a write put aside, with its note of an opening write. -/
theorem putAside_eq (w off k : Nat) :
    s.putAside tag w off k = s.addTag
      { tag := tag.toNat, op := .write, phase := .awaitingBlock, window := w, offset := off, count := k
        opening := decide (w ≠ 4095 ∧ off = 0 ∧ s.vol w = none) } := by
  have : s.isOpening w off = decide (w ≠ 4095 ∧ off = 0 ∧ s.vol w = none) := by
    rw [Bool.eq_iff_iff]
    simp [State.isOpening, and_assoc]
  rw [State.putAside, this]
  rfl

end

section
variable {examined : Bool} {w off count : Nat} {s : State}

theorem routeWrite_of_halted (h : s.isHalted = true) : s.routeWrite examined w off count = .done .halted none := by
  simp [State.routeWrite, h]

theorem routeWrite_of_one (h : s.isHalted = false) : s.routeWrite false w off 1 = .await := by
  simp [State.routeWrite, h]

theorem routeWrite_of_journal (h : s.isHalted = false) (hn : count ≠ 1 ∨ examined = true) :
    s.routeWrite examined 4095 off count = .done .refused (some .journalReadOnly) := by
  have : (count == 1 && !examined) = false := by simpa [imp_iff_not_or] using hn
  simp [State.routeWrite, h, this]

theorem routeWrite_of_long (h : s.isHalted = false) (hw : w ≠ 4095) (hn : 64 < count) :
    s.routeWrite examined w off count = .done .refused (some .badRequest) := by
  have h1 : count ≠ 1 := by omega
  simp [State.routeWrite, h, hw, hn, h1]

/-- A write of at most 64 blocks to a volume window, past the count-1 case, goes by what the window holds. -/
theorem routeWrite_of_window (h : s.isHalted = false) (hn : count ≠ 1 ∨ examined = true) (hw : w ≠ 4095) (h64 : count ≤ 64) :
    s.routeWrite examined w off count = match s.vol w with
      | none => if off = 0 then .opening else .done .busyRetry none
      | some v => match v.state with
        | .expiring => .done .refused (some .windowBusy)
        | .opened => .admitted v
        | _ => .done .refused (some .volumeClosed) := by
  have h1 : (count == 1 && !examined) = false := by simpa [imp_iff_not_or] using hn
  simp only [State.routeWrite, h, h1, beq_false_of_ne hw, Nat.not_lt.mpr h64, beq_iff_eq, Bool.false_eq_true, if_false] <;> rfl

end

/-- Settles O16. -/
theorem readsAreRoutedByWindow : Obligations.ReadsAreRoutedByWindow := by
  intro tag addr n s h h31 hnew h1 h256 hin serving answered
  rw [exec_read_of_passes h (checkTransfer_of_passes h h31 hnew h1 h256 hin), State.routeRead]
  simp only [beq_iff_eq]
  refine congrArg _ (if_congr Iff.rfl rfl ?_)
  cases s.vol (addrWindow addr) with
  | none => rfl
  | some v =>
    have hhalt : (if s.isHalted = true then answered .halted else serving (some v.serial))
        = if s.halted = none then serving (some v.serial) else answered .halted := by
      cases hs : s.halted <;> simp [State.isHalted, hs]
    cases hst : v.state with
    | expiring => simp only [hst]; rfl
    | closed => simp only [hst]; rfl
    | opened => simp only [hst]; exact hhalt
    | suspended => simp only [hst]; exact hhalt
    | closing => simp only [hst]; exact hhalt

theorem toNat_ne_one {n : BitVec 16} (h : n ≠ 1) : n.toNat ≠ 1 := fun hn => h (BitVec.eq_of_toNat_eq hn)

/-- Settles O17: each clause is one branch of the route. -/
theorem writesAreRoutedAtTheirRequest : Obligations.WritesAreRoutedAtTheirRequest := by
  intro tag addr n s h h31 hnew h1 h256 hin aside answered
  have hpass := exec_write_of_passes h (checkTransfer_of_passes h h31 hnew h1 h256 hin)
  have haside : s.putAside tag (addrWindow addr) (addrOffset addr) n.toNat = aside := putAside_eq _ _ _
  refine ⟨fun hh => ?halted, fun hh hn => ?one, fun hh hn hw => ?journal, fun hh hw hn => ?long, fun hh hn hw h64 hv => ?free,
    fun hh hn hw h64 v hv hstate => ?taken⟩
  case halted => rw [hpass, routeWrite_of_halted hh]; rfl
  case one =>
    subst hn
    rw [hpass, show (1 : BitVec 16).toNat = 1 from rfl, routeWrite_of_one hh, ← haside]
    rfl
  case journal => rw [hpass, hw, routeWrite_of_journal hh (.inl (toNat_ne_one hn))]; rfl
  case long => rw [hpass, routeWrite_of_long hh hw hn]; rfl
  case free =>
    rw [hpass, routeWrite_of_window hh (.inl (toNat_ne_one hn)) hw h64, hv, ← haside]
    by_cases hoff : addrOffset addr = 0
    · simp [hoff]
    · simp [hoff, answered, State.turnAway]
  case taken =>
    rw [hpass, routeWrite_of_window hh (.inl (toNat_ne_one hn)) hw h64, hv]
    cases hs : v.state with
    | opened => exact absurd hs hstate
    | suspended => simp [hs, answered, State.turnAway]
    | closing => simp [hs, answered, State.turnAway]
    | closed => simp [hs, answered, State.turnAway]
    | expiring => simp [hs, answered, State.turnAway]

/-! ### The admission test -/

section
variable {v : Volume} {off count : Nat} {s : State}

/-- The offsets of a write are below the ingest point or in a slot (R27). -/
def State.offsetsTaken (v : Volume) (off count : Nat) (s : State) : Prop :=
  off < v.ingest ∨ ∃ x ∈ s.client.slots, x.serial = v.serial ∧ off ≤ x.offset ∧ x.offset < off + count

theorem offsetsTaken_iff :
    (decide (off < v.ingest) || s.client.slots.any (fun x => x.serial == v.serial && off ≤ x.offset && x.offset < off + count)) = true
      ↔ s.offsetsTaken v off count := by
  simp [State.offsetsTaken, and_assoc]

theorem admission_of_taken (h : s.offsetsTaken v off count) : s.admission v off count = some (.refused, some .appendOnly) := by
  rw [State.admission, if_pos (offsetsTaken_iff.mpr h)]

theorem admission_of_not_taken (h : ¬s.offsetsTaken v off count) (hpos : 0 < count) :
    s.admission v off count = if v.ingest + 63 < off + count - 1 ∨ 256 < s.client.slots.length + count then some (.busyRetry, none)
      else none := by
  rw [State.admission, if_neg (fun hc => h (offsetsTaken_iff.mp hc))]
  by_cases hb : v.ingest + 63 < off + count - 1
  · simp [hb]
  · by_cases hs : 256 < s.client.slots.length + count
    · have : s.freeSlots < count := by rw [State.freeSlots]; omega
      simp [hs, this]
    · have : ¬s.freeSlots < count := by rw [State.freeSlots]; omega
      simp [hb, hs, this]

end

/-- The slots of an admitted write carry its consecutive offsets. -/
theorem reserveSlots_eq (serial t off n : Nat) :
    reserveSlots serial t off n = (List.range n).map fun i => { serial, offset := off + i, tag := t } := by
  induction n generalizing off with
  | zero => rfl
  | succ n ih =>
    rw [reserveSlots, ih, List.range_succ_eq_map, List.map_cons, List.map_map]
    congr 1
    refine List.map_congr_left fun i _ => ?_
    rw [Function.comp_apply, Nat.add_assoc, Nat.add_comm 1 i]

/-- What admitting a write changes. -/
theorem admitWrite_eq (t : Nat) (v : Volume) (off n : Nat) (s : State) :
    s.admitWrite t v off n = { s with
      client := { s.client with
        tags := s.client.tags.map fun x => if x.tag = t then admitEntry v.serial s.set.work.mode x else x
        slots := s.client.slots ++ (List.range n).map fun i => { serial := v.serial, offset := off + i, tag := t } }
      ctxs := s.ctxs.map fun c => if c.window = v.window then
        { c with idle := if s.set.work.idleLimit = 0 then none else some (s.set.work.idleLimit, s.set.work.idleUnit) }
        else c
      vols := s.vols.map fun u => if u.window = v.window then { u with stalled := false } else u } := by
  simp only [State.admitWrite, reserveSlots_eq, State.loadIdle, State.modVol, State.modCtx, State.modTag, Settings.idleLoad, beq_iff_eq]

/-- The entries of other tags stay, the new one is changed. -/
theorem map_insertBy_tag {t : Nat} {e : TagEntry} {l : List TagEntry} (he : e.tag = t) (f : TagEntry → TagEntry)
    (hf : (f e).tag = e.tag) (hnew : ∀ x ∈ l, x.tag ≠ t) :
    (insertBy (·.tag) e l).map (fun x => if x.tag = t then f x else x) = insertBy (·.tag) (f e) l := by
  subst he
  have hid (l : List TagEntry) (hl : ∀ x ∈ l, x.tag ≠ e.tag) : l.map (fun x => if x.tag = e.tag then f x else x) = l :=
    (List.map_congr_left fun x hx => if_neg (hl x hx)).trans (List.map_id _)
  induction l with
  | nil => simp [insertBy]
  | cons a l ih =>
    simp only [insertBy, hf]
    split
    · rw [List.map_cons, hid (a :: l) hnew, if_pos rfl]
    · rw [List.map_cons, if_neg (hnew a (List.mem_cons_self ..)), ih fun x hx => hnew x (List.mem_cons_of_mem a hx)]

theorem tag_ne_of_tag_none {s : State} {t : Nat} (h : s.tag t = none) {x : TagEntry} (hx : x ∈ s.client.tags) : x.tag ≠ t := by
  simpa using List.find?_eq_none.mp h x hx

/-- Settles O18. -/
theorem admissionTestDecides : Obligations.AdmissionTestDecides := by
  intro tag addr n s v h halive h31 hnew h2 h64 hin hw hv hopen off taken beyond short answered
  have hhalt : s.isHalted = false := by simp [State.isHalted, halive]
  have hroute : s.routeWrite false (addrWindow addr) (addrOffset addr) n.toNat = .admitted v := by
    rw [routeWrite_of_window hhalt (.inl (by omega)) hw h64, hv]
    simp only [hopen]
  have hpass := exec_write_of_passes h (checkTransfer_of_passes h h31 hnew (by omega) (by omega) hin)
  rw [hroute] at hpass
  refine ⟨fun ht => ?_, fun ht hb => ?_, fun ht hb hs => ?_, fun ht hb hs => ?_⟩
  · rw [hpass]; simp only; rw [admission_of_taken ht]; rfl
  · rw [hpass]; simp only; rw [admission_of_not_taken ht (by omega), if_pos (.inl hb)]; rfl
  · rw [hpass]; simp only; rw [admission_of_not_taken ht (by omega), if_pos (.inr hs)]; rfl
  · rw [hpass]; simp only; rw [admission_of_not_taken ht (by omega), if_neg (not_or.mpr ⟨hb, hs⟩)]
    refine congrArg _ ((admitWrite_eq _ _ _ _ _).trans ?_)
    simp only [addTag_client, addTag_set]
    rw [map_insertBy_tag (t := tag.toNat) (e := awaitEntry tag (addrWindow addr) (addrOffset addr) n.toNat) rfl
      (admitEntry v.serial s.set.work.mode) rfl fun x hx => tag_ne_of_tag_none hnew hx]
    rfl

end Sys2Proof.Machine
end

section
/-! How a client request ends: its completion, ABORT, the client link's loss, and a directive's answer (2.1 to 2.3, 2.10, 10.2): O24, O25,
O26, O27. -/

namespace Sys2Proof.Machine

/-! ### A completion -/

/-- What a request that ends leaves of the client port. -/
theorem dropTag_client (t : Nat) (s : State) : (s.dropTag t).client = { s.client with
    tags := s.client.tags.filter fun x => x.tag ≠ t
    linkData := s.client.linkData.filter fun d => d.tag ≠ t
    slots := s.client.slots.filter fun x => ¬(x.tag = t ∧ x.data = none) } := by
  simp only [State.dropTag, disown_client, withdraw_client, ClientPort.mk.injEq, true_and, and_true]
  refine ⟨List.filter_congr fun x _ => ?_, List.filter_congr fun x _ => ?_, List.filter_congr fun x _ => ?_⟩
  · rw [bne, decide_not, Bool.beq_eq_decide_eq]
  · rw [bne, decide_not, Bool.beq_eq_decide_eq]
  · rw [Bool.eq_iff_iff]
    simp only [Bool.not_eq_true', Bool.and_eq_false_imp, beq_iff_eq, Option.isNone_eq_false_iff, decide_eq_true_eq, not_and,
      Option.isSome_iff_ne_none]

theorem dropTag_eq (t : Nat) (s : State) : s.dropTag t = { s with
    client := { s.client with
      tags := s.client.tags.filter fun x => x.tag ≠ t
      linkData := s.client.linkData.filter fun d => d.tag ≠ t
      slots := s.client.slots.filter fun x => ¬(x.tag = t ∧ x.data = none) }
    rd := (s.dropTag t).rd, port := (s.dropTag t).port, jr := (s.dropTag t).jr } := by
  rw [← dropTag_client]
  exact dropTag_only t s

/-- Settles O25. -/
theorem endedRequestsLeaveTheirBlocks : Obligations.EndedRequestsLeaveTheirBlocks := by
  intro t st r field s u
  have hclient : u.client = _ := dropTag_client t s
  refine ⟨rfl, by rw [hclient], by rw [hclient], by rw [hclient], rfl, fun x hx => ?_, ?_, rfl⟩
  · exact (tag_complete t x st r field s).trans (if_neg (by simpa using hx))
  · exact (tag_complete t t st r field s).trans (if_pos (by simp))

/-! ### ABORT -/

theorem exec_abort_of_none {tag : Byte} {s : State} (h : s.tag tag.toNat = none) : exec (.abort tag) s = .next s := by
  simp [exec, execAbort, h]

/-- ABORT of a tag that has an entry. -/
theorem exec_abort_of_entry {tag : Byte} {s : State} {e : TagEntry} (hup : s.client.up = true) (hr : s.resetHeld = false)
    (h : s.tag tag.toNat = some e) :
    exec (.abort tag) s = .next (match abortField e with
      | none => s
      | some n => s.complete tag.toNat .aborted none n) := by
  simp only [exec, execAbort, clientLive_of_up hup hr, h, tag_tag h]
  rfl

/-- Settles O24: the field of the table is `abortField`. -/
theorem abortActsByPhase : Obligations.AbortActsByPhase := by
  intro tag s hup hr
  refine ⟨fun h => exec_abort_of_none h, fun e he => ?_⟩
  intro aborted
  have hexec := exec_abort_of_entry hup hr he
  refine ⟨fun h => ?_, fun h => ?_, fun h => ?_, fun h => ?_⟩
  · rw [hexec, abortField, h]
  · rcases h with h | h <;> rw [hexec, abortField, h]
  · rcases h with h | h <;> rw [hexec, abortField, h]
  · rw [hexec, abortField, h]

/-! ### The client link -/

/-- The entries of a list end without a completion, one after the other. -/
def State.dropTags (es : List TagEntry) (s : State) : State := each (fun (e : TagEntry) => State.dropTag e.tag) es s

/-- What is left when the entries of a list have ended. -/
theorem dropTags_eq (es : List TagEntry) (s : State) : s.dropTags es = { s with
    client := { s.client with
      tags := s.client.tags.filter fun x => ¬∃ e ∈ es, e.tag = x.tag
      linkData := s.client.linkData.filter fun d => ¬∃ e ∈ es, e.tag = d.tag
      slots := s.client.slots.filter fun x => ¬(x.data = none ∧ ∃ e ∈ es, e.tag = x.tag) }
    rd := (s.dropTags es).rd, port := (s.dropTags es).port, jr := (s.dropTags es).jr } := by
  induction es generalizing s with
  | nil => simp [State.dropTags, each]
  | cons e es ih =>
    have hstep : s.dropTags (e :: es) = (s.dropTag e.tag).dropTags es := rfl
    rw [hstep, ih, dropTag_client, dropTag_eq]
    simp only [List.filter_filter, List.mem_cons, exists_eq_or_imp, State.mk.injEq, ClientPort.mk.injEq, true_and, and_true]
    refine ⟨List.filter_congr fun x _ => ?_, List.filter_congr fun x _ => ?_, List.filter_congr fun x _ => ?_⟩
    · simp [Bool.and_comm, eq_comm (a := x.tag)]
    · simp [Bool.and_comm, eq_comm (a := x.tag)]
    · rw [Bool.eq_iff_iff]
      simp only [Bool.and_eq_true, decide_eq_true_eq, eq_comm (a := x.tag)]
      grind

/-- The loss of the client link drops every entry and mutes the directives. -/
theorem exec_clientLinkDown {s : State} (h : s.resetHeld = false) :
    exec .clientLinkDown s = .next { (s.dropTags s.client.tags).muteDirectives with
      client := { (s.dropTags s.client.tags).muteDirectives.client with up := false, linkData := [] } } := by
  simp only [exec, execClientLinkDown, h, Bool.false_eq_true, if_false]
  rfl

/-- Settles O26: dropping every entry leaves no tag, and the slots that hold a block. -/
theorem clientLinkLossDropsRequests : Obligations.ClientLinkLossDropsRequests := by
  refine ⟨fun s h => ⟨_, exec_clientLinkDown h, rfl, ?_, rfl, ?_, ?_, ?_, ?_⟩, fun s h => by simp [exec, execClientLinkUp, h]⟩
  all_goals have hdrop := dropTags_eq s.client.tags s
  · refine (congrArg (fun x : State => x.client.tags) hdrop).trans (List.filter_eq_nil_iff.mpr fun x hx => ?_)
    simpa using ⟨x, hx, rfl⟩
  · exact (congrArg State.sent hdrop).trans rfl
  · exact (congrArg (fun x : State => x.client.slots) hdrop).trans rfl
  · exact (congrArg (fun x : State => x.client.dispatched.map fun (d : Dispatched) => { d with owed := false }) hdrop).trans rfl
  · simp only [State.muteDirectives, State.muteWaiters]
    rw [hdrop]

/-! ### A directive's answer -/

/-- Taking a directive up changes the record of dispatched directives at most. -/
theorem takeUp_dispatched (tag : Byte) (c : Instr) (s : State) :
    (s.takeUp tag c).2
      = { s with client := { s.client with dispatched := (s.takeUp tag c).2.client.dispatched } } := by
  unfold State.takeUp
  dsimp only
  split
  · rfl
  · split <;> rfl

/-- A directive is carried out at its owner. -/
theorem exec_directive {c : Instr} {tag : Byte} (h : c.directiveTag = some tag) (s : State) :
    ∃ body, exec c s = .next (s.own tag c body) := by
  cases c with
  | configure | signature | report | inquire | close | resolveResume | resolveAbandon | tariffLoad | tariffSelect | calendar
  | retention | hold | release | accept | verify | revoke | clearAttention =>
    cases h
    exact ⟨_, rfl⟩
  | _ => cases h

theorem length_takeOut {α : Type} [DecidableEq α] {x : α} {l : List α} (h : x ∈ l) : (takeOut x l).length + 1 = l.length := by
  induction l with
  | nil => cases h
  | cons y ys ih =>
    rw [takeOut]
    split
    · rfl
    · next hne =>
      rw [List.length_cons, List.length_cons, ih ((List.mem_cons.mp h).resolve_left fun hx => hne hx.symm)]

/-- A dispatched directive that is owed its completion is taken up with its tag. -/
theorem takeUp_of_owed {tag : Byte} {c : Instr} {s : State} (h : { owed := true, command := c } ∈ s.client.dispatched) :
    s.takeUp tag c = (some tag.toNat, { s with client := { s.client with
      dispatched := takeOut { owed := true, command := c } s.client.dispatched } }) := by
  simp [State.takeUp, h]

/-- One that is owed none is taken up without a tag. -/
theorem takeUp_of_mute {tag : Byte} {c : Instr} {s : State} (h : { owed := true, command := c } ∉ s.client.dispatched)
    (hm : { owed := false, command := c } ∈ s.client.dispatched) :
    s.takeUp tag c = (none, { s with client := { s.client with
      dispatched := takeOut { owed := false, command := c } s.client.dispatched } }) := by
  simp [State.takeUp, h, hm]

/-- A directive whose entry stands is answered by its completion. -/
theorem answer_of_directive {t : Nat} {e : TagEntry} {s : State} (h : s.tag t = some e) (hp : e.phase = .directive) (st : Status)
    (r : Option Reason) : s.answer (some t) st r = s.complete t st r 0 := by
  simp [State.answer, h, hp]

/-- Settles O27. -/
theorem directivesAreAnsweredOnce : Obligations.DirectivesAreAnsweredOnce := by
  intro c tag s o u
  refine ⟨takeUp_dispatched tag c s, fun hc hr => ⟨fun hh => ?_, fun hh hs => ?_⟩, fun st r => ⟨fun e he hp hmem => ?_, fun hno hmem => ?_⟩⟩
  · obtain ⟨body, hbody⟩ := exec_directive hc s
    rw [hbody, own_of_gate hr (directiveGate_of_halted hh)]
  · obtain ⟨body, hbody⟩ := exec_directive hc s
    rw [hbody, own_of_gate hr (directiveGate_of_starting hh hs)]
  · have htake := takeUp_of_owed (tag := tag) hmem
    have ho : o = some tag.toNat := congrArg Prod.fst htake
    have hu : u = _ := congrArg Prod.snd htake
    refine ⟨ho, ?_, ?_⟩
    · rw [ho]
      exact answer_of_directive (e := e) (by rw [hu]; exact he) hp st r
    · rw [hu]
      exact length_takeOut hmem
  · have htake := takeUp_of_mute (tag := tag) hno hmem
    have ho : o = none := congrArg Prod.fst htake
    have hu : u = _ := congrArg Prod.snd htake
    refine ⟨ho, by rw [ho]; rfl, ?_⟩
    rw [hu]
    exact length_takeOut hmem

end Sys2Proof.Machine
end

section
/-! DATA of a write and the examination of its first block (2.1, 2.5 to 2.7, 1.4, 10.1): O20, O21, O22, O23. -/

namespace Sys2Proof.Machine

/-! ### DATA goes into its slot -/

/-- A slot that waits for the block of an offset (R28). -/
def Slot.waitsFor (t serial off : Nat) (x : Slot) : Prop := x.tag = t ∧ x.serial = serial ∧ x.offset = off ∧ x.data = none

theorem awaits_iff {t serial off : Nat} {x : Slot} : x.awaits t serial off = true ↔ x.waitsFor t serial off := by
  simp [Slot.awaits, Slot.waitsFor, and_assoc]

theorem fill_eq (t serial off : Nat) (b : Block) :
    Slot.fill t serial off b
      = fun x => if x.tag = t ∧ x.serial = serial ∧ x.offset = off ∧ x.data = none then { x with data := some b } else x := by
  funext x
  exact if_congr awaits_iff rfl rfl

/-- The block is in its slot and counted. -/
def State.blockPlaced (t serial off : Nat) (b : Block) (e : TagEntry) (s : State) : State :=
  { s with client := { s.client with
      slots := s.client.slots.map fun x =>
        if x.tag = t ∧ x.serial = serial ∧ x.offset = off ∧ x.data = none then { x with data := some b } else x
      tags := s.client.tags.map fun x => if x.tag = t then { e with done := e.done + 1 } else x } }

section
variable {t index serial : Nat} {b : Block} {e : TagEntry} {s : State}

theorem placeData_of_none (h : s.tag t = none) : s.placeData t index b = s := by simp [State.placeData, h]

theorem placeData_of_other_phase (h : s.tag t = some e) (hp : e.phase ≠ .receiving) : s.placeData t index b = s := by
  rw [State.placeData, h]
  dsimp only
  split
  · next hr _ => exact absurd hr hp
  · rfl

theorem placeData_of_no_slot (h : s.tag t = some e) (hp : e.phase = .receiving) (hs : e.serial = some serial)
    (hno : ∀ x ∈ s.client.slots, ¬x.waitsFor t serial (e.offset + index)) : s.placeData t index b = s := by
  have : s.client.slots.any (Slot.awaits t serial (e.offset + index)) = false :=
    List.any_eq_false.mpr fun x hx hw => hno x hx (awaits_iff.mp hw)
  simp [State.placeData, h, hp, hs, this]

/-- DATA whose slot waits: the block is placed, and the last one completes the write's reception. -/
theorem placeData_of_slot (h : s.tag t = some e) (hp : e.phase = .receiving) (hs : e.serial = some serial)
    (hslot : ∃ x ∈ s.client.slots, x.waitsFor t serial (e.offset + index)) :
    s.placeData t index b = if e.done + 1 = e.count
      then (s.blockPlaced t serial (e.offset + index) b e).received { e with done := e.done + 1 }
      else s.blockPlaced t serial (e.offset + index) b e := by
  have : s.client.slots.any (Slot.awaits t serial (e.offset + index)) = true := by
    obtain ⟨x, hx, hw⟩ := hslot
    exact List.any_eq_true.mpr ⟨x, hx, awaits_iff.mpr hw⟩
  rw [State.placeData, h]
  dsimp only
  split
  · next n _ hn =>
    cases hs.symm.trans hn
    simp only [this, if_true, fill_eq, beq_iff_eq, State.modTag, State.blockPlaced]
  · next hno => exact absurd hs (hno _ hp)

end

/-- The reception of a POSTED write's last block completes it. -/
theorem received_of_posted {e : TagEntry} (h : e.mode ≠ some .committed) (s : State) : s.received e = s.finish e.tag .good := by
  unfold State.received
  split
  · next hc => exact absurd hc h
  · rfl

theorem received_of_committed {e : TagEntry} (h : e.mode = some .committed) (s : State) :
    s.received e = if s.lossFail = true then s.finish e.tag .unavailable
      else s.modTag e.tag fun e => { e with phase := .waitingCommit } := by
  simp only [State.received, h]

/-- DATA of a write that is not awaiting its first block. -/
theorem exec_clientData_of_placed {tag : Byte} {index : BitVec 16} {b : Block} {s : State} (hup : s.client.up = true)
    (hr : s.resetHeld = false) (hb : b.length = 4096) (h : ∀ e, s.tag tag.toNat = some e → e.phase ≠ .awaitingBlock) :
    exec (.clientData tag index b) s = .next (s.placeData tag.toNat index.toNat b) := by
  have hwf : blockWf b = true := by simp [blockWf, hb]
  simp only [exec, execClientData, hwf, clientLive_of_up hup hr, State.takeData, Bool.not_true, Bool.false_eq_true, if_false]
  cases ht : s.tag tag.toNat with
  | none => rw [placeData_of_none ht]
  | some e => simp only [beq_iff_eq, h e ht, if_false]

/-- Settles O20. -/
theorem dataFillsItsReservedSlot : Obligations.DataFillsItsReservedSlot := by
  intro tag index b s hup hr hb
  refine ⟨fun hnone => ?_, fun e serial he hp hs => ?_⟩
  · rw [exec_clientData_of_placed hup hr hb (by simp [hnone]), placeData_of_none hnone]
  intro off waits placed
  have hexec := exec_clientData_of_placed (index := index) hup hr hb (fun e' he' => by
    cases he.symm.trans he'
    simp [hp])
  refine ⟨fun hno => by rw [hexec, placeData_of_no_slot he hp hs hno], fun hslot => ?_⟩
  rw [hexec, placeData_of_slot he hp hs hslot]
  refine congrArg _ ?_
  have htag : e.tag = tag.toNat := tag_tag he
  by_cases hlast : e.done + 1 = e.count
  · rw [if_pos hlast, if_neg (not_not.mpr hlast)]
    by_cases hmode : e.mode = some .committed
    · rw [received_of_committed (e := { e with done := e.done + 1 }) hmode, if_neg (not_not.mpr hmode)]
      exact if_congr Iff.rfl (by simp only [State.finish, htag]; rfl) (by simp only [htag]; rfl)
    · rw [received_of_posted (e := { e with done := e.done + 1 }) hmode, if_pos hmode]
      simp only [State.finish, htag]
      rfl
  · rw [if_neg hlast, if_pos hlast]
    rfl

/-! ### DATA that waits on the link -/

theorem takeLinkData_of_none {t : Nat} {s : State} (h : ∀ d ∈ s.client.linkData, d.tag ≠ t) : s.takeLinkData t = s := by
  have hmine : s.client.linkData.filter (·.tag == t) = [] :=
    List.filter_eq_nil_iff.mpr fun d hd => by simpa using h d hd
  have hrest : s.client.linkData.filter (·.tag != t) = s.client.linkData :=
    List.filter_eq_self.mpr fun d hd => by simpa using h d hd
  simp only [State.takeLinkData, hmine, hrest, each]

/-- A request that has ended has no DATA on the link. -/
theorem takeLinkData_complete (t : Nat) (st : Status) (r : Option Reason) (n : Nat) (s : State) :
    (s.complete t st r n).takeLinkData t = s.complete t st r n :=
  takeLinkData_of_none fun d hd => by simpa using (List.mem_filter.mp hd).2

/-! ### A request that ends, whatever its entry holds -/

/-- A request's completion does not depend on what its own entry and its own DATA on the link were. -/
theorem complete_congr {t : Nat} {s u : State} (hclient : (u.dropTag t).client = (s.dropTag t).client)
    (hrest : u = { s with client := u.client }) (st : Status) (r : Option Reason) (n : Nat) :
    u.complete t st r n = s.complete t st r n := by
  have h (x : State) : x.complete t st r n = State.send (.completion t st r n) { x.dropTag t with client := (x.dropTag t).client } := rfl
  rw [h, h, hclient, hrest]
  rfl

theorem filter_map_key {α : Type} (key : α → Nat) (t : Nat) (f : α → α) (hf : ∀ x, key x = t → key (f x) = t) (l : List α) :
    (l.map fun x => if key x = t then f x else x).filter (fun x => key x ≠ t) = l.filter fun x => key x ≠ t := by
  induction l with
  | nil => rfl
  | cons a l ih =>
    rw [List.map_cons, List.filter_cons, List.filter_cons, ih]
    by_cases ha : key a = t
    · simp [ha, hf a ha]
    · simp [ha]

/-- A change of the entry that ends. -/
theorem complete_modTag {t : Nat} {f : TagEntry → TagEntry} (hf : ∀ x, x.tag = t → (f x).tag = t) (st : Status)
    (r : Option Reason) (n : Nat) (s : State) : (s.modTag t f).complete t st r n = s.complete t st r n := by
  refine complete_congr ?_ rfl st r n
  simp only [dropTag_client, modTag_client, beq_iff_eq]
  rw [filter_map_key (fun x : TagEntry => x.tag) t f hf]

/-! ### The examination -/

section
variable {tag : Byte} {b : Block} {e : TagEntry} {s : State}

/-- The state in which a put-aside write is examined: its block is held. -/
def State.holding (t : Nat) (b : Block) (s : State) : State := s.modTag t fun e => { e with held := some b }

theorem complete_holding (t : Nat) (b : Block) (st : Status) (r : Option Reason) (n : Nat) (s : State) :
    (s.holding t b).complete t st r n = s.complete t st r n := by
  rw [State.holding]
  refine complete_modTag ?_ st r n s
  exact fun _ hx => hx

/-- Block 0 of a put-aside write is held and examined. -/
theorem exec_clientData_of_first (hup : s.client.up = true) (hr : s.resetHeld = false) (hb : b.length = 4096)
    (he : s.tag tag.toNat = some e) (hp : e.phase = .awaitingBlock) :
    exec (.clientData tag 0 b) s = .next ((s.holding tag.toNat b).examine e b) := by
  have hwf : blockWf b = true := by simp [blockWf, hb]
  simp only [exec, execClientData, hwf, clientLive_of_up hup hr, State.takeData, he, hp]
  rfl

/-- DATA of another index waits on the link. -/
theorem exec_clientData_of_later {index : BitVec 16} (hup : s.client.up = true) (hr : s.resetHeld = false) (hb : b.length = 4096)
    (he : s.tag tag.toNat = some e) (hp : e.phase = .awaitingBlock) (hi : index ≠ 0) :
    exec (.clientData tag index b) s = .next { s with client := { s.client with
      linkData := s.client.linkData ++ [{ tag := tag.toNat, index := index.toNat, block := b }] } } := by
  have hwf : blockWf b = true := by simp [blockWf, hb]
  have hne : (index.toNat == 0) = false := beq_false_of_ne fun h => hi (BitVec.eq_of_toNat_eq h)
  simp only [exec, execClientData, hwf, clientLive_of_up hup hr, State.takeData, he, hp, hne]
  rfl

/-- A block with the directive marker of a one-block write. -/
theorem examine_of_directive (hh : s.halted = none) (hc : e.count = 1) (hm : directiveMarker b = s.set.workMarker) :
    s.examine e b = (if directiveCheckGood b then s.dispatch e.tag b else s.refuse e.tag .directiveCheck).takeLinkData e.tag := by
  simp [State.examine, State.isHalted, hh, hc, hm]

/-- Any other block is routed anew, but for an opening write whose volume another has opened. -/
theorem examine_of_data (hh : s.halted = none) (hc : e.count ≠ 1 ∨ directiveMarker b ≠ s.set.workMarker) :
    s.examine e b = if s.overtaken e b then s.refuse e.tag .duplicateVolume
      else match s.routeWrite true e.window e.offset e.count with
        | .done st r => s.complete e.tag st r 0
        | .await => s
        | .opening =>
          match s.openRefusal b e.count with
          | some (st, r) => s.complete e.tag st r 0
          | none => ((s.openVolume e.window (b.take 40)).admitWrite e.tag (s.openRecord e.window (b.take 40)) e.offset
              e.count).stageHeld e.tag b
        | .admitted v =>
          match s.admission v e.offset e.count with
          | some (st, r) => s.complete e.tag st r 0
          | none => (s.admitWrite e.tag v e.offset e.count).stageHeld e.tag b := by
  have hd : (e.count == 1 && directiveMarker b == s.set.workMarker) = false := by
    rw [Bool.and_eq_false_iff]
    exact hc.imp beq_false_of_ne beq_false_of_ne
  simp only [State.examine, State.isHalted, hh, hd]
  rfl

end

/-! ### Directive blocks at dispatch -/

theorem ofBE_lt (bs : List Byte) : ofBE bs < 256 ^ bs.length := by
  induction bs with
  | nil => simp [ofBE]
  | cons b bs ih =>
    rw [ofBE_cons, List.length_cons, Nat.pow_succ]
    have := b.isLt
    nlinarith

/-- A field of `n` bytes is below 256 ^ n. -/
theorem fld_lt (bs : List Byte) (i n : Nat) : fld bs i n < 256 ^ n :=
  (ofBE_lt _).trans_le (Nat.pow_le_pow_right (by decide) (List.length_take_le _ _))

/-- A field of a slice is a field of the whole. -/
theorem fld_slice {bs : List Byte} {i n j k : Nat} (h : j + k ≤ n) : fld (slice bs i n) j k = fld bs (i + j) k := by
  have : min k (n - j) = k := by omega
  rw [fld, fld, slice, slice, slice, List.drop_take, List.take_take, List.drop_drop, this]

theorem fld_drop (bs : List Byte) (i j k : Nat) : fld (bs.drop i) j k = fld bs (i + j) k := by
  rw [fld, fld, slice, slice, List.drop_drop]

/-- The codes of 12.2 and the lengths of their bodies, but for TARIFF_LOAD. -/
def bodyLengths : List (Nat × Nat) := [(1, 14), (2, 16), (3, 0), (4, 6), (5, 6), (6, 7), (8, 1), (9, 2), (10, 6), (11, 9), (12, 2),
  (13, 6), (14, 6), (15, 6), (16, 2)]

/-- The table of lengths, as `bodyLength` has it. -/
theorem bodyLength_of_mem {code n : Nat} (h : (code, n) ∈ bodyLengths) (body : List Byte) : bodyLength code body = some n := by
  simp only [bodyLengths, List.mem_cons, Prod.mk.injEq, List.not_mem_nil, or_false] at h
  rcases h with ⟨rfl, rfl⟩ | ⟨rfl, rfl⟩ | ⟨rfl, rfl⟩ | ⟨rfl, rfl⟩ | ⟨rfl, rfl⟩ | ⟨rfl, rfl⟩ | ⟨rfl, rfl⟩ | ⟨rfl, rfl⟩ | ⟨rfl, rfl⟩ |
    ⟨rfl, rfl⟩ | ⟨rfl, rfl⟩ | ⟨rfl, rfl⟩ | ⟨rfl, rfl⟩ | ⟨rfl, rfl⟩ | ⟨rfl, rfl⟩ <;> rfl

/-- Every code from 1 to 16 has its length in the table, or is TARIFF_LOAD's. -/
theorem code_cases : ∀ code < 17, 1 ≤ code → code = 7 ∨ ∃ p ∈ bodyLengths, code = p.1 ∧ p.2 ≤ 16 := by decide

/-- A code of 0 or above 16 (R153). -/
theorem decodeDirective_of_unknown {b : Block} (h : fld b 16 2 = 0 ∨ 16 < fld b 16 2) (tag : Byte) :
    decodeDirective tag b = .error .unknownDirective := by
  have : ∀ body, bodyLength (fld b 16 2) body = none := by
    intro body
    unfold bodyLength
    split <;> first | rfl | omega
  simp [decodeDirective, this]

/-- The entries of a TARIFF_LOAD are refused for a zero byte that is not zero, and for nothing else (R172). -/
theorem tariffEntriesOf_eq_none_iff (n : Nat) (bs : List Byte) :
    tariffEntriesOf n bs = none ↔ ∃ i < n, fld bs (1 + 8 * i) 1 ≠ 0 := by
  induction n generalizing bs with
  | zero => simp [tariffEntriesOf]
  | succ n ih =>
    rw [tariffEntriesOf]
    by_cases h0 : fld bs 1 1 = 0
    · have hshift (i : Nat) : fld (bs.drop 8) (1 + 8 * i) 1 = fld bs (1 + 8 * (i + 1)) 1 := by
        rw [fld_drop]
        congr 1
        omega
      simp only [h0, bne_self_eq_false, Bool.false_eq_true, if_false, Option.map_eq_none_iff, ih, hshift]
      constructor
      · rintro ⟨i, hi, hne⟩
        exact ⟨i + 1, by omega, hne⟩
      · rintro ⟨i, hi, hne⟩
        cases i with
        | zero => exact absurd h0 hne
        | succ i => exact ⟨i, by omega, hne⟩
    · simp only [bne_iff_ne, ne_eq, h0, not_false_eq_true, if_true, true_iff]
      exact ⟨0, by omega, h0⟩

/-- What dispatch refuses of a body whose length is right: a RESOLVE choice above 1, and a zero byte that is not zero (R172). -/
theorem directiveCommand_eq_none_iff {code : Nat} (h1 : 1 ≤ code) (h16 : code ≤ 16) (t : Byte) (ref : BitVec 32) (body : List Byte) :
    directiveCommand t ref code body = none
      ↔ (code = 6 ∧ 1 < fld body 6 1) ∨ (code = 7 ∧ ∃ i < fld body 2 1, fld body (4 + 8 * i) 1 ≠ 0) := by
  have hzero : tariffEntriesOf (fld body 2 1) (body.drop 3) = none ↔ ∃ i < fld body 2 1, fld body (4 + 8 * i) 1 ≠ 0 := by
    rw [tariffEntriesOf_eq_none_iff]
    refine exists_congr fun i => and_congr_right fun _ => ?_
    rw [fld_drop]
    exact iff_of_eq (by congr 2; omega)
  have hchoice : (match fld body 6 1 with
      | 0 => some (Instr.resolveResume t ref (bodyField 16 body 0 2) (bodyField 32 body 2 4))
      | 1 => some (Instr.resolveAbandon t ref (bodyField 16 body 0 2) (bodyField 32 body 2 4))
      | _ => none) = none ↔ 1 < fld body 6 1 := by
    rcases fld body 6 1 with _ | _ | n <;> simp
  interval_cases code <;> simp [directiveCommand, hzero]
  exact hchoice

section
variable {b : Block}

/-- The length of a body of a code in 1 to 16 is right (12.2). -/
def wellMeasured (b : Block) : Prop :=
  (∀ p ∈ bodyLengths, fld b 16 2 = p.1 → fld b 22 2 = p.2) ∧ (fld b 16 2 = 7 → fld b 22 2 = 3 + 8 * fld b 26 1)

/-- The values that dispatch looks at are out of their lists (R172). -/
def outsideLists (b : Block) : Prop :=
  (fld b 16 2 = 6 ∧ 1 < fld b 30 1) ∨ (fld b 16 2 = 7 ∧ ∃ i < fld b 26 1, fld b (28 + 8 * i) 1 ≠ 0)

/-- The wanted length stands in the block exactly when the block is well measured. -/
theorem wellMeasured_iff (h1 : 1 ≤ fld b 16 2) (h16 : fld b 16 2 ≤ 16) :
    wellMeasured b ↔ bodyLength (fld b 16 2) (slice b 24 (fld b 22 2)) = some (fld b 22 2) := by
  rcases code_cases (fld b 16 2) (by omega) h1 with h7 | ⟨p, hp, hcode, -⟩
  · have hnot : ∀ p ∈ bodyLengths, (7 : Nat) ≠ p.1 := by decide
    simp only [wellMeasured, h7, bodyLength, Option.some.injEq, true_imp_iff]
    constructor
    · rintro ⟨-, hlen⟩
      rw [fld_slice (by omega), hlen]
    · intro hlen
      refine ⟨fun p hp h => absurd h (hnot p hp), ?_⟩
      rw [← hlen, fld_slice (by omega)]
  · have hnot : ∀ p ∈ bodyLengths, p.1 ≠ 7 := by decide
    have honce : ∀ p ∈ bodyLengths, ∀ q ∈ bodyLengths, p.1 = q.1 → p.2 = q.2 := by decide
    rw [hcode, bodyLength_of_mem hp, Option.some.injEq, wellMeasured, hcode]
    constructor
    · rintro ⟨hlen, -⟩
      exact (hlen p hp rfl).symm
    · intro hlen
      exact ⟨fun q hq h => by rw [← hlen]; exact honce p hp q hq h, fun h => absurd h (hnot p hp)⟩

/-- A well-measured body lies within the block. -/
theorem wellMeasured_le (h1 : 1 ≤ fld b 16 2) (h16 : fld b 16 2 ≤ 16) (h : wellMeasured b) : fld b 22 2 ≤ 4068 := by
  rcases code_cases (fld b 16 2) (by omega) h1 with h7 | ⟨p, hp, hcode, h16⟩
  · have := fld_lt b 26 1
    have := h.2 h7
    omega
  · have := h.1 p hp hcode
    omega

/-- Dispatch of a well-measured block. -/
theorem decodeDirective_of_wellMeasured (h1 : 1 ≤ fld b 16 2) (h16 : fld b 16 2 ≤ 16) (h : wellMeasured b) (tag : Byte) :
    decodeDirective tag b = match directiveCommand tag (BitVec.ofNat 32 (fld b 18 4)) (fld b 16 2) (slice b 24 (fld b 22 2)) with
      | none => .error .badField
      | some c => .ok c := by
  simp only [decodeDirective, (wellMeasured_iff h1 h16).mp h, Nat.not_lt.mpr (wellMeasured_le h1 h16 h), bne_self_eq_false,
    decide_false, Bool.or_self, Bool.false_eq_true, if_false] <;> rfl

/-- Its values out of their lists. -/
theorem outsideLists_iff (h1 : 1 ≤ fld b 16 2) (h16 : fld b 16 2 ≤ 16) (h : wellMeasured b) (tag : Byte) (ref : BitVec 32) :
    directiveCommand tag ref (fld b 16 2) (slice b 24 (fld b 22 2)) = none ↔ outsideLists b := by
  rw [directiveCommand_eq_none_iff h1 h16]
  refine or_congr (and_congr_right fun h6 => ?_) (and_congr_right fun h7 => ?_)
  · have := h.1 (6, 7) (by decide) h6
    rw [fld_slice (by omega)]
  · have hlen := h.2 h7
    rw [fld_slice (by omega)]
    refine exists_congr fun i => and_congr_right fun hi => ?_
    have hin : i < fld b 26 1 := hi
    rw [fld_slice (by omega)]
    exact iff_of_eq (by congr 2; omega)

/-- A block that is not well measured. -/
theorem decodeDirective_of_badMeasure (h1 : 1 ≤ fld b 16 2) (h16 : fld b 16 2 ≤ 16) (h : ¬wellMeasured b) (tag : Byte) :
    decodeDirective tag b = .error .badField := by
  have hsome : ∃ want, bodyLength (fld b 16 2) (slice b 24 (fld b 22 2)) = some want := by
    rcases code_cases (fld b 16 2) (by omega) h1 with h7 | ⟨p, hp, hcode, -⟩
    · rw [h7]; exact ⟨_, rfl⟩
    · exact ⟨_, hcode ▸ bodyLength_of_mem hp _⟩
  obtain ⟨want, hwant⟩ := hsome
  exact decodeDirective_of_other_length hwant (fun hlen => h ((wellMeasured_iff h1 h16).mpr (hlen ▸ hwant))) tag

/-- A body that reaches beyond byte 4091, is of another length or holds a value out of its list. -/
theorem decodeDirective_of_bad (h1 : 1 ≤ fld b 16 2) (h16 : fld b 16 2 ≤ 16)
    (h : 4068 < fld b 22 2 ∨ ¬wellMeasured b ∨ outsideLists b) (tag : Byte) : decodeDirective tag b = .error .badField := by
  by_cases hm : wellMeasured b
  · have hle := wellMeasured_le h1 h16 hm
    have hout : outsideLists b := (h.resolve_left (by omega)).resolve_left (not_not.mpr hm)
    rw [decodeDirective_of_wellMeasured h1 h16 hm, (outsideLists_iff h1 h16 hm tag _).mpr hout]
  · exact decodeDirective_of_badMeasure h1 h16 hm tag

theorem decodeDirective_of_good (h1 : 1 ≤ fld b 16 2) (h16 : fld b 16 2 ≤ 16) (hm : wellMeasured b) (ho : ¬outsideLists b) (tag : Byte) :
    ∃ c, decodeDirective tag b = .ok c := by
  rw [decodeDirective_of_wellMeasured h1 h16 hm]
  cases hc : directiveCommand tag (BitVec.ofNat 32 (fld b 18 4)) (fld b 16 2) (slice b 24 (fld b 22 2)) with
  | none => exact absurd ((outsideLists_iff h1 h16 hm tag _).mp hc) ho
  | some c => exact ⟨c, rfl⟩

end

/-- Settles O21. -/
theorem directiveBlocksAreDispatched : Obligations.DirectiveBlocksAreDispatched := by
  intro tag b s e hup hr hh hb he hp hc hlink hm
  have htag : e.tag = tag.toNat := tag_tag he
  have hexec : exec (.clientData tag 0 b) s = .next ((if directiveCheckGood b then (s.holding tag.toNat b).dispatch tag.toNat b
      else (s.holding tag.toNat b).refuse tag.toNat .directiveCheck).takeLinkData tag.toNat) := by
    rw [exec_clientData_of_first hup hr hb he hp, examine_of_directive (s := s.holding tag.toNat b) hh hc hm, htag]
  have hrefuse (r : Reason) : ((s.holding tag.toNat b).refuse tag.toNat r).takeLinkData tag.toNat
      = s.complete tag.toNat .refused (some r) 0 := by
    rw [State.refuse, takeLinkData_complete, complete_holding]
  have herror (hgood : directiveCheckGood b = true) (r : Reason) (hd : decodeDirective tag b = .error r) :
      exec (.clientData tag 0 b) s = .next (s.complete tag.toNat .refused (some r) 0) := by
    rw [hexec, if_pos hgood, State.dispatch, BitVec.ofNat_toNat, BitVec.setWidth_eq, hd, hrefuse]
  refine ⟨fun hbad => ?_, herror, fun hgood c hd => ?_, fun hgood => ?_⟩
  · rw [hexec, if_neg (by simp [hbad]), hrefuse]
  · rw [hexec, if_pos hgood, State.dispatch, BitVec.ofNat_toNat, BitVec.setWidth_eq, hd]
    simp only
    rw [takeLinkData_of_none (by exact hlink)]
    have htags : (s.client.tags.map fun x => if x.tag = tag.toNat then { x with held := some b } else x).map
          (fun x => if x.tag = tag.toNat then { x with phase := .directive, held := none } else x)
        = s.client.tags.map fun x => if x.tag = tag.toNat then { x with phase := .directive, held := none } else x := by
      rw [List.map_map]
      refine List.map_congr_left fun x _ => ?_
      by_cases hx : x.tag = tag.toNat <;> simp [hx]
    simp only [State.holding, State.modTag, beq_iff_eq, htags]
  · intro code len lengths entries malformed outside
    have hmal : malformed ↔ ¬wellMeasured b := by
      simp only [malformed, wellMeasured, not_and_or, not_forall, exists_prop, lengths, code, len, entries]
      rfl
    exact ⟨fun hunknown => herror hgood _ (decodeDirective_of_unknown hunknown tag),
      fun h1 h16 hcase => herror hgood _ (decodeDirective_of_bad h1 h16 (hcase.imp_right (Or.imp_left hmal.mp)) tag),
      fun h1 h16 hok hin => decodeDirective_of_good h1 h16 (not_not.mp (mt hmal.mpr hok)) hin tag⟩

end Sys2Proof.Machine
end

section
/-! The opening tests and what a put-aside write does when its first block arrives (1.4, 2.5, 2.6): O22, O23. -/

namespace Sys2Proof.Machine

/-! ### The tests of an opening write -/

section
variable {b : Block} {count : Nat} {s : State}

/-- A volume has the identity of a header (R6). -/
def Volume.identity (hdr : List Byte) (v : Volume) : Prop :=
  v.source = headerSource hdr ∧ v.day = headerDay hdr ∧ v.gen = headerGen hdr

theorem duplicate_iff {hdr : List Byte} : s.duplicate hdr = true ↔ ∃ v ∈ s.vols, v.identity hdr := by
  simp [State.duplicate, Volume.identity, and_assoc]

theorem overtaken_iff {e : TagEntry} :
    s.overtaken e b = true ↔ e.opening = true ∧ validHeader (b.take 40) = true
      ∧ ∃ v, s.vol e.window = some v ∧ v.identity (b.take 40) := by
  simp [State.overtaken, Volume.identity, Option.any_eq_true, and_assoc]

theorem openRefusal_of_invalid (h : validHeader (b.take 40) = false) :
    s.openRefusal b count = some (.refused, some .notAVolume) := by
  simp [State.openRefusal, h]

theorem openRefusal_of_twin (h : validHeader (b.take 40) = true) (ht : ∃ v ∈ s.vols, v.identity (b.take 40)) :
    s.openRefusal b count = some (.refused, some .duplicateVolume) := by
  simp [State.openRefusal, h, duplicate_iff.mpr ht]

/-- A valid header of an identity that no volume has. -/
theorem openRefusal_of_fresh (h : validHeader (b.take 40) = true) (ht : ¬∃ v ∈ s.vols, v.identity (b.take 40)) :
    s.openRefusal b count = if 32 ≤ s.ctxs.length ∨ s.serialCounter = 0 then some (.refused, some .openLimit)
      else if s.journalFull = true ∨ s.freeSlots < count then some (.busyRetry, none) else none := by
  have hdup : s.duplicate (b.take 40) = false := Bool.eq_false_iff.mpr fun hd => ht (duplicate_iff.mp hd)
  by_cases hc : 32 ≤ s.ctxs.length
  · simp [State.openRefusal, h, hdup, hc]
  · by_cases hn : s.serialCounter = 0
    · simp [State.openRefusal, h, hdup, hc, hn]
    · by_cases hj : s.journalFull = true
      · simp [State.openRefusal, h, hdup, hc, hn, hj]
      · simp [State.openRefusal, h, hdup, hc, hn, hj]

end

/-! ### Examining a block that is no directive -/

section
variable {tag : Byte} {b : Block} {e : TagEntry} {s : State}

/-- What is examined of a put-aside write reads the state as it was before its block was held. -/
theorem exec_first_of_data (hup : s.client.up = true) (hr : s.resetHeld = false) (hh : s.halted = none) (hb : b.length = 4096)
    (he : s.tag tag.toNat = some e) (hp : e.phase = .awaitingBlock) (hc : e.count ≠ 1 ∨ directiveMarker b ≠ s.set.workMarker) :
    exec (.clientData tag 0 b) s = .next (if s.overtaken e b then s.complete tag.toNat .refused (some .duplicateVolume) 0
      else match s.routeWrite true e.window e.offset e.count with
        | .done st r => s.complete tag.toNat st r 0
        | .await => s.holding tag.toNat b
        | .opening =>
          match s.openRefusal b e.count with
          | some (st, r) => s.complete tag.toNat st r 0
          | none => (((s.holding tag.toNat b).openVolume e.window (b.take 40)).admitWrite tag.toNat
              (s.openRecord e.window (b.take 40)) e.offset e.count).stageHeld tag.toNat b
        | .admitted v =>
          match s.admission v e.offset e.count with
          | some (st, r) => s.complete tag.toNat st r 0
          | none => ((s.holding tag.toNat b).admitWrite tag.toNat v e.offset e.count).stageHeld tag.toNat b) := by
  rw [exec_clientData_of_first hup hr hb he hp, examine_of_data (s := s.holding tag.toNat b) hh hc, tag_tag he]
  simp only [State.refuse, complete_holding]
  rfl

theorem isHalted_eq_false (h : s.halted = none) : s.isHalted = false := by simp [State.isHalted, h]

/-- An opening write, and what its tests say. -/
theorem exec_first_of_opening (hup : s.client.up = true) (hr : s.resetHeld = false) (hh : s.halted = none) (hb : b.length = 4096)
    (he : s.tag tag.toNat = some e) (hp : e.phase = .awaitingBlock) (hoff : e.offset = 0) (h64 : e.count ≤ 64)
    (hw : e.window ≠ 4095) (hv : s.vol e.window = none) (hc : e.count ≠ 1 ∨ directiveMarker b ≠ s.set.workMarker) :
    exec (.clientData tag 0 b) s = .next (match s.openRefusal b e.count with
      | some (st, r) => s.complete tag.toNat st r 0
      | none => (((s.holding tag.toNat b).openVolume e.window (b.take 40)).admitWrite tag.toNat
          (s.openRecord e.window (b.take 40)) e.offset e.count).stageHeld tag.toNat b) := by
  have hover : s.overtaken e b = false := Bool.eq_false_iff.mpr fun h => by
    obtain ⟨-, -, v, hv', -⟩ := overtaken_iff.mp h
    rw [hv] at hv'
    cases hv'
  have hroute : s.routeWrite true e.window e.offset e.count = .opening := by
    rw [routeWrite_of_window (isHalted_eq_false hh) (.inr rfl) hw h64, hv]
    simp only [hoff, if_true]
  rw [exec_first_of_data hup hr hh hb he hp hc, hover, hroute]
  rfl

end

/-! ### A staged write -/

/-- The effects of an admitted write whose block 0 has been taken: its entry, its slots, the DATA left on the link, the idle timer and
STALLED. -/
def State.staged (t w : Nat) (slots : List Slot) (y : TagEntry) (s : State) : State := { s with
  client := { s.client with
    tags := s.client.tags.map fun x => if x.tag = t then y else x
    slots := s.client.slots ++ slots }
  ctxs := s.ctxs.map fun c => if c.window = w then
    { c with idle := if s.set.work.idleLimit = 0 then none else some (s.set.work.idleLimit, s.set.work.idleUnit) }
    else c
  vols := s.vols.map fun u => if u.window = w then { u with stalled := false } else u }

/-- The DATA of a tag leaves the link. -/
def State.dropLink (t : Nat) (s : State) : State :=
  { s with client := { s.client with linkData := s.client.linkData.filter fun d => d.tag ≠ t } }

/-- The entry of an admitted write with a number of blocks done. -/
def stagedEntry (serial : Nat) (mode : CompletionMode) (ph : Phase) (n : Nat) (e : TagEntry) : TagEntry :=
  { e with phase := ph, serial := some serial, mode := some mode, held := none, done := n }

theorem tag_map_of_tag {t : Nat} {e y : TagEntry} (l : List TagEntry) (h : l.find? (fun x => x.tag == t) = some e) (hy : y.tag = t) :
    (l.map fun x => if x.tag = t then y else x).find? (fun x => x.tag == t) = some y := by
  induction l with
  | nil => cases h
  | cons a l ih =>
    rw [List.map_cons, List.find?_cons]
    by_cases ha : a.tag = t
    · simp [ha, hy]
    · rw [List.find?_cons] at h
      rw [if_neg ha]
      simp only [beq_false_of_ne ha] at h ⊢
      exact ih h

theorem tag_staged {t w : Nat} {slots : List Slot} {y : TagEntry} {s : State} {e : TagEntry} (h : s.tag t = some e) (hy : y.tag = t) :
    (s.staged t w slots y).tag t = some y :=
  tag_map_of_tag s.client.tags h hy

theorem staged_holding (t w : Nat) (b : Block) (slots : List Slot) (y : TagEntry) (s : State) :
    (s.holding t b).staged t w slots y = s.staged t w slots y := by
  have htags : (s.client.tags.map fun x => if x.tag = t then { x with held := some b } else x).map
      (fun x => if x.tag = t then y else x) = s.client.tags.map fun x => if x.tag = t then y else x := by
    rw [List.map_map]
    refine List.map_congr_left fun x _ => ?_
    by_cases hx : x.tag = t <;> simp [hx]
  simp only [State.staged, State.holding, State.modTag, beq_iff_eq, htags]

/-- The slots of an admitted write whose block 0 is HELD. -/
def firstHeld (serial t off n : Nat) (b : Block) : List Slot :=
  { serial, offset := off, tag := t, data := some b } :: (List.range n).map fun i => { serial, offset := off + (i + 1), tag := t }

/-- A block is put into a slot that stands alone with its offset. -/
theorem map_fill_of_not_waiting {t serial off : Nat} {b : Block} {l : List Slot} (h : ∀ x ∈ l, ¬x.waitsFor t serial off) :
    (l.map fun x => if x.tag = t ∧ x.serial = serial ∧ x.offset = off ∧ x.data = none then { x with data := some b } else x) = l :=
  (List.map_congr_left fun x hx => if_neg (h x hx)).trans (List.map_id l)

/-- Block 0 of an admitted write in its slot. -/
theorem blockPlaced_admitWrite {t n : Nat} {b : Block} {v : Volume} {e : TagEntry} {s : State}
    (hno : ∀ x ∈ s.client.slots, ¬x.waitsFor t v.serial e.offset) :
    (s.admitWrite t v e.offset (n + 1)).blockPlaced t v.serial e.offset b (admitEntry v.serial s.set.work.mode e)
      = s.staged t v.window (firstHeld v.serial t e.offset n b) (stagedEntry v.serial s.set.work.mode .receiving (e.done + 1) e) := by
  have htags : (s.client.tags.map fun x => if x.tag = t then admitEntry v.serial s.set.work.mode x else x).map
        (fun x => if x.tag = t then { admitEntry v.serial s.set.work.mode e with done := e.done + 1 } else x)
      = s.client.tags.map fun x => if x.tag = t then stagedEntry v.serial s.set.work.mode .receiving (e.done + 1) e else x := by
    rw [List.map_map]
    refine List.map_congr_left fun x _ => ?_
    by_cases hx : x.tag = t
    · simp [hx, admitEntry, stagedEntry]
    · simp [hx]
  have hrest : ∀ x ∈ (List.range n).map fun i => ({ serial := v.serial, offset := e.offset + (i + 1), tag := t } : Slot),
      ¬x.waitsFor t v.serial e.offset := by
    intro x hx hw
    obtain ⟨i, -, rfl⟩ := List.mem_map.mp hx
    have := hw.2.2.1
    simp only at this
    omega
  have hslots : (s.client.slots ++ (List.range (n + 1)).map fun i => ({ serial := v.serial, offset := e.offset + i, tag := t } : Slot)).map
        (fun x => if x.tag = t ∧ x.serial = v.serial ∧ x.offset = e.offset ∧ x.data = none then { x with data := some b } else x)
      = s.client.slots ++ firstHeld v.serial t e.offset n b := by
    have hshift : ((List.range (n + 1)).map fun i => ({ serial := v.serial, offset := e.offset + i, tag := t } : Slot))
        = { serial := v.serial, offset := e.offset, tag := t }
          :: (List.range n).map fun i => { serial := v.serial, offset := e.offset + (i + 1), tag := t } := by
      rw [List.range_succ_eq_map, List.map_cons, List.map_map]
      rfl
    rw [List.map_append, map_fill_of_not_waiting hno, hshift, List.map_cons, map_fill_of_not_waiting hrest]
    simp [firstHeld]
  simp only [State.blockPlaced, admitWrite_eq, State.staged]
  rw [← hslots, ← htags]
  rfl

theorem tag_admitWrite {t off n : Nat} {v : Volume} {e : TagEntry} {s : State} (h : s.tag t = some e) :
    (s.admitWrite t v off n).tag t = some (admitEntry v.serial s.set.work.mode e) := by
  refine (tag_modTag t t (admitEntry v.serial s.set.work.mode) (fun _ => rfl) s).trans ?_
  simp [h]

/-- Block 0 of an admitted write is placed; the block of a one-block write is its last. -/
theorem placeData_admitWrite {t n : Nat} {b : Block} {v : Volume} {e : TagEntry} {s : State} (h : s.tag t = some e)
    (hno : ∀ x ∈ s.client.slots, ¬x.waitsFor t v.serial e.offset) :
    (s.admitWrite t v e.offset (n + 1)).placeData t 0 b
      = let y := stagedEntry v.serial s.set.work.mode .receiving (e.done + 1) e
        let u := s.staged t v.window (firstHeld v.serial t e.offset n b) y
        if e.done + 1 = e.count then u.received y else u := by
  have hslot : ∃ x ∈ (s.admitWrite t v e.offset (n + 1)).client.slots, x.waitsFor t v.serial (e.offset + 0) := by
    refine ⟨{ serial := v.serial, offset := e.offset + 0, tag := t }, ?_, rfl, rfl, rfl, rfl⟩
    rw [admitWrite_eq]
    exact List.mem_append_right _ (List.mem_map.mpr ⟨0, List.mem_range.mpr n.succ_pos, rfl⟩)
  have hplaced := blockPlaced_admitWrite (n := n) (b := b) hno
  refine (placeData_of_slot (tag_admitWrite h) rfl rfl hslot).trans ?_
  exact if_congr Iff.rfl (congrArg _ hplaced) hplaced

/-! ### The DATA that waits on the link -/

theorem each_of_fixed {α : Type} {f : α → State → State} {l : List α} {s : State} (h : ∀ x ∈ l, f x s = s) : each f l s = s := by
  induction l with
  | nil => rfl
  | cons a l ih =>
    rw [each, h a (List.mem_cons_self ..)]
    exact ih fun x hx => h x (List.mem_cons_of_mem a hx)

/-- DATA that waits for a write that takes none any more is discarded. -/
theorem takeLinkData_of_other_phase {t : Nat} {e : TagEntry} {s : State} (h : s.tag t = some e) (hp : e.phase ≠ .receiving) :
    s.takeLinkData t = s.dropLink t := by
  have hdrop : { s with client := { s.client with linkData := s.client.linkData.filter (·.tag != t) } } = s.dropLink t := by
    simp only [State.dropLink, ne_eq, decide_not, bne, Bool.beq_eq_decide_eq]
  rw [State.takeLinkData, hdrop]
  refine each_of_fixed fun d hd => ?_
  have ht : d.tag = t := by simpa using (List.mem_filter.mp hd).2
  rw [ht]
  exact placeData_of_other_phase (s := s.dropLink t) h hp

/-- One DATA that waits is placed. -/
theorem takeLinkData_of_one {t i : Nat} {b : Block} {s : State}
    (h : (s.client.linkData.filter fun d => d.tag = t) = [{ tag := t, index := i, block := b }]) :
    s.takeLinkData t = (s.dropLink t).placeData t i b := by
  have hmine : s.client.linkData.filter (·.tag == t) = [{ tag := t, index := i, block := b }] := by
    simpa only [Bool.beq_eq_decide_eq] using h
  rw [State.takeLinkData, hmine]
  simp only [each, State.dropLink, ne_eq, decide_not, bne, Bool.beq_eq_decide_eq]

theorem dropLink_of_none {t : Nat} {s : State} (h : ∀ d ∈ s.client.linkData, d.tag ≠ t) : s.dropLink t = s := by
  have hrest : (s.client.linkData.filter fun d => d.tag ≠ t) = s.client.linkData :=
    List.filter_eq_self.mpr fun d hd => by simpa using h d hd
  simp only [State.dropLink, hrest]

theorem complete_dropLink (t : Nat) (st : Status) (r : Option Reason) (n : Nat) (s : State) :
    (s.dropLink t).complete t st r n = s.complete t st r n := by
  refine complete_congr ?_ rfl st r n
  simp only [dropTag_client, State.dropLink, List.filter_filter, Bool.and_self]

/-- The entry of a staged write enters WAITING_COMMIT. -/
theorem modTag_staged {t w : Nat} {slots : List Slot} {y : TagEntry} (hy : y.tag = t) (f : TagEntry → TagEntry) (s : State) :
    (s.staged t w slots y).modTag t f = s.staged t w slots (f y) := by
  have htags : (s.client.tags.map fun x => if x.tag = t then y else x).map (fun x => if x.tag = t then f x else x)
      = s.client.tags.map fun x => if x.tag = t then f y else x := by
    rw [List.map_map]
    refine List.map_congr_left fun x _ => ?_
    by_cases hx : x.tag = t <;> simp [hx, hy]
  simp only [State.staged, State.modTag, beq_iff_eq, htags]

/-- A POSTED write that is staged whole. -/
theorem received_eq_complete {t : Nat} {y : TagEntry} {s : State} (hy : y.tag = t) (hm : y.mode ≠ some .committed) :
    s.received y = s.complete t .good none 0 := by
  rw [received_of_posted hm, State.finish, hy]

/-- A COMMITTED write that is staged whole. -/
theorem received_staged_of_committed {t w : Nat} {slots : List Slot} {y : TagEntry} {s : State} (hy : y.tag = t)
    (hm : y.mode = some .committed) (hloss : s.lossFail = false) :
    (s.staged t w slots y).received y = s.staged t w slots { y with phase := .waitingCommit } := by
  subst hy
  have hloss' : (s.staged y.tag w slots y).lossFail = false := hloss
  rw [received_of_committed hm, hloss', if_neg Bool.false_ne_true, modTag_staged rfl]

/-! ### The statement of O22 -/

/-- A write of an offset that no slot carries. -/
theorem not_waiting_of_not_taken {t off count i : Nat} {v : Volume} {s : State} (h : ¬s.offsetsTaken v off count) (hi : i < count) :
    ∀ x ∈ s.client.slots, ¬x.waitsFor t v.serial (off + i) := by
  rintro x hx ⟨-, hserial, hoff, -⟩
  exact h (.inr ⟨x, hx, hserial, by omega, by omega⟩)

/-- The second block of a two-block write, which waited on the link, is its last. -/
theorem placeData_second {t w : Nat} {b b' : Block} {v : Volume} {e : TagEntry} {s : State} (he : s.tag t = some e) (hc : e.count = 2)
    (hno : ∀ x ∈ s.client.slots, ¬x.waitsFor t v.serial (e.offset + 1)) (m : CompletionMode) :
    ((s.staged t w (firstHeld v.serial t e.offset 1 b) (stagedEntry v.serial m .receiving 1 e)).dropLink t).placeData t 1 b'
      = State.received (stagedEntry v.serial m .receiving 2 e)
          ((s.staged t w [{ serial := v.serial, offset := e.offset, tag := t, data := some b },
            { serial := v.serial, offset := e.offset + 1, tag := t, data := some b' }] (stagedEntry v.serial m .receiving 2 e)).dropLink t) := by
  have htag : (stagedEntry v.serial m .receiving 1 e).tag = t := (tag_tag he : e.tag = t)
  have hfound : ((s.staged t w (firstHeld v.serial t e.offset 1 b) (stagedEntry v.serial m .receiving 1 e)).dropLink t).tag t
      = some (stagedEntry v.serial m .receiving 1 e) :=
    tag_staged (w := w) (slots := firstHeld v.serial t e.offset 1 b) he htag
  have hslot : ∃ x ∈ ((s.staged t w (firstHeld v.serial t e.offset 1 b) (stagedEntry v.serial m .receiving 1 e)).dropLink t).client.slots,
      x.waitsFor t v.serial (e.offset + 1) :=
    ⟨{ serial := v.serial, offset := e.offset + 1, tag := t }, by simp [State.dropLink, State.staged, firstHeld], rfl, rfl, rfl, rfl⟩
  have htags : (s.client.tags.map fun x => if x.tag = t then stagedEntry v.serial m .receiving 1 e else x).map
        (fun x => if x.tag = t then { stagedEntry v.serial m .receiving 1 e with done := 2 } else x)
      = s.client.tags.map fun x => if x.tag = t then stagedEntry v.serial m .receiving 2 e else x := by
    rw [List.map_map]
    refine List.map_congr_left fun x _ => ?_
    by_cases hx : x.tag = t <;> simp [hx, tag_tag he, stagedEntry]
  have hslots : (s.client.slots ++ firstHeld v.serial t e.offset 1 b).map
        (fun x => if x.tag = t ∧ x.serial = v.serial ∧ x.offset = e.offset + 1 ∧ x.data = none then { x with data := some b' } else x)
      = s.client.slots ++ [{ serial := v.serial, offset := e.offset, tag := t, data := some b },
            { serial := v.serial, offset := e.offset + 1, tag := t, data := some b' }] := by
    rw [List.map_append, map_fill_of_not_waiting hno]
    simp [firstHeld]
  refine (placeData_of_slot hfound rfl rfl hslot).trans ?_
  refine (if_pos (by exact hc.symm)).trans (congrArg _ ?_)
  simp only [State.blockPlaced, State.dropLink, State.staged]
  rw [← hslots, ← htags]
  rfl

/-- What the examination of an admitted write leaves, from the state that holds its block: the first block staged, and the DATA that
waited taken. -/
theorem stageHeld_of_held {t n : Nat} {b : Block} {v : Volume} {e : TagEntry} {s : State}
    (he : s.tag t = some { e with held := some b }) (hd : e.done = 0) (hn : e.count = n + 1)
    (hno : ∀ x ∈ s.client.slots, ¬x.waitsFor t v.serial e.offset) :
    (s.admitWrite t v e.offset e.count).stageHeld t b
      = State.takeLinkData t (let y := stagedEntry v.serial s.set.work.mode .receiving 1 e
          let u := s.staged t v.window (firstHeld v.serial t e.offset n b) y
          if 1 = e.count then u.received y else u) := by
  have := placeData_admitWrite (n := n) (b := b) (v := v) he hno
  simp only [hd, ← hn] at this
  exact congrArg (State.takeLinkData t) this

theorem tag_holding {t : Nat} {b : Block} {e : TagEntry} {s : State} (he : s.tag t = some e) :
    (s.holding t b).tag t = some { e with held := some b } := by
  refine (tag_modTag t t (fun e => { e with held := some b }) (fun _ => rfl) s).trans ?_
  simp [he]

/-- Settles O22. -/
theorem openingTestsInOrder : Obligations.OpeningTestsInOrder := by
  refine ⟨fun tag b s e hup hr hh hb he hp hoff _ h64 hw hv hc => ?opening,
    fun tag index b s e hup hr hb he hp hi => exec_clientData_of_later hup hr hb he hp hi,
    fun tag b s e hup hr hh hb he hp hd h1 hc => ?others⟩
  case opening =>
    intro hdr ends twin
    have hexec := exec_first_of_opening hup hr hh hb he hp hoff h64 hw hv hc
    have hends {st : Status} {r : Option Reason} (h : s.openRefusal b e.count = some (st, r)) : ends st r := by
      simp only [ends, hexec, h]
    refine ⟨fun h => hends (openRefusal_of_invalid h), fun h ht => hends (openRefusal_of_twin h ht), fun h ht hfull => hends ?_,
      fun h ht hctx hn hj => hends ?_, fun h ht hctx hn hj hfull => hends ?_⟩
    · rw [openRefusal_of_fresh h ht, if_pos hfull]
    · rw [openRefusal_of_fresh h ht, if_neg (by omega), if_pos (.inl hj)]
    · have : s.freeSlots < e.count := by
        rw [State.freeSlots]
        omega
      rw [openRefusal_of_fresh h ht, if_neg (by omega), if_pos (.inr this)]
  case others =>
    intro hdr ends overtaken
    have hexec := exec_first_of_data hup hr hh hb he hp hc
    have hover (h : ¬overtaken) : s.overtaken e b = false := Bool.eq_false_iff.mpr fun ho => h (overtaken_iff.mp ho)
    have hhalt := isHalted_eq_false hh
    have hdone (h : ¬overtaken) {st : Status} {r : Option Reason}
        (hroute : s.routeWrite true e.window e.offset e.count = .done st r) : ends st r := by
      simp only [ends, hexec, hover h, hroute]
      rfl
    refine ⟨fun h => ?_, fun h hw => hdone h (hw ▸ routeWrite_of_journal hhalt (.inr rfl)),
      fun h hw h64 => hdone h (routeWrite_of_long hhalt hw h64), fun h hw h64 => ⟨fun hv hoff => hdone h ?_, fun v hv => ?_⟩⟩
    · simp only [ends, hexec, overtaken_iff.mpr h, if_true]
    · rw [routeWrite_of_window hhalt (.inr rfl) hw h64, hv]
      simp only [hoff, if_false]
    have hroute := routeWrite_of_window (off := e.offset) hhalt (.inr rfl) hw h64
    rw [hv] at hroute
    refine ⟨fun hs => hdone h (by rw [hroute]; simp only [hs]), fun hs => hdone h ?_, fun hs => ?opened⟩
    · rcases hs with hs | hs | hs <;> rw [hroute] <;> simp only [hs]
    case opened =>
    intro taken beyond short entry slot staged
    simp only [hs] at hroute
    have hadmit : exec (.clientData tag 0 b) s = .next (match s.admission v e.offset e.count with
        | some (st, r) => s.complete tag.toNat st r 0
        | none => ((s.holding tag.toNat b).admitWrite tag.toNat v e.offset e.count).stageHeld tag.toNat b) := by
      simp only [hexec, hover h, hroute]
      rfl
    refine ⟨fun ht => ?_, fun ht hbs => ?_, fun ht hbey hsh => ?_⟩
    · simp only [ends, hadmit, admission_of_taken ht]
    · have hbusy := admission_of_not_taken ht h1
      rw [if_pos hbs] at hbusy
      simp only [ends, hadmit, hbusy]
    have hvw : v.window = e.window := vol_window hv
    have hstaged (slots : List Slot) (y : TagEntry) :
        staged slots y = (s.staged tag.toNat v.window slots y).dropLink tag.toNat := by
      rw [hvw]
      rfl
    have hytag (ph : Phase) (n : Nat) : (entry ph n).tag = tag.toNat := (tag_tag he : e.tag = tag.toNat)
    obtain ⟨n, hn⟩ : ∃ n, e.count = n + 1 := ⟨e.count - 1, by omega⟩
    have hfirst : exec (.clientData tag 0 b) s = .next (State.takeLinkData tag.toNat
        (let u := s.staged tag.toNat v.window (firstHeld v.serial tag.toNat e.offset n b) (entry .receiving 1)
          if 1 = e.count then u.received (entry .receiving 1) else u)) := by
      have hnone := admission_of_not_taken ht h1
      rw [if_neg (not_or.mpr ⟨hbey, hsh⟩)] at hnone
      simp only [hadmit, hnone]
      refine congrArg _ ((stageHeld_of_held (tag_holding he) hd hn (not_waiting_of_not_taken (i := 0) ht (by omega))).trans ?_)
      simp only [staged_holding]
      rfl
    refine ⟨fun h2 hlink => ?many, fun hc1 hm => ?onePosted, fun hc1 hm hloss => ?oneCommitted, fun b' hc2 hlink => ?two⟩
    case many =>
      rw [hfirst, if_neg (by omega), takeLinkData_of_none (by exact hlink), hstaged, dropLink_of_none (by exact hlink)]
      simp only [hn, Nat.add_sub_cancel]
      rfl
    case onePosted =>
      obtain rfl : n = 0 := by omega
      have hmode : (entry .receiving 1).mode ≠ some .committed := by simp [entry, hm]
      rw [hfirst, if_pos hc1.symm, hstaged, complete_dropLink]
      rw [received_eq_complete (hytag .receiving 1) hmode, takeLinkData_complete]
      rfl
    case oneCommitted =>
      obtain rfl : n = 0 := by omega
      have hmode : (entry .receiving 1).mode = some .committed := by simp [entry, hm]
      rw [hfirst, if_pos hc1.symm]
      rw [received_staged_of_committed (hytag .receiving 1) hmode hloss, takeLinkData_of_other_phase (tag_staged he (hytag _ _)) (by exact nofun), hstaged]
      rfl
    case two =>
      obtain rfl : n = 1 := by omega
      have htwo : exec (.clientData tag 0 b) s = .next (((s.staged tag.toNat v.window [slot 0 (some b), slot 1 (some b')]
          (entry .receiving 2)).dropLink tag.toNat).received (entry .receiving 2)) := by
        rw [hfirst, if_neg (by omega), takeLinkData_of_one (by exact hlink)]
        exact congrArg _ (placeData_second he hc2 (not_waiting_of_not_taken ht (by omega)) _)
      refine ⟨fun hm => ?_, fun hm hloss => ?_⟩
      · have hmode : (entry .receiving 2).mode ≠ some .committed := by simp [entry, hm]
        rw [htwo, received_eq_complete (hytag .receiving 2) hmode, hstaged]
      · have hmode : (entry .receiving 2).mode = some .committed := by simp [entry, hm]
        rw [htwo, hstaged]
        exact congrArg _ (received_staged_of_committed (s := s.dropLink tag.toNat) (hytag .receiving 2) hmode hloss)

end Sys2Proof.Machine
end

section
/-! An opening write opens its volume (1.4, R8): O23. -/

namespace Sys2Proof.Machine

/-! ### What DATA leaves unchanged -/

/-- What DATA of the request of a tag, also its last, leaves as it was: everything but the client port, the reads and the journal's waiters;
the blocks that are HELD; the store requests but for the request's own journal read. -/
structure DataFrame (t : Nat) (s u : State) : Prop where
  rest : u = { s with client := u.client, sent := u.sent, rd := u.rd, port := u.port, jr := u.jr }
  buf : u.jr.buf = s.jr.buf
  queue : ∀ r ∈ s.port.queue, isJournalReadOf t r.user = false → r ∈ u.port.queue
  held : ∀ n o b, s.heldAt n o = some b → u.heldAt n o = some b

theorem DataFrame.refl (t : Nat) (s : State) : DataFrame t s s := ⟨rfl, rfl, fun _ h _ => h, fun _ _ _ => id⟩

theorem DataFrame.trans {t : Nat} {s u v : State} (h : DataFrame t s u) (k : DataFrame t u v) : DataFrame t s v := by
  refine ⟨?_, k.buf.trans h.buf, fun r hr hn => k.queue r (h.queue r hr hn) hn, fun n o b hb => k.held n o b (h.held n o b hb)⟩
  have hu := h.rest
  have hv := k.rest
  rw [hu] at hv
  exact hv

theorem DataFrame.each {α : Type} {t : Nat} {f : α → State → State} {l : List α} (h : ∀ x ∈ l, ∀ s, DataFrame t s (f x s)) (s : State) :
    DataFrame t s (each f l s) := by
  induction l generalizing s with
  | nil => exact .refl t s
  | cons a l ih =>
    exact (h a (List.mem_cons_self ..) s).trans (ih (fun x hx => h x (List.mem_cons_of_mem a hx)) _)

/-- The first slot of an offset is found also when slots before it, or after it, are gone. -/
theorem find?_filter_of_kept {α : Type} {p q : α → Bool} {l : List α} {x : α} (h : l.find? p = some x) (hq : q x = true) :
    (l.filter q).find? p = some x := by
  induction l with
  | nil => cases h
  | cons a l ih =>
    rw [List.find?_cons] at h
    by_cases hp : p a = true
    · simp only [hp, Option.some.injEq] at h
      subst h
      simp [hq, hp]
    · simp only [Bool.eq_false_iff.mpr hp] at h
      by_cases ha : q a = true
      · simp [ha, hp, ih h]
      · simp [ha, ih h]

theorem heldAt_eq_some_iff {s : State} {n o : Nat} {b : Block} :
    s.heldAt n o = some b ↔ ∃ x, s.slot n o = some x ∧ x.data = some b := by
  simp [State.heldAt, Option.bind_eq_some_iff]

theorem dataFrame_complete (t : Nat) (st : Status) (r : Option Reason) (n : Nat) (s : State) : DataFrame t s (s.complete t st r n) := by
  refine ⟨rfl, rfl, fun q hq hn => List.mem_filter.mpr ⟨hq, by simp [hn]⟩, fun n o b hb => ?_⟩
  obtain ⟨x, hx, hd⟩ := heldAt_eq_some_iff.mp hb
  exact heldAt_eq_some_iff.mpr ⟨x, find?_filter_of_kept hx (by simp [hd]), hd⟩

theorem dataFrame_modTag (t k : Nat) (f : TagEntry → TagEntry) (s : State) : DataFrame t s (s.modTag k f) :=
  ⟨rfl, rfl, fun _ h _ => h, fun _ _ _ => id⟩

theorem dataFrame_dropLink (t : Nat) (s : State) : DataFrame t s (s.dropLink t) := ⟨rfl, rfl, fun _ h _ => h, fun _ _ _ => id⟩

theorem dataFrame_received {t : Nat} {e : TagEntry} (ht : e.tag = t) (s : State) : DataFrame t s (s.received e) := by
  by_cases hm : e.mode = some .committed
  · rw [received_of_committed hm, ht]
    split
    · exact dataFrame_complete t _ _ _ s
    · exact dataFrame_modTag t t _ s
  · rw [received_eq_complete ht hm]
    exact dataFrame_complete t _ _ _ s

theorem dataFrame_blockPlaced (t serial off : Nat) (b : Block) (e : TagEntry) (s : State) :
    DataFrame t s (s.blockPlaced t serial off b e) := by
  refine ⟨rfl, rfl, fun _ h _ => h, fun n o b' hb => ?_⟩
  obtain ⟨x, hx, hd⟩ := heldAt_eq_some_iff.mp hb
  refine heldAt_eq_some_iff.mpr ⟨x, ?_, hd⟩
  simp only [State.slot, State.blockPlaced]
  rw [List.find?_map]
  have hkey : (fun x : Slot => x.serial == n && x.offset == o) ∘ (fun x : Slot =>
      if x.tag = t ∧ x.serial = serial ∧ x.offset = off ∧ x.data = none then { x with data := some b } else x)
      = fun x => x.serial == n && x.offset == o := by
    funext y
    simp only [Function.comp_apply]
    split <;> rfl
  rw [hkey]
  have hfound : s.client.slots.find? (fun x => x.serial == n && x.offset == o) = some x := hx
  rw [hfound, Option.map_some, if_neg (by simp [hd])]

theorem dataFrame_placeData (t index : Nat) (b : Block) (s : State) : DataFrame t s (s.placeData t index b) := by
  cases he : s.tag t with
  | none => rw [placeData_of_none he]; exact .refl t s
  | some e =>
    by_cases hp : e.phase = .receiving
    · cases hs : e.serial with
      | none =>
        have : s.placeData t index b = s := by simp [State.placeData, he, hs]
        rw [this]
        exact .refl t s
      | some serial =>
        by_cases hslot : ∃ x ∈ s.client.slots, x.waitsFor t serial (e.offset + index)
        · rw [placeData_of_slot he hp hs hslot]
          have hplaced := dataFrame_blockPlaced t serial (e.offset + index) b e s
          split
          · exact hplaced.trans (dataFrame_received (tag_tag he) _)
          · exact hplaced
        · rw [placeData_of_no_slot he hp hs fun x hx hw => hslot ⟨x, hx, hw⟩]
          exact .refl t s
    · rw [placeData_of_other_phase he hp]
      exact .refl t s

theorem dataFrame_takeLinkData (t : Nat) (s : State) : DataFrame t s (s.takeLinkData t) := by
  refine DataFrame.trans (u := s.dropLink t) (dataFrame_dropLink t s) ?_
  have hdrop : { s with client := { s.client with linkData := s.client.linkData.filter (·.tag != t) } } = s.dropLink t := by
    simp only [State.dropLink, ne_eq, decide_not, bne, Bool.beq_eq_decide_eq]
  rw [State.takeLinkData, hdrop]
  refine DataFrame.each (fun d hd u => ?_) _
  have ht : d.tag = t := by simpa using (List.mem_filter.mp hd).2
  rw [ht]
  exact dataFrame_placeData t d.index d.block u

/-! ### The record and the context of an open -/

/-- Calls for writes do not look at the client port. -/
theorem callCatalogue_client (w : Nat) (ws : List CatWaiter) (p : ClientPort) (s : State) :
    State.callCatalogue w ws { s with client := p } = { s.callCatalogue w ws with client := p } := by
  have hblock (n : Nat) : State.catBlock { s with client := p } n = s.catBlock n := by
    have hrec (n w : Nat) : State.catRecords { s with client := p } n w = s.catRecords n w := by
      induction n generalizing w with
      | zero => rfl
      | succ n ih => simp only [State.catRecords, ih]; rfl
    exact hrec 16 _
  simp only [State.callCatalogue, State.handCatalogue, hblock]
  split <;> rfl

theorem callSettings_client (w : SetWaiter) (p : ClientPort) (s : State) :
    State.callSettings w { s with client := p } = { s.callSettings w with client := p } := by
  unfold State.callSettings
  by_cases h : (s.set.write.isSome || s.isHalted) = true
  · rw [if_pos h]
    exact if_pos h
  · rw [if_neg h]
    exact if_neg h

theorem callCatalogue_work (w : Nat) (ws : List CatWaiter) (s : State) : (s.callCatalogue w ws).set.work = s.set.work := by
  simp only [State.callCatalogue]
  split <;> rfl

theorem callCatalogue_up (w : Nat) (ws : List CatWaiter) (s : State) : (s.callCatalogue w ws).port.up = s.port.up := by
  simp only [State.callCatalogue]
  split <;> rfl

theorem callSettings_work (w : SetWaiter) (s : State) : (s.callSettings w).set.work = s.set.work := by
  simp only [State.callSettings]
  split <;> rfl

theorem callSettings_up (w : SetWaiter) (s : State) : (s.callSettings w).port.up = s.port.up := by
  simp only [State.callSettings]
  split <;> rfl

/-- A full set of 32 numbers of contexts holds no free one (3.1). -/
theorem lowestContext_spec {s : State} (h : s.ctxs.length < 32) :
    s.lowestContext < 32 ∧ (∀ c ∈ s.ctxs, c.num ≠ s.lowestContext) ∧ ∀ m, m < s.lowestContext → ∃ c ∈ s.ctxs, c.num = m := by
  cases hf : (List.range 32).find? fun n => s.ctxs.all (·.num != n) with
  | none =>
    rw [List.find?_eq_none] at hf
    have hsub : List.range 32 ⊆ s.ctxs.map (·.num) := fun n hn => by simpa using hf n hn
    have := (List.nodup_range.subperm hsub).length_le
    simp only [List.length_range, List.length_map] at this
    omega
  | some n =>
    have hn : s.lowestContext = n := by simp [State.lowestContext, hf]
    rw [hn]
    rw [List.find?_range_eq_some] at hf
    obtain ⟨hfree, hlt, hbelow⟩ := hf
    refine ⟨List.mem_range.mp hlt, by simpa using hfree, fun m hm => by simpa using hbelow m hm⟩

/-- The record and the context of the volume that an open gives a window (R8 steps 1 and 2). -/
def State.openedAs (w : Nat) (hdr : List Byte) (s : State) : State := { s with
  vols := insertBy (·.window) (s.openRecord w hdr) s.vols
  ctxs := s.ctxs ++ [{ freshContext s.lowestContext w s.serialCounter s.tariff.active with
    idle := s.set.work.idleLoad, openCatalogue := false, openSettings := false }]
  serialCounter := nextSerial s.serialCounter }

theorem openVolume_eq (w : Nat) (hdr : List Byte) (s : State) :
    s.openVolume w hdr
      = State.callSettings (.opening s.serialCounter) (State.callCatalogue w [.opening s.serialCounter] (s.openedAs w hdr)) := rfl

/-- The calls of an open change the writes and the store port alone. -/
theorem openVolume_only (w : Nat) (hdr : List Byte) (s : State) :
    s.openVolume w hdr = { s.openedAs w hdr with set := (s.openVolume w hdr).set, port := (s.openVolume w hdr).port } := by
  rw [openVolume_eq, callSettings_only]
  have := callCatalogue_only w [.opening s.serialCounter] (s.openedAs w hdr)
  simp only at this
  rw [this]

theorem openVolume_holding (w t : Nat) (b : Block) (hdr : List Byte) (s : State) :
    (s.holding t b).openVolume w hdr = { s.openVolume w hdr with client := (s.holding t b).client } := by
  have h : (s.holding t b).openedAs w hdr = { s.openedAs w hdr with client := (s.holding t b).client } := rfl
  rw [openVolume_eq, h, callCatalogue_client, callSettings_client]
  rfl

theorem openVolume_work (w : Nat) (hdr : List Byte) (s : State) : (s.openVolume w hdr).set.work = s.set.work := by
  rw [openVolume_eq, callSettings_work, callCatalogue_work]
  rfl

theorem openVolume_lossFail (w : Nat) (hdr : List Byte) (s : State) : (s.openVolume w hdr).lossFail = s.lossFail := by
  have hup : (s.openVolume w hdr).port.up = s.port.up := by
    rw [openVolume_eq, callSettings_up, callCatalogue_up]
    rfl
  rw [State.lossFail, State.lossFail, openVolume_work, hup]

/-- The volume table after an open, which clears no mark of another volume. -/
theorem staged_openVolume_vols (t : Nat) (slots : List Slot) (y : TagEntry) {w : Nat} {hdr : List Byte} {s : State} (hv : s.vol w = none) :
    ((s.openVolume w hdr).staged t w slots y).vols = insertBy (·.window) (s.openRecord w hdr) s.vols := by
  have hvols : (s.openVolume w hdr).vols = insertBy (·.window) (s.openRecord w hdr) s.vols :=
    congrArg State.vols (openVolume_only w hdr s)
  have hfix : ∀ u ∈ insertBy (·.window) (s.openRecord w hdr) s.vols,
      (if u.window = w then { u with stalled := false } else u) = u := by
    intro u hu
    rcases List.mem_cons.mp ((perm_insertBy _ _ _).subset hu) with rfl | hu
    · exact if_pos rfl
    · exact if_neg (by simpa using List.find?_eq_none.mp hv u hu)
  rw [State.staged, hvols]
  exact (List.map_congr_left hfix).trans (List.map_id _)

/-- The contexts after an open: those that were there, and the fresh one with its idle timer loaded. -/
theorem staged_openVolume_ctxs (t : Nat) (slots : List Slot) (y : TagEntry) {w : Nat} {hdr : List Byte} {s : State} (hc : s.ctx w = none) :
    ((s.openVolume w hdr).staged t w slots y).ctxs = (s.openedAs w hdr).ctxs := by
  have hctxs : (s.openVolume w hdr).ctxs = (s.openedAs w hdr).ctxs := (congrArg State.ctxs (openVolume_only w hdr s)).trans rfl
  have hfix : ∀ c ∈ (s.openedAs w hdr).ctxs, (if c.window = w then
      { c with idle := if s.set.work.idleLimit = 0 then none else some (s.set.work.idleLimit, s.set.work.idleUnit) } else c) = c := by
    intro c hmem
    rcases List.mem_append.mp hmem with hold | hnew
    · exact if_neg (by simpa using List.find?_eq_none.mp hc c hold)
    · rw [List.mem_singleton.mp hnew]
      simp only [freshContext, Settings.idleLoad, beq_iff_eq, if_true]
  rw [State.staged, hctxs, openVolume_work]
  exact (List.map_congr_left hfix).trans (List.map_id _)

/-- Block 0 of an opening write is HELD at offset 0. -/
theorem heldAt_staged_first {t w n m : Nat} {b : Block} {y : TagEntry} {s : State} (h : ∀ x ∈ s.client.slots, x.serial ≠ n) :
    (s.staged t w (firstHeld n t 0 m b) y).heldAt n 0 = some b := by
  have hnone : s.client.slots.find? (fun x => x.serial == n && x.offset == 0) = none :=
    List.find?_eq_none.mpr fun x hx => by simp [h x hx]
  refine heldAt_eq_some_iff.mpr ⟨{ serial := n, offset := 0, tag := t, data := some b }, ?_, rfl⟩
  simp [State.slot, State.staged, firstHeld, List.find?_append, hnone]

/-- Settles O23. -/
theorem openingWriteOpensItsVolume : Obligations.OpeningWriteOpensItsVolume := by
  intro tag b s e hup hr hh hb he hp hoff h1 h64 hw hv hc hdr hvalid htwin hctx hserial hj hfree hctxw hslots hd
    n days record fresh opened called entry
  obtain ⟨m, hm⟩ : ∃ m, e.count = m + 1 := ⟨e.count - 1, by omega⟩
  have hrefusal : s.openRefusal b e.count = none := by
    have : ¬s.freeSlots < e.count := by
      rw [State.freeSlots]
      omega
    rw [openRefusal_of_fresh hvalid (fun ⟨v, hv, hid⟩ => htwin v hv hid), if_neg (by omega), if_neg (by simp [hj, this])]
  have htag : e.tag = tag.toNat := tag_tag he
  have hopened : opened s.lowestContext = s.openedAs e.window hdr := by
    simp only [opened, fresh, record, State.openedAs, State.openRecord, expiryOf, nextSerial, Settings.idleLoad, beq_iff_eq]
    rfl
  have hcalled : called s.lowestContext = s.openVolume e.window hdr := by
    rw [openVolume_eq, ← hopened]
  -- the state in which block 0 has been staged
  let mid : State := State.staged tag.toNat e.window (firstHeld n tag.toNat e.offset m b) (entry .receiving)
    { s.openVolume e.window hdr with client := (s.holding tag.toNat b).client }
  have hmid : mid = { (s.openVolume e.window hdr).staged tag.toNat e.window (firstHeld n tag.toNat e.offset m b) (entry .receiving) with
      client := mid.client } := rfl
  have hexec : exec (.clientData tag 0 b) s = .next (State.takeLinkData tag.toNat
      (if 1 = e.count then mid.received (entry .receiving) else mid)) := by
    have hopen : ((s.holding tag.toNat b).openVolume e.window hdr).tag tag.toNat = some { e with held := some b } := by
      rw [openVolume_holding]
      exact tag_holding he
    have hstage := stageHeld_of_held (v := s.openRecord e.window hdr) hopen hd hm fun x hx hwait => by
      rw [openVolume_holding] at hx
      exact hslots x hx hwait.2.1
    have hwork : ((s.holding tag.toNat b).openVolume e.window hdr).set.work = s.set.work := by
      rw [openVolume_holding]
      exact openVolume_work _ _ s
    rw [hwork, openVolume_holding] at hstage
    rw [exec_first_of_opening hup hr hh hb he hp hoff h64 hw hv hc, hrefusal, openVolume_holding]
    exact congrArg _ hstage
  have hreceived : DataFrame tag.toNat mid (if 1 = e.count then mid.received (entry .receiving) else mid) := by
    split
    · exact dataFrame_received (e := entry .receiving) htag mid
    · exact .refl _ _
  have hframe := hreceived.trans (dataFrame_takeLinkData tag.toNat _)
  have hsent : mid.sent = s.sent := (congrArg State.sent (openVolume_only e.window hdr s)).trans rfl
  have hloss : mid.lossFail = s.lossFail := openVolume_lossFail e.window hdr s
  have htagmid (ph : Phase) : (State.staged tag.toNat e.window (firstHeld n tag.toNat e.offset m b) (entry ph)
      { s.openVolume e.window hdr with client := (s.holding tag.toNat b).client }).tag tag.toNat = some (entry ph) := by
    refine tag_staged (e := { e with held := some b }) ?_ (by exact htag)
    exact tag_holding he
  have hvols : mid.vols = insertBy (·.window) record s.vols := (staged_openVolume_vols tag.toNat (firstHeld n tag.toNat e.offset m b) (entry .receiving) hv).trans (congrArg State.vols hopened).symm
  obtain ⟨hnum, hnew, hlow⟩ := lowestContext_spec hctx
  refine ⟨_, s.lowestContext, hexec, hnum, hnew, hlow, ?vol, ?otherVols, ?serial, ?ctxs, ?held, ?set, ?queue, ?quiet, ?pend, ?alloc,
    ?buf, ?ret, ?audit, ?tariff⟩
  case vol =>
    rw [hframe.rest]
    simp only [State.vol, hvols]
    exact vol_addVol_self record s hv
  case otherVols =>
    intro w hne
    rw [hframe.rest]
    simp only [State.vol, hvols]
    exact vol_addVol record w s hne.symm
  case serial =>
    rw [hframe.rest]
    exact (congrArg State.serialCounter (openVolume_only e.window hdr s)).trans (congrArg State.serialCounter hopened).symm
  case ctxs =>
    rw [hframe.rest]
    exact (staged_openVolume_ctxs tag.toNat (firstHeld n tag.toNat e.offset m b) (entry .receiving) hctxw).trans (congrArg State.ctxs hopened).symm
  case held => 
    refine hframe.held n 0 b ?_
    simp only [mid, hoff]
    exact heldAt_staged_first hslots
  case set =>
    rw [hframe.rest, hcalled]
    rfl
  case queue =>
    rw [hcalled]
    exact fun r hr hn => hframe.queue r hr hn
  case quiet =>
    intro hlink
    refine ⟨fun h2 => ?_, fun hc1 hmode => ?_, fun hc1 hmode hloss' => ?_⟩
    · rw [if_neg (by omega), takeLinkData_of_none (by exact hlink), hm]
      exact ⟨htagmid .receiving, hsent, by simp [mid, State.staged, firstHeld, State.holding, hoff]⟩
    · have hposted : (entry .receiving).mode ≠ some .committed := by simp [entry, hmode]
      rw [if_pos hc1.symm, received_eq_complete (y := entry .receiving) htag hposted, takeLinkData_complete]
      exact ⟨(tag_complete _ _ _ _ _ _).trans (by simp), congrArg (· ++ [Msg.completion tag.toNat .good none 0]) hsent⟩
    · have hcommitted : (entry .receiving).mode = some .committed := by simp [entry, hmode]
      have hmod : mid.received (entry .receiving) = State.staged tag.toNat e.window (firstHeld n tag.toNat e.offset m b)
          (entry .waitingCommit) { s.openVolume e.window hdr with client := (s.holding tag.toNat b).client } :=
        received_staged_of_committed (y := entry .receiving) htag hcommitted (hloss.trans hloss')
      rw [if_pos hc1.symm, hmod, takeLinkData_of_none (by exact hlink)]
      exact ⟨htagmid .waitingCommit, hsent⟩
  all_goals rw [hframe.rest]
  case pend => exact (congrArg State.pend (openVolume_only e.window hdr s)).trans rfl
  case alloc => exact (congrArg State.alloc (openVolume_only e.window hdr s)).trans rfl
  case buf => exact hframe.buf.trans ((congrArg (fun u : State => u.jr.buf) (openVolume_only e.window hdr s)).trans rfl)
  case ret => exact (congrArg State.ret (openVolume_only e.window hdr s)).trans rfl
  case audit => exact (congrArg State.audit (openVolume_only e.window hdr s)).trans rfl
  case tariff => exact (congrArg State.tariff (openVolume_only e.window hdr s)).trans rfl

end Sys2Proof.Machine
end

section
/-! The directives of the configuration, tariff, retention and audit units: which case of its rule a directive meets, what it does when
it is taken, and the statements O28, O29, O31 and O33 to O39. -/

namespace Sys2Proof.Machine

/-! ### What taking a directive up leaves -/

section
variable (tag : Byte) (c : Instr) (s : State)

@[simp] theorem takeUp_ret : (s.takeUp tag c).2.ret = s.ret := (congrArg State.ret (takeUp_only tag c s)).trans rfl
@[simp] theorem takeUp_set : (s.takeUp tag c).2.set = s.set := (congrArg State.set (takeUp_only tag c s)).trans rfl
@[simp] theorem takeUp_tariff : (s.takeUp tag c).2.tariff = s.tariff := (congrArg State.tariff (takeUp_only tag c s)).trans rfl
@[simp] theorem takeUp_audit : (s.takeUp tag c).2.audit = s.audit := (congrArg State.audit (takeUp_only tag c s)).trans rfl
@[simp] theorem takeUp_jr : (s.takeUp tag c).2.jr = s.jr := (congrArg State.jr (takeUp_only tag c s)).trans rfl
@[simp] theorem takeUp_port : (s.takeUp tag c).2.port = s.port := (congrArg State.port (takeUp_only tag c s)).trans rfl
@[simp] theorem takeUp_alloc : (s.takeUp tag c).2.alloc = s.alloc := (congrArg State.alloc (takeUp_only tag c s)).trans rfl

@[simp] theorem takeUp_journalFull : (s.takeUp tag c).2.journalFull = s.journalFull := by
  rw [takeUp_only]; rfl

@[simp] theorem takeUp_lossFail : (s.takeUp tag c).2.lossFail = s.lossFail := by
  rw [takeUp_only]; rfl

@[simp] theorem takeUp_bankInUse (b : Nat) : (s.takeUp tag c).2.bankInUse b = s.bankInUse b := by
  rw [takeUp_only]; rfl

@[simp] theorem takeUp_returnable (v : Volume) : (s.takeUp tag c).2.returnable v = s.returnable v := by
  rw [takeUp_only]; rfl

@[simp] theorem takeUp_tooLate (v : Volume) : (s.takeUp tag c).2.tooLate v = s.tooLate v := by
  rw [takeUp_only]; rfl

theorem takeUp_hasRoom {s : State} (h : s.HasRoom) (tag : Byte) (c : Instr) : (s.takeUp tag c).2.HasRoom :=
  ⟨(takeUp_journalFull tag c s).trans h.journal, (takeUp_lossFail tag c s).trans h.store⟩

end

/-! ### The last two cases of a directive with a settings write -/

section
variable {o : Option Nat} {s : State} (taken : State → State)

theorem ifJournal_of_full (h : s.journalFull = true) : s.ifJournal o taken = s.answer o .refused (some .journalFull) := by
  simp [State.ifJournal, State.deny, h]

theorem ifJournal_of_free (h : s.journalFull = false) : s.ifJournal o taken = taken s := by
  simp [State.ifJournal, h]

theorem ifStore_of_down (h : s.lossFail = true) : s.ifStore o taken = s.answer o .unavailable none := by
  simp [State.ifStore, h]

theorem ifStore_of_up (h : s.lossFail = false) : s.ifStore o taken = taken s := by
  simp [State.ifStore, h]

theorem ifJournal_ifStore_of_down (hj : s.journalFull = false) (hl : s.lossFail = true) :
    (s.ifJournal o fun s => s.ifStore o taken) = s.answer o .unavailable none :=
  (ifJournal_of_free _ hj).trans (ifStore_of_down taken hl)

theorem ifJournal_ifStore_of_room (h : s.HasRoom) : (s.ifJournal o fun s => s.ifStore o taken) = taken s :=
  (ifJournal_of_free _ h.journal).trans (ifStore_of_up taken h.store)

end

/-! ### CONFIGURE -/

/-- The values that CONFIGURE takes (R172). -/
theorem configureValid_iff {b : ConfigureBody} :
    configureValid b = true ↔ b.mask.toNat < 2048 ∧ (b.mask.getLsbD 0 = true → b.mode.toNat ≤ 1)
      ∧ (b.mask.getLsbD 1 = true → b.policy.toNat ≤ 3) ∧ (b.mask.getLsbD 3 = true → b.idleUnit.toNat ≤ 1)
      ∧ (b.mask.getLsbD 5 = true → b.linkLoss.toNat ≤ 1)
      ∧ (b.mask.getLsbD 6 = true → 1 ≤ b.spaceLow.toNat ∧ b.spaceLow.toNat ≤ 1024)
      ∧ (b.mask.getLsbD 7 = true → 1 ≤ b.journalHigh.toNat) ∧ (b.mask.getLsbD 8 = true → b.maskLevel.toNat ≤ 3)
      ∧ (b.mask.getLsbD 10 = true → b.readAhead.toNat ≤ 1) := by
  simp only [configureValid, settingPresent, Bool.and_eq_true, Bool.or_eq_true, Bool.not_eq_true', decide_eq_true_eq,
    ← Bool.not_eq_true, ← imp_iff_not_or, and_assoc]

/-- An entry appended for nobody leaves the settings. -/
theorem append_set {a : Append} (h : a.who = .nobody) (s : State) : (s.append a).set = s.set :=
  (congrArg State.set (append_nobody h s)).trans rfl

theorem callSettings_image (w : SetWaiter) (s : State) : (s.callSettings w).set.image = s.set.image := by
  simp only [State.callSettings]
  split <;> rfl

theorem configureTaken_work (ref : BitVec 32) (b : ConfigureBody) (o : Option Nat) (s : State) :
    (s.configureTaken ref b o).set.work = s.set.work :=
  (congrArg SettingsUnit.work (append_set rfl _)).trans (callSettings_work _ _)

theorem configureTaken_image (ref : BitVec 32) (b : ConfigureBody) (o : Option Nat) (s : State) :
    (s.configureTaken ref b o).set.image = applyConfigure b s.set.image :=
  (congrArg SettingsUnit.image (append_set rfl _)).trans (callSettings_image _ _)

/-- The policy codes 0 to 2 stand for their policies, every other for BY_CLASS (R172). -/
theorem policyOf_toNat (p : Byte) :
    policyOf p.toNat = if p = 0 then .abandon else if p = 1 then .resume else if p = 2 then .preserve else .byClass := by
  unfold policyOf
  split
  next h => simp [BitVec.eq_of_toNat_eq (x := p) (y := 0) h]
  next h => simp [BitVec.eq_of_toNat_eq (x := p) (y := 1) h]
  next h => simp [BitVec.eq_of_toNat_eq (x := p) (y := 2) h]
  next h0 h1 h2 =>
    rw [if_neg (by rintro rfl; exact h0 rfl), if_neg (by rintro rfl; exact h1 rfl), if_neg (by rintro rfl; exact h2 rfl)]

/-- Settles O28: the cases of R154, and each field of the image after a CONFIGURE that is taken. -/
theorem configureGoesToTheImage : Obligations.ConfigureGoesToTheImage := by
  intro tag ref b s ht c o u has inRange
  have hexec : exec c s = .next (if !configureValid b then u.deny o .badField
      else u.ifJournal o fun s => s.ifStore o (State.configureTaken ref b o)) := congrArg _ (own_of_takes ht _ _ _)
  have hin : inRange → exec c s = .next (u.ifJournal o fun s => s.ifStore o (State.configureTaken ref b o)) := fun h => by
    rw [hexec, configureValid_iff.mpr h]; rfl
  refine ⟨fun h => ?_, fun h hj => ?_, fun h hj hl => ?_, fun h hroom => ?_⟩
  · rw [hexec, Bool.eq_false_iff.mpr (mt configureValid_iff.mp h)]; rfl
  · rw [hin h, ifJournal_of_full _ ((takeUp_journalFull ..).trans hj)]
  · rw [hin h, ifJournal_ifStore_of_down _ ((takeUp_journalFull ..).trans hj) ((takeUp_lossFail ..).trans hl)]
  · have himage : (u.configureTaken ref b o).set.image = applyConfigure b s.set.image := by
      rw [configureTaken_image, takeUp_set]
    refine ⟨u.configureTaken ref b o, ?_, ?_, ?_, ?_⟩
    · rw [hin h, ifJournal_ifStore_of_room _ (takeUp_hasRoom hroom tag c)]
    · rw [himage, ← takeUp_set tag c s]; rfl
    · rw [configureTaken_work, takeUp_set]
    · rw [himage]
      have hzero (x : Byte) : x.toNat = 0 ↔ x = 0 := by rw [BitVec.toNat_eq]; rfl
      have hone (x : Byte) : (x.toNat == 1) = (x == 1) := by simp [Bool.beq_eq_decide_eq, BitVec.toNat_eq]
      simp only [applyConfigure, settingPresent, policyOf_toNat, beq_iff_eq, hzero, hone, true_and, and_true]
      exact ⟨rfl, rfl, rfl, rfl, rfl, rfl⟩

/-! ### SIGNATURE, TARIFF_LOAD and TARIFF_SELECT -/

theorem bankInUse_iff {b : Nat} {s : State} : s.bankInUse b = true ↔ s.tariff.active = b
    ∨ ∃ v ∈ s.vols, v.bank = b ∧ (v.state = .opened ∨ v.state = .suspended ∨ v.state = .closing) := by
  simp [State.bankInUse, or_assoc]

/-- The runs that TARIFF_LOAD takes (R49). -/
theorem tariffLoadValid_iff {bank first : Byte} {es : List TariffEntry} :
    tariffLoadValid bank first es = true ↔ bank.toNat ≤ 1 ∧ first.toNat ≤ 63 ∧ es ≠ [] ∧ first.toNat + es.length ≤ 64
      ∧ ∀ e ∈ es, e.initial.toNat ≤ 3600 ∧ e.step.toNat ≤ 3600 := by
  simp [tariffLoadValid, tariffEntryValid, and_assoc]

/-- Loading a bank replaces the run in that bank and leaves the other (R49). -/
theorem load_eq (bank : Byte) (first : Nat) (es : List TariffEntry) (t : TariffUnit) :
    t.load bank.toNat first es = { t with
      bank0 := if bank = 0 then replaceRun first es t.bank0 else t.bank0
      bank1 := if bank = 0 then t.bank1 else replaceRun first es t.bank1 } := by
  have hz : bank.toNat = 0 ↔ bank = 0 := by rw [BitVec.toNat_eq]; rfl
  unfold TariffUnit.load
  by_cases h : bank = 0
  · rw [if_pos (beq_iff_eq.mpr (hz.mpr h)), if_pos h, if_pos h]
  · rw [if_neg (mt beq_iff_eq.mp (mt hz.mp h)), if_neg h, if_neg h]

section
variable {tag : Byte} {ref : BitVec 32} {m : BitVec 128} {bank first : Byte} {es : List TariffEntry} {s : State}

/-- SIGNATURE in a part that takes directives: a marker of all ones or zeros is refused, any other goes through its last cases. -/
theorem exec_signature_of_bad (h : s.TakesDirectives) (hm : m = 0 ∨ m = BitVec.allOnes 128) :
    exec (.signature tag ref m) s = .next ((s.takeUp tag (.signature tag ref m)).2.answer
      (s.takeUp tag (.signature tag ref m)).1 .refused (some .badField)) := by
  refine (congrArg _ (own_of_takes h _ _ _)).trans (congrArg _ (if_pos ?_))
  simpa using hm

theorem exec_signature_of_good (h : s.TakesDirectives) (hm : ¬(m = 0 ∨ m = BitVec.allOnes 128)) :
    exec (.signature tag ref m) s = .next (State.ifJournal (s.takeUp tag (.signature tag ref m)).1
      (s.takeUp tag (.signature tag ref m)).2 fun x => x.ifStore (s.takeUp tag (.signature tag ref m)).1
        (State.signatureTaken ref m (s.takeUp tag (.signature tag ref m)).1)) := by
  refine (congrArg _ (own_of_takes h _ _ _)).trans (congrArg _ (if_neg ?_))
  simpa using hm

/-- TARIFF_LOAD in a part that takes directives. -/
theorem exec_tariffLoad_of_bad (h : s.TakesDirectives) (hv : tariffLoadValid bank first es = false) :
    exec (.tariffLoad tag ref bank first es) s = .next ((s.takeUp tag (.tariffLoad tag ref bank first es)).2.answer
      (s.takeUp tag (.tariffLoad tag ref bank first es)).1 .refused (some .badField)) :=
  (congrArg _ (own_of_takes h _ _ _)).trans (congrArg _ (if_pos (by rw [hv]; rfl)))

theorem exec_tariffLoad_of_inUse (h : s.TakesDirectives) (hv : tariffLoadValid bank first es = true)
    (hu : s.bankInUse bank.toNat = true) :
    exec (.tariffLoad tag ref bank first es) s = .next ((s.takeUp tag (.tariffLoad tag ref bank first es)).2.answer
      (s.takeUp tag (.tariffLoad tag ref bank first es)).1 .refused (some .bankInUse)) :=
  (congrArg _ (own_of_takes h _ _ _)).trans (congrArg _ ((if_neg (by rw [hv]; exact Bool.false_ne_true)).trans
    (if_pos ((takeUp_bankInUse ..).trans hu))))

theorem exec_tariffLoad_of_good (h : s.TakesDirectives) (hv : tariffLoadValid bank first es = true)
    (hu : s.bankInUse bank.toNat = false) :
    exec (.tariffLoad tag ref bank first es) s = .next (State.ifJournal (s.takeUp tag (.tariffLoad tag ref bank first es)).1
      (s.takeUp tag (.tariffLoad tag ref bank first es)).2 fun x => x.ifStore (s.takeUp tag (.tariffLoad tag ref bank first es)).1
        (State.tariffLoadTaken ref bank first es (s.takeUp tag (.tariffLoad tag ref bank first es)).1)) :=
  (congrArg _ (own_of_takes h _ _ _)).trans (congrArg _ ((if_neg (by rw [hv]; exact Bool.false_ne_true)).trans
    (if_neg (by rw [takeUp_bankInUse, hu]; exact Bool.false_ne_true))))

/-- TARIFF_SELECT in a part that takes directives. -/
theorem exec_tariffSelect_of_bad (h : s.TakesDirectives) (hb : 1 < bank.toNat) :
    exec (.tariffSelect tag ref bank) s = .next ((s.takeUp tag (.tariffSelect tag ref bank)).2.answer
      (s.takeUp tag (.tariffSelect tag ref bank)).1 .refused (some .badField)) :=
  (congrArg _ (own_of_takes h _ _ _)).trans (congrArg _ (if_pos hb))

theorem exec_tariffSelect_of_good (h : s.TakesDirectives) (hb : bank.toNat ≤ 1) :
    exec (.tariffSelect tag ref bank) s = .next (State.ifJournal (s.takeUp tag (.tariffSelect tag ref bank)).1
      (s.takeUp tag (.tariffSelect tag ref bank)).2 fun x => x.ifStore (s.takeUp tag (.tariffSelect tag ref bank)).1
        (State.tariffSelectTaken ref bank (s.takeUp tag (.tariffSelect tag ref bank)).1)) :=
  (congrArg _ (own_of_takes h _ _ _)).trans (congrArg _ (if_neg (Nat.not_lt.mpr hb)))

end

/-- Settles O29: the cases of R156, R49 and R50 in their order. -/
theorem markerAndTariffDirectives : Obligations.MarkerAndTariffDirectives := by
  refine ⟨?sign, ?load, ?select, ?refusals⟩
  case sign =>
    intro tag ref m s ht hroom hz ho p
    rw [exec_signature_of_good ht (not_or.mpr ⟨hz, ho⟩), ifJournal_ifStore_of_room _ (takeUp_hasRoom hroom _ _)]
    rfl
  case load =>
    intro tag ref bank first es s ht hroom hb hl hf hes ha hv p run
    have hvalid : tariffLoadValid bank first es = true :=
      tariffLoadValid_iff.mpr ⟨hb, by omega, by rintro rfl; exact absurd hl (by decide), hf, hes⟩
    have hfree : s.bankInUse bank.toNat = false := by
      refine Bool.eq_false_iff.mpr fun hu => ?_
      obtain h | ⟨v, hmem, hbank, hstate⟩ := bankInUse_iff.mp hu
      · exact ha h
      · obtain h | h := hv v hmem hbank <;> simp [h] at hstate
    rw [exec_tariffLoad_of_good ht hvalid hfree, ifJournal_ifStore_of_room _ (takeUp_hasRoom hroom _ _), State.tariffLoadTaken,
      load_eq, takeUp_tariff]
    rfl
  case select =>
    intro tag ref bank s ht hroom hb p
    rw [exec_tariffSelect_of_good ht hb, ifJournal_ifStore_of_room _ (takeUp_hasRoom hroom _ _)]
    rfl
  case refusals =>
    intro tag ref m bank first es s ht refused sign load select badSign badLoad inUse
    have hvalid : badLoad ↔ ¬tariffLoadValid bank first es = true := by
      rw [tariffLoadValid_iff]
      simp only [badLoad, not_and_or, not_le, not_not, not_forall, exists_prop]
    have hgood (h : ¬badLoad) : tariffLoadValid bank first es = true := not_not.mp (mt hvalid.mpr h)
    have hfree (h : ¬inUse) : s.bankInUse bank.toNat = false := Bool.eq_false_iff.mpr (mt bankInUse_iff.mp h)
    have hfull (c : Instr) (h : s.journalFull = true) : (s.takeUp tag c).2.journalFull = true := (takeUp_journalFull ..).trans h
    have hroom (c : Instr) (h : s.journalFull = false) : (s.takeUp tag c).2.journalFull = false := (takeUp_journalFull ..).trans h
    have hdown (c : Instr) (h : s.lossFail = true) : (s.takeUp tag c).2.lossFail = true := (takeUp_lossFail ..).trans h
    refine ⟨exec_signature_of_bad ht, fun h => exec_tariffLoad_of_bad ht (Bool.eq_false_iff.mpr (hvalid.mp h)),
      exec_tariffSelect_of_bad ht, fun h hu => exec_tariffLoad_of_inUse ht (hgood h) (bankInUse_iff.mpr hu),
      fun hj => ⟨fun h => ?_, fun h hu => ?_, fun h => ?_⟩, fun hj hl => ⟨fun h => ?_, fun h hu => ?_, fun h => ?_⟩⟩
    · exact (exec_signature_of_good ht h).trans (congrArg _ (ifJournal_of_full _ (hfull _ hj)))
    · exact (exec_tariffLoad_of_good ht (hgood h) (hfree hu)).trans (congrArg _ (ifJournal_of_full _ (hfull _ hj)))
    · exact (exec_tariffSelect_of_good ht h).trans (congrArg _ (ifJournal_of_full _ (hfull _ hj)))
    · exact (exec_signature_of_good ht h).trans (congrArg _ (ifJournal_ifStore_of_down _ (hroom _ hj) (hdown _ hl)))
    · exact (exec_tariffLoad_of_good ht (hgood h) (hfree hu)).trans
        (congrArg _ (ifJournal_ifStore_of_down _ (hroom _ hj) (hdown _ hl)))
    · exact (exec_tariffSelect_of_good ht h).trans (congrArg _ (ifJournal_ifStore_of_down _ (hroom _ hj) (hdown _ hl)))

/-! ### Directives that name a volume -/

/-- Settles O31: the cases that the six directives share. -/
theorem namedVolumesAreChecked : Obligations.NamedVolumesAreChecked := by
  intro tag ref window serial s ht c hc answered
  have hnamed : ∃ body, exec c s = .next ((s.takeUp tag c).2.named (s.takeUp tag c).1 window serial body) := by
    simp only [List.mem_cons, List.not_mem_nil, or_false] at hc
    obtain rfl | rfl | rfl | rfl | rfl | rfl := hc <;> exact ⟨_, congrArg _ (own_of_takes ht _ _ _)⟩
  obtain ⟨body, hexec⟩ := hnamed
  have hvol := takeUp_vol tag c s window.toNat
  exact ⟨fun hw => hexec.trans (congrArg _ (named_of_no_window body hw)),
    fun hw hv => hexec.trans (congrArg _ (named_of_free body hw (hvol.trans hv))),
    fun hw v hv hn => hexec.trans (congrArg _ (named_of_other_serial body hw (hvol.trans hv) hn))⟩

/-- A directive that names the volume it gives, in a part that takes directives: the volume's own cases. -/
theorem own_named_of_names {s : State} {window : BitVec 16} {serial : BitVec 32} {v : Volume} (ht : s.TakesDirectives)
    (hv : s.Names window serial v) (tag : Byte) (c : Instr) (body : Option Nat → State → Volume → State) :
    (s.own tag c fun o s => s.named o window serial (body o s)) = body (s.takeUp tag c).1 (s.takeUp tag c).2 v :=
  (own_of_takes ht tag c _).trans (named_of_names _ (takeUp_names hv tag c))

/-- Changing the record of a window, written as an `if` on the window. -/
theorem modVol_eq (w : Nat) (f : Volume → Volume) (s : State) :
    s.modVol w f = { s with vols := s.vols.map fun x => if x.window = w then f x else x } := by
  simp only [State.modVol, beq_iff_eq]

theorem modCtx_eq (w : Nat) (f : Ctx → Ctx) (s : State) :
    s.modCtx w f = { s with ctxs := s.ctxs.map fun x => if x.window = w then f x else x } := by
  simp only [State.modCtx, beq_iff_eq]

/-- The record changed and its catalogue record called for, in one step. -/
theorem rewriteVol_eq (w : Nat) (f : Volume → Volume) (ws : List CatWaiter) (s : State) :
    s.rewriteVol w f ws
      = State.callCatalogue w ws { s with vols := s.vols.map fun x => if x.window = w then f x else x } := by
  rw [State.rewriteVol, modVol_eq]

/-- A volume enters CLOSING: its context's timer stops and the close stands at its first stage, the record is CLOSING. -/
theorem enterClosing_eq (w : Nat) (stage : CloseStage) (ref : Option Nat) (s : State) :
    s.enterClosing w stage ref = State.callCatalogue w [] { s with
      ctxs := s.ctxs.map fun x => if x.window = w then { x with idle := none, close := some { stage, ref } } else x
      vols := s.vols.map fun x => if x.window = w then { x with state := .closing, stalled := false } else x } := by
  rw [State.enterClosing, rewriteVol_eq, modCtx_eq]

/-! ### RESOLVE, and CLOSE of a SUSPENDED volume -/

/-- Settles O33: R19 case by case, and R18 of a SUSPENDED volume. -/
theorem resolveResumesOrAbandons : Obligations.ResolveResumesOrAbandons := by
  intro tag ref window serial s v ht hv resume abandon close answered
  have hresume : exec resume s = .next (if v.state == .suspended then
      State.ifJournal (s.takeUp tag resume).1 (s.takeUp tag resume).2 fun x =>
        x.ifStore (s.takeUp tag resume).1 (State.resumeTaken ref v (s.takeUp tag resume).1)
      else (s.takeUp tag resume).2.deny (s.takeUp tag resume).1 .wrongState) :=
    congrArg _ (own_named_of_names ht hv tag resume _)
  have habandon : exec abandon s = .next (if v.state == .suspended then
      (s.takeUp tag abandon).2.closeSuspended v.window ref (s.takeUp tag abandon).1
      else (s.takeUp tag abandon).2.deny (s.takeUp tag abandon).1 .wrongState) :=
    congrArg _ (own_named_of_names ht hv tag abandon _)
  have hsuspended (h : v.state = .suspended) : exec resume s = .next
      (State.ifJournal (s.takeUp tag resume).1 (s.takeUp tag resume).2 fun x =>
        x.ifStore (s.takeUp tag resume).1 (State.resumeTaken ref v (s.takeUp tag resume).1)) :=
    hresume.trans (congrArg _ (if_pos (beq_iff_eq.mpr h)))
  refine ⟨fun h => ⟨?_, ?_⟩, fun h hj => ?_, fun h hj hl => ?_, fun h hroom => ?_, fun h c hc => ?_⟩
  · exact hresume.trans (congrArg _ (if_neg (mt beq_iff_eq.mp h)))
  · exact habandon.trans (congrArg _ (if_neg (mt beq_iff_eq.mp h)))
  · exact (hsuspended h).trans (congrArg _ (ifJournal_of_full _ ((takeUp_journalFull ..).trans hj)))
  · exact (hsuspended h).trans
      (congrArg _ (ifJournal_ifStore_of_down _ ((takeUp_journalFull ..).trans hj) ((takeUp_lossFail ..).trans hl)))
  · rw [hsuspended h, ifJournal_ifStore_of_room _ (takeUp_hasRoom hroom tag resume), State.resumeTaken, State.loadIdle,
      takeUp_set, modCtx_eq, rewriteVol_eq]
    rfl
  · have hclosed : exec c s = .next ((s.takeUp tag c).2.closeSuspended v.window ref (s.takeUp tag c).1) := by
      simp only [List.mem_cons, List.not_mem_nil, or_false] at hc
      obtain rfl | rfl := hc
      · exact habandon.trans (congrArg _ (if_pos (beq_iff_eq.mpr h)))
      · refine (congrArg _ (own_named_of_names ht hv tag close _)).trans ?_
        rw [h]
    rw [hclosed, State.closeSuspended, enterClosing_eq]

/-! ### CALENDAR and RETENTION -/

/-- Settles O34: R112 case by case. -/
theorem calendarMovesTheArchiveDay : Obligations.CalendarMovesTheArchiveDay := by
  intro tag ref day s ht c o u
  have hexec : exec c s = .next (if day.toNat < u.ret.day then u.deny o .calendarBackward
      else u.ifStore o (State.calendarTaken ref day o)) := congrArg _ (own_of_takes ht _ _ _)
  rw [takeUp_ret] at hexec
  exact ⟨fun h => hexec.trans (congrArg _ (if_pos h)),
    fun h hl => hexec.trans (congrArg _ ((if_neg (Nat.not_lt.mpr h)).trans (ifStore_of_down _ ((takeUp_lossFail ..).trans hl)))),
    fun h hl => hexec.trans (congrArg _ ((if_neg (Nat.not_lt.mpr h)).trans (ifStore_of_up _ ((takeUp_lossFail ..).trans hl))))⟩

theorem retentionValid_iff {cls : Byte} {days grace : BitVec 16} {choice : Byte} :
    retentionValid cls days grace choice = true
      ↔ cls.toNat ≤ 7 ∧ days.toNat ≤ 36525 ∧ grace.toNat ≤ 3650 ∧ choice.toNat ≤ 1 := by
  simp [retentionValid, and_assoc]

/-- A record is recomputed exactly when it is the class's, not EXPIRING, and its expiry day moves (R116). -/
theorem recomputeVolume_of_moves {cls : Nat} {e : RetentionEntry} {v : Volume} (h : v.cls = cls ∧ v.state ≠ .expiring
    ∧ recomputeExpiry v e ≠ v.expiry) (s : State) :
    recomputeVolume cls e v s = s.rewriteVol v.window (fun x => { x with expiry := recomputeExpiry x e }) [] := by
  obtain ⟨hc, hs, hm⟩ := h
  simp [recomputeVolume, hc, hs, hm]

theorem recomputeVolume_of_stays {cls : Nat} {e : RetentionEntry} {v : Volume} (h : ¬(v.cls = cls ∧ v.state ≠ .expiring
    ∧ recomputeExpiry v e ≠ v.expiry)) (s : State) : recomputeVolume cls e v s = s := by
  refine if_neg fun hm => h ?_
  simpa [and_assoc] using hm

/-- The expiry day of a superseded volume: the earliest of its present day, the end of its grace, and day + days when there is one
(R116). -/
theorem recomputeExpiry_of_superseded {v : Volume} {d : Nat} (h : v.supersededOn = some d) (e : RetentionEntry) :
    ∃ x, recomputeExpiry v e = some x ∧ x ≤ d + e.grace ∧ (∀ y, v.expiry = some y → x ≤ y)
      ∧ (e.days ≠ 0 → x ≤ v.day + e.days)
      ∧ (x = d + e.grace ∨ v.expiry = some x ∨ (e.days ≠ 0 ∧ x = v.day + e.days)) := by
  have hbound : boundedBy v.expiry (d + e.grace) ≤ d + e.grace
      ∧ (∀ y, v.expiry = some y → boundedBy v.expiry (d + e.grace) ≤ y)
      ∧ (boundedBy v.expiry (d + e.grace) = d + e.grace ∨ v.expiry = some (boundedBy v.expiry (d + e.grace))) := by
    cases hx : v.expiry with
    | none => simp [boundedBy]
    | some y => simp only [boundedBy, Option.some.injEq, forall_eq']; omega
  obtain ⟨hgrace, hpresent, hwhich⟩ := hbound
  refine ⟨_, by simp only [recomputeExpiry, h]; rfl, ?_⟩
  by_cases hz : e.days = 0
  · simp only [expiryOf, hz]
    exact ⟨hgrace, hpresent, by simp, hwhich.imp_right .inl⟩
  · have hy : expiryOf v.day e.days = some (v.day + e.days) := by simp [expiryOf, hz]
    simp only [hy]
    generalize boundedBy v.expiry (d + e.grace) = x at *
    refine ⟨(min_le_left ..).trans hgrace, fun y h => (min_le_left ..).trans (hpresent y h), fun _ => min_le_right .., ?_⟩
    rcases min_choice x (v.day + e.days) with hm | hm
    · rw [hm]; exact hwhich.imp_right .inl
    · rw [hm]; exact .inr (.inr ⟨hz, rfl⟩)

/-- Settles O35: R114 case by case, and the recomputation of R116. -/
theorem retentionReplacesItsEntry : Obligations.RetentionReplacesItsEntry := by
  refine ⟨?directive, ?volume, ?expiry⟩
  case directive =>
    intro tag ref cls days grace choice s ht c o u valid entry
    have hexec : exec c s = .next (if !retentionValid cls days grace choice then u.deny o .badField
        else u.ifJournal o fun s => s.ifStore o (State.retentionTaken ref cls days grace choice o)) :=
      congrArg _ (own_of_takes ht _ _ _)
    have hin (h : valid) : exec c s
        = .next (u.ifJournal o fun s => s.ifStore o (State.retentionTaken ref cls days grace choice o)) := by
      rw [hexec, retentionValid_iff.mpr h]; rfl
    refine ⟨fun h => ?_, fun h hj => ?_, fun h hj hl => ?_, fun h hroom => ?_⟩
    · rw [hexec, Bool.eq_false_iff.mpr (mt retentionValid_iff.mp h)]; rfl
    · rw [hin h, ifJournal_of_full _ ((takeUp_journalFull ..).trans hj)]
    · rw [hin h, ifJournal_ifStore_of_down _ ((takeUp_journalFull ..).trans hj) ((takeUp_lossFail ..).trans hl)]
    · have hentry : retentionEntry days grace choice = entry := by
        have hz : choice.toNat = 0 ↔ choice = 0 := by rw [BitVec.toNat_eq]; rfl
        simp only [retentionEntry, entry, beq_iff_eq, hz]
      rw [hin h, ifJournal_ifStore_of_room _ (takeUp_hasRoom hroom tag c), State.retentionTaken, hentry, takeUp_vols]
      rfl
  case volume =>
    intro cls e v s moves
    exact ⟨fun h => (recomputeVolume_of_moves h s).trans (rewriteVol_eq ..), fun h => recomputeVolume_of_stays h s⟩
  case expiry =>
    intro v e
    exact ⟨fun h hz => by simp [recomputeExpiry, h, expiryOf, hz], fun h hz => by simp [recomputeExpiry, h, expiryOf, hz],
      fun d h => recomputeExpiry_of_superseded h e⟩

/-! ### HOLD and RELEASE -/

/-- What a hold matches (R120). -/
theorem covers_iff {h : Hold} {v : Volume} :
    h.covers v = true ↔ (∀ n, h.source = some n → n = v.source) ∧ h.first ≤ v.day ∧ v.day ≤ h.last := by
  cases hs : h.source <;> simp [Hold.covers, hs, and_assoc]

theorem returnable_iff {s : State} {v : Volume} : s.returnable v = true ↔ v.state = .expiring
    ∧ ∃ q ∈ s.ret.queue, q.window = v.window ∧ q.serial = v.serial ∧ q.cut = false := by
  simp [State.returnable, and_assoc]

theorem tooLate_iff {s : State} {v : Volume} : s.tooLate v = true ↔ v.state = .expiring
    ∧ ∀ q ∈ s.ret.queue, q.window = v.window → q.serial = v.serial → q.cut = true := by
  simp only [State.tooLate, Bool.and_eq_true, Bool.not_eq_eq_eq_not, Bool.not_true, ← Bool.not_eq_true (State.returnable _ _), returnable_iff, beq_iff_eq]
  refine and_congr_right fun h => ⟨fun hn q hq hw hs => ?_, fun hall hret => ?_⟩
  · by_contra hcut
    exact hn ⟨h, q, hq, hw, hs, Bool.eq_false_iff.mpr hcut⟩
  · obtain ⟨_, q, hq, hw, hs, hcut⟩ := hret
    exact absurd (hall q hq hw hs) (by simp [hcut])

/-- Leaving the reclaim queue: the volume is CLOSED, its wait for the EXPIRING record is over, its catalogue record is called for. -/
theorem unexpire_eq (w n : Nat) (f : Volume → Volume) (s : State) :
    s.unexpire w n f = State.callCatalogue w [] { s with
      vols := s.vols.map fun v => if v.window = w then { f v with state := .closed } else v
      ret := { s.ret with queue := s.ret.queue.filter fun q => ¬(q.window = w ∧ q.serial = n) }
      set := { s.set with catWrites := s.set.catWrites.map fun c => { c with
        waiters := c.waiters.filter (· ≠ .expiring w n), gathered := c.gathered.map (·.filter (· ≠ .expiring w n)) } } } := by
  have hdrop : dropExpiring w n = fun xs => xs.filter (· ≠ .expiring w n) := by
    funext xs
    simp only [dropExpiring, bne, Bool.beq_eq_decide_eq, decide_not, ne_eq]
  rw [State.unexpire, rewriteVol_eq]
  simp only [hdrop, Bool.beq_eq_decide_eq, decide_not, Bool.decide_and]

/-- Settles O36: R121 case by case, and what its parts say. -/
theorem holdReturnsExpiringVolumes : Obligations.HoldReturnsExpiringVolumes := by
  intro tag ref id anySource source first last s ht c o u refused bad listed h back late
  have hexec : exec c s = .next (if 1 < anySource.toNat || id == 0 || last.toNat < first.toNat then u.deny o .badField
      else if u.ret.holds.any (·.id == id.toNat) then u.deny o .holdExists
      else if 64 ≤ u.ret.holds.length then u.deny o .holdTableFull
      else u.ifJournal o fun x => x.ifStore o fun x => x.holdTaken ref (x.holdNamed id anySource source first last) o) :=
    congrArg _ (own_of_takes ht _ _ _)
  rw [takeUp_ret] at hexec
  have hbad : (1 < anySource.toNat || id == 0 || last.toNat < first.toNat) = true ↔ bad := by simp [bad, or_assoc]
  have hlisted : s.ret.holds.any (·.id == id.toNat) = true ↔ listed := by simp [listed]
  have hgood (hb : ¬bad) (hl : ¬listed) (hn : s.ret.holds.length < 64) : exec c s = .next (u.ifJournal o fun x =>
      x.ifStore o fun x => x.holdTaken ref (x.holdNamed id anySource source first last) o) := by
    rw [hexec, if_neg (mt hbad.mp hb), if_neg (mt hlisted.mp hl), if_neg (Nat.not_le.mpr hn)]
  refine ⟨fun v => ?_, fun v => returnable_iff, fun v => tooLate_iff, fun w n x => unexpire_eq w n _ x,
    fun hb => ?_, fun hb hl => ?_, fun hb hl hn => ?_, fun hb hl hn hj => ?_, fun hb hl hn hj hd => ?_, fun hb hl hn hroom => ?_⟩
  · rw [covers_iff]
    by_cases ha : anySource = 1 <;> simp only [h, ha, if_true, if_false] <;> simp [eq_comm]
  · exact hexec.trans (congrArg _ (if_pos (hbad.mpr hb)))
  · exact hexec.trans (congrArg _ ((if_neg (mt hbad.mp hb)).trans (if_pos (hlisted.mpr hl))))
  · exact hexec.trans (congrArg _ ((if_neg (mt hbad.mp hb)).trans ((if_neg (mt hlisted.mp hl)).trans (if_pos hn))))
  · exact (hgood hb hl hn).trans (congrArg _ (ifJournal_of_full _ ((takeUp_journalFull ..).trans hj)))
  · exact (hgood hb hl hn).trans
      (congrArg _ (ifJournal_ifStore_of_down _ ((takeUp_journalFull ..).trans hj) ((takeUp_lossFail ..).trans hd)))
  · have hnamed : u.holdNamed id anySource source first last = h := by
      simp only [State.holdNamed, h, takeUp_ret, u, beq_iff_eq]
    rw [hgood hb hl hn, ifJournal_ifStore_of_room _ (takeUp_hasRoom hroom tag c), hnamed, State.holdTaken]
    simp only [u, takeUp_returnable, takeUp_tooLate, takeUp_vols, holdBody, Option.map_map]
    rfl

/-- Settles O37: R122 case by case. -/
theorem releaseRemovesItsHold : Obligations.ReleaseRemovesItsHold := by
  intro tag ref id s hr c o u refused
  refine ⟨fun hh => congrArg _ (own_of_gate hr (directiveGate_of_halted hh) _ _ _),
    fun hh hs => congrArg _ (own_of_gate hr (directiveGate_of_starting hh hs) _ _ _), fun ht hn => ?none, fun ht h hf => ?found⟩
  case none =>
    have hnone : u.ret.holds.find? (·.id == id.toNat) = none := by
      rw [takeUp_ret, List.find?_eq_none]
      exact fun h hm => by simpa using hn h hm
    refine (congrArg _ (own_of_takes ht _ _ _)).trans ?_
    rw [hnone]
    rfl
  case found =>
    have hsome : u.ret.holds.find? (·.id == id.toNat) = some h := by rw [takeUp_ret, hf]
    have hexec : exec c s = .next (u.ifJournal o fun x => x.ifStore o (State.releaseTaken ref h o)) := by
      refine (congrArg _ (own_of_takes ht _ _ _)).trans ?_
      rw [hsome]
    have hid : h.id = id.toNat := by simpa using List.find?_some hf
    refine ⟨fun hj => ?_, fun hj hl => ?_, fun hroom => ⟨u.releaseTaken ref h o, ?_, ?_, ?_⟩⟩
    · exact hexec.trans (congrArg _ (ifJournal_of_full _ ((takeUp_journalFull ..).trans hj)))
    · exact hexec.trans
        (congrArg _ (ifJournal_ifStore_of_down _ ((takeUp_journalFull ..).trans hj) ((takeUp_lossFail ..).trans hl)))
    · exact hexec.trans (congrArg _ (ifJournal_ifStore_of_room _ (takeUp_hasRoom hroom tag c)))
    · have hsource : boolByte h.source.isNone = if h.source = none then 1 else 0 := by
        cases h.source <;> rfl
      simp only [State.releaseTaken, releaseBody, holdFields, hsource, hid, bne, Bool.beq_eq_decide_eq, ne_eq, decide_not]
    · refine (congrArg State.vols (append_nobody rfl _)).trans ?_
      exact (congrArg State.vols (callSettings_only _ _)).trans (takeUp_vols tag c s)

/-! ### ACCEPT and VERIFY -/

/-- Settles O38: R131 case by case. -/
theorem acceptReplacesTheAuditState : Obligations.AcceptReplacesTheAuditState := by
  intro tag ref window serial s v ht hv c o u flags
  have hexec : exec c s = .next (if v.state != .closed || v.audit == .reconciled then u.deny o .wrongState
      else if v.audit == .accepted then u.answer o .good none
      else u.ifJournal o (State.acceptTaken ref v o)) := congrArg _ (own_named_of_names ht hv tag c _)
  refine ⟨fun h => ?_, fun hs ha => ?_, fun hs hr ha => ?_⟩
  · rw [hexec, if_pos (by simpa using h)]; rfl
  · rw [hexec, if_neg (by simp [hs, ha]), if_pos (beq_iff_eq.mpr ha)]
  · rw [if_neg (by simp [hs, hr]), if_neg (mt beq_iff_eq.mp ha)] at hexec
    refine ⟨fun hj => ?_, fun hj => ?_⟩
    · rw [hexec, ifJournal_of_full _ ((takeUp_journalFull ..).trans hj)]
    · rw [hexec, ifJournal_of_free _ ((takeUp_journalFull ..).trans hj), State.acceptTaken, rewriteVol_eq]
      rfl

/-- Settles O39: R141 case by case. -/
theorem verifyJoinsTheQueue : Obligations.VerifyJoinsTheQueue := by
  intro tag ref window serial s v ht hv c o u
  have hexec : exec c s = .next (if v.state != .closed then u.deny o .wrongState
      else if v.verifyQueued || v.verifying then u.answer o .good none
      else if 16 ≤ u.audit.queue.length then u.deny o .queueFull
      else (u.queueVerify ref v).answer o .good none) := congrArg _ (own_named_of_names ht hv tag c _)
  rw [takeUp_audit] at hexec
  refine ⟨fun h => ?_, fun hs h => ?_, fun hs hq hb => ⟨fun hn => ?_, fun hn => ?_⟩⟩
  · rw [hexec, if_pos (by simpa using h)]; rfl
  · rw [hexec, if_neg (by simp [hs]), if_pos (by simpa using h)]
  · rw [hexec, if_neg (by simp [hs]), if_neg (by simp [hq, hb]), if_pos hn]; rfl
  · rw [hexec, if_neg (by simp [hs]), if_neg (by simp [hq, hb]), if_neg (Nat.not_le.mpr hn), State.queueVerify, modVol_eq]

end Sys2Proof.Machine
end

section
/-! Counting and rating a call record (chapter 3), and the statements O42 and O43. -/

namespace Sys2Proof.Machine

/-! ### The charge -/

/-- The least multiple of `b` that covers `a`. -/
theorem ceilDiv_mul_bounds {b : Nat} (hb : 0 < b) (a : Nat) : a ≤ ceilDiv a b * b ∧ ceilDiv a b * b < a + b := by
  have h1 : ceilDiv a b * b ≤ a + b - 1 := Nat.div_mul_le_self _ _
  have h2 : a + b - 1 < ceilDiv a b * b + b := by
    simpa [ceilDiv, Nat.add_mul] using Nat.lt_mul_of_div_lt (Nat.lt_succ_self ((a + b - 1) / b)) hb
  omega

/-- The charged seconds are 0 within the grace, the initial interval up to its end, and the least sum that covers the call beyond. -/
theorem chargedSeconds_of_grace {g d : Nat} (h : d ≤ g) (i s : Nat) : chargedSeconds g i s d = 0 := if_pos h

theorem chargedSeconds_of_initial {g i d : Nat} (hg : g < d) (hi : 0 < i) (hd : d ≤ i) (s : Nat) : chargedSeconds g i s d = i := by
  simp [chargedSeconds, Nat.not_le.mpr hg, hi, hd]

theorem chargedSeconds_of_steps {g i d : Nat} (hg : g < d) (h : i = 0 ∨ i < d) (s : Nat) :
    chargedSeconds g i s d = i + ceilDiv (d - i) s * s := by
  obtain rfl | h := h
  · simp [chargedSeconds, Nat.not_le.mpr hg]
  · by_cases hi : i = 0
    · simp [chargedSeconds, Nat.not_le.mpr hg, hi]
    · simp [chargedSeconds, Nat.not_le.mpr hg, Nat.pos_of_ne_zero hi, Nat.not_le.mpr h]

/-- No charge reaches a step past the call, or past the initial interval. -/
theorem chargedSeconds_lt {s : Nat} (hs : 0 < s) (g i d : Nat) : chargedSeconds g i s d < max (d + s) (i + 1) := by
  by_cases hg : d ≤ g
  · rw [chargedSeconds_of_grace hg]; omega
  · by_cases h : i = 0 ∨ i < d
    · rw [chargedSeconds_of_steps (Nat.not_le.mp hg) h]
      have := (ceilDiv_mul_bounds hs (d - i)).2
      omega
    · rw [chargedSeconds_of_initial (Nat.not_le.mp hg) (by omega) (by omega)]; omega

/-- The units are the least that cover the charge. -/
theorem chargedUnits_bounds (e : TariffEntry) (d : Nat) :
    let cs := chargedSeconds e.grace.toNat e.initial.toNat e.step.toNat d
    cs * e.rate.toNat ≤ 60 * chargedUnits e d ∧ 60 * chargedUnits e d < cs * e.rate.toNat + 60 := by
  have h := ceilDiv_mul_bounds (b := 60) (by decide)
    (chargedSeconds e.grace.toNat e.initial.toNat e.step.toNat d * e.rate.toNat)
  rw [Nat.mul_comm _ 60] at h
  exact h

/-- Settles O43: the cases of R52, and the largest charge from the bounds on a charge. -/
theorem chargesCoverTheCall : Obligations.ChargesCoverTheCall := by
  refine ⟨fun g i s d hs => ⟨fun h => chargedSeconds_of_grace h i s, fun hg hi hd => chargedSeconds_of_initial hg hi hd s,
    fun hg h => ?steps⟩, chargedUnits_bounds, fun e d hi hs hz hd => ?largest, by decide⟩
  case steps =>
    have hb := ceilDiv_mul_bounds hs (d - i)
    rw [chargedSeconds_of_steps hg h]
    exact ⟨by omega, by omega, _, rfl⟩
  case largest =>
    have hstep : 0 < e.step.toNat := Nat.pos_of_ne_zero fun h => hz (BitVec.eq_of_toNat_eq h)
    have hseconds := chargedSeconds_lt hstep e.grace.toNat e.initial.toNat d
    have hunits := (chargedUnits_bounds e d).2
    have hrate : e.rate.toNat ≤ 65535 := Nat.lt_succ_iff.mp e.rate.isLt
    have hproduct := Nat.mul_le_mul
      (by omega : chargedSeconds e.grace.toNat e.initial.toNat e.step.toNat d ≤ 16780814) hrate
    omega

/-! ### Counting a record -/

section
variable {bank : List TariffEntry} {cls d : Nat}

/-- A record is left unrated when its class is 64 or more, or its entry's step is 0 (R51). -/
theorem rateRecord_of_unrated (h : 64 ≤ cls ∨ ∃ e, bank[cls]? = some e ∧ e.step = 0) :
    rateRecord bank cls d = none := by
  unfold rateRecord
  split
  next => rfl
  next e he =>
    refine if_pos ?_
    obtain h | ⟨e', he', hz⟩ := h
    · simp [h]
    · obtain rfl : e = e' := Option.some.inj (he.symm.trans he')
      simp [hz]

theorem rateRecord_of_rated (hb : bank.length = 64) (h : ¬(64 ≤ cls ∨ ∃ e, bank[cls]? = some e ∧ e.step = 0)) :
    ∃ e, bank[cls]? = some e ∧ rateRecord bank cls d = some (chargedUnits e d) := by
  obtain ⟨hcls, hstep⟩ := not_or.mp h
  have he : bank[cls]? = some (bank[cls]'(by omega)) := List.getElem?_eq_getElem _
  refine ⟨_, he, ?_⟩
  have hz : ¬(bank[cls]'(by omega)).step = 0#16 := fun hz => hstep ⟨_, he, hz⟩
  simp [rateRecord, he, hcls, hz]

theorem chargedUnits_of_rate_zero {e : TariffEntry} (h : e.rate = 0) (d : Nat) : chargedUnits e d = 0 := by
  simp [chargedUnits, h, ceilDiv]

end

/-- The counts of a good record after the sequence accounting of R45. -/
def Ctx.sequenced (c : Ctx) (q : Nat) : Counts :=
  match c.lastSeq with
  | none => c.counts
  | some l => if q ≤ l then { c.counts with disorder := addCount c.counts.disorder 1 }
      else { c.counts with gaps := addCount c.counts.gaps (q - l - 1) }

/-- What a good record does to the context: the last sequence is the higher, the counts are raised, the overflow mark follows them. -/
theorem countGood_eq (bank : List TariffEntry) (r : List Byte) (c : Ctx) :
    let t := countGood bank r c
    t = { c with lastSeq := some ((c.lastSeq.map (max · (callSeq r))).getD (callSeq r)), overflow := c.overflow || t.counts.atLimit
                 counts := { c.sequenced (callSeq r) with
                   calls := addCount c.counts.calls 1
                   unrated := if (rateRecord bank (callTariff r) (callDuration r)).isNone then addCount c.counts.unrated 1
                     else c.counts.unrated
                   duration := addTotal c.counts.duration (callDuration r)
                   units := addTotal c.counts.units ((rateRecord bank (callTariff r) (callDuration r)).getD 0)
                   volume := addTotal c.counts.volume (callVolume r) } } := by
  intro t
  simp only [t, countGood, Ctx.sequenced]
  cases c.lastSeq with
  | none => rfl
  | some l =>
    by_cases h : callSeq r ≤ l
    · simp [h]
    · simp [h, Nat.max_eq_right (Nat.le_of_not_le h)]

theorem addCount_eq (a b : Nat) : addCount a b = if a + b ≤ 4294967295 then a + b else 4294967295 := min_def ..

theorem addTotal_eq (a b : Nat) : addTotal a b = if a + b ≤ 281474976710655 then a + b else 281474976710655 := min_def ..

/-- Settles O42: a bad record counts as a call and as bad; a good one by `countGood_eq`. -/
theorem goodRecordsAreRated : Obligations.GoodRecordsAreRated := by
  intro bank r c hbank t cls top unratedCase
  refine ⟨fun hbad => ?_, fun hgood => ?_⟩
  · simp only [t, countCall, hbad, addCount_eq, Bool.false_eq_true, if_false]
    rfl
  · have ht : t = countGood bank r c := if_pos hgood
    have heq := countGood_eq bank r c
    rw [← ht] at heq
    have hcounts := congrArg Ctx.counts heq
    dsimp only at hcounts
    have hunits : t.counts.units = addTotal c.counts.units ((rateRecord bank cls (callDuration r)).getD 0) := congrArg Counts.units hcounts
    have hunrated : t.counts.unrated = if (rateRecord bank cls (callDuration r)).isNone then addCount c.counts.unrated 1
        else c.counts.unrated := congrArg Counts.unrated hcounts
    have hlast : t.lastSeq = _ := congrArg Ctx.lastSeq heq
    have hgaps : t.counts.gaps = (c.sequenced (callSeq r)).gaps := (congrArg Counts.gaps hcounts).trans rfl
    have hdisorder : t.counts.disorder = (c.sequenced (callSeq r)).disorder := (congrArg Counts.disorder hcounts).trans rfl
    have hbad : t.counts.bad = (c.sequenced (callSeq r)).bad := (congrArg Counts.bad hcounts).trans rfl
    have hseq : (c.sequenced (callSeq r)).bad = c.counts.bad := by
      unfold Ctx.sequenced
      split
      · rfl
      · split <;> rfl
    have hover : t.overflow = (c.overflow || t.counts.atLimit) := congrArg Ctx.overflow heq
    refine ⟨?calls, hbad.trans hseq, ?duration, ?volume, fun hu => ?unrated, fun hr => ?rated, fun hl => ?first, fun l hl hlt => ?later,
      fun l hl hle => ?disordered, ?overflow, (congrArg Ctx.carry heq).trans rfl, (congrArg Ctx.digest heq).trans rfl, (congrArg Ctx.seg heq).trans rfl,
      (congrArg Ctx.trailer heq).trans rfl, (congrArg Ctx.framer heq).trans rfl⟩
    case calls => exact (congrArg Counts.calls hcounts).trans (addCount_eq ..)
    case duration => exact (congrArg Counts.duration hcounts).trans (addTotal_eq ..)
    case volume => exact (congrArg Counts.volume hcounts).trans (addTotal_eq ..)
    case unrated =>
      have hnone : rateRecord bank cls (callDuration r) = none := rateRecord_of_unrated hu
      rw [hnone] at hunits hunrated
      exact ⟨hunrated.trans (addCount_eq ..), hunits.trans (addTotal_eq ..)⟩
    case rated =>
      obtain ⟨e, he, hrate⟩ := rateRecord_of_rated (d := callDuration r) hbank hr
      rw [hrate] at hunits hunrated
      refine ⟨hunrated, e, he, hunits.trans (addTotal_eq ..), fun hz => ?_⟩
      rw [Option.getD_some, chargedUnits_of_rate_zero hz] at hunits
      exact hunits.trans (addTotal_eq ..)
    case first =>
      rw [hl] at hlast
      exact ⟨hlast, by rw [hgaps, Ctx.sequenced, hl], by rw [hdisorder, Ctx.sequenced, hl]⟩
    case later =>
      rw [hl] at hlast
      refine ⟨by simpa [Nat.max_eq_right (Nat.le_of_lt hlt)] using hlast, ?_, ?_⟩
      · simp [hdisorder, Ctx.sequenced, hl, Nat.not_le.mpr hlt]
      · rw [hgaps, Ctx.sequenced, hl]
        exact (congrArg Counts.gaps (if_neg (Nat.not_le.mpr hlt))).trans (addCount_eq ..)
    case disordered =>
      rw [hl] at hlast
      refine ⟨by simpa [Nat.max_eq_left hle] using hlast, ?_, ?_⟩
      · simp [hgaps, Ctx.sequenced, hl, hle]
      · rw [hdisorder, Ctx.sequenced, hl]
        exact (congrArg Counts.disorder (if_pos hle)).trans (addCount_eq ..)
    case overflow => simp [hover, Counts.atLimit, maxTotal, or_assoc]

end Sys2Proof.Machine
end

section
/-! Reading fixed layouts: a field of a chain of cells is the cell that stands there. The catalogue record and the settings block, and
the statements O11 and O12. -/

namespace Sys2Proof.Machine

/-! ### Slices of chains -/

section
variable {a b : List Byte} {i n : Nat}

theorem slice_skip (h : a.length ≤ i) : slice (a ++ b) i n = slice b (i - a.length) n := by
  rw [slice, slice, List.drop_append, List.drop_eq_nil_of_le h, List.nil_append]

theorem slice_keep (h : i + n ≤ a.length) : slice (a ++ b) i n = slice a i n := by
  rw [slice, slice, List.drop_append_of_le_length (by omega), List.take_append_of_le_length (by rw [List.length_drop]; omega)]

theorem slice_here (h : a.length = n) : slice (a ++ b) 0 n = a := by
  rw [slice, List.drop_zero, ← h, List.take_left]

theorem slice_all (h : a.length = n) : slice a 0 n = a := by
  rw [slice, List.drop_zero, ← h, List.take_length]

theorem fld_skip (h : a.length ≤ i) : fld (a ++ b) i n = fld b (i - a.length) n := by rw [fld, slice_skip h, fld]

theorem fld_keep (h : i + n ≤ a.length) : fld (a ++ b) i n = fld a i n := by rw [fld, slice_keep h, fld]

theorem fld_here (h : a.length = n) : fld (a ++ b) 0 n = ofBE a := by rw [fld, slice_here h]

theorem fld_be_here {v : Nat} : fld (be n v ++ b) 0 n = v % 256 ^ n := by rw [fld_here (length_be n v), ofBE_be]

theorem fld_be {v : Nat} : fld (be n v) 0 n = v % 256 ^ n := by rw [fld, slice_all (length_be n v), ofBE_be]

end

/-! ### Cells of a known length -/

/-- An optional field as a presence byte and its content or zeros. -/
theorem optBytes_eq (n : Nat) (o : Option (List Byte)) : optBytes n o = be 1 (bit o.isSome) ++ o.getD (zeros n) := by
  cases o <;> rfl

/-- The content of an optional field fills its place. -/
theorem length_getD_map {α : Type} (o : Option α) {f : α → List Byte} {n : Nat} (h : ∀ x, (f x).length = n) :
    ((o.map f).getD (zeros n)).length = n := by
  cases o <;> simp [h]

theorem boolByte_eq (b : Bool) : [boolByte b] = be 1 (bit b) := by cases b <;> rfl

@[simp] theorem bit_mod (b : Bool) : bit b % 256 = bit b := by cases b <;> rfl

@[simp] theorem bit_beq_one (b : Bool) : (bit b == 1) = b := by cases b <;> rfl

@[simp] theorem length_linkBytes (l : ChainLink) : (linkBytes l).length = 16 := by simp [linkBytes]
@[simp] theorem length_identityBytes (v : Volume) : (identityBytes v).length = 5 := by simp [identityBytes]
@[simp] theorem length_trailerBytes (t : TrailerTotals) : (trailerBytes t).length = 23 := by simp [trailerBytes]
@[simp] theorem length_countsBytes (c : Counts) : (countsBytes c).length = 38 := by simp [countsBytes]
@[simp] theorem length_settingsBytes (x : Settings) : (settingsBytes x).length = 12 := by simp [settingsBytes]
@[simp] theorem length_holdFields (h : Hold) : (holdFields h).length = 11 := by simp [holdFields]
@[simp] theorem length_retentionBytes (r : RetentionEntry) : (retentionBytes r).length = 5 := by simp [retentionBytes]
@[simp] theorem length_tariffBytes (e : TariffEntry) : (tariffBytes e).length = 7 := by simp [tariffBytes]

/-- Five counts and three totals read back. -/
theorem countsOf_countsBytes {c : Counts} (h : c.Fits) : countsOf (countsBytes c) = c := by
  obtain ⟨hcalls, hgaps, hdisorder, hbad, hunrated, hduration, hunits, hvolume⟩ := h
  simp [countsOf, countsBytes, fld_skip, fld_be_here, fld_be]
  simp (disch := omega) only [Nat.mod_eq_of_lt]

theorem trailerTotals_read {t : TrailerTotals} (h : t.count < 2 ^ 32 ∧ t.duration < 2 ^ 48 ∧ t.units < 2 ^ 48 ∧ t.volume < 2 ^ 48) :
    ({ count := fld (trailerBytes t) 0 4, duration := fld (trailerBytes t) 4 6, units := fld (trailerBytes t) 10 6,
       volume := fld (trailerBytes t) 16 6, crcGood := fld (trailerBytes t) 22 1 == 1 } : TrailerTotals) = t := by
  obtain ⟨hcount, hduration, hunits, hvolume⟩ := h
  simp [trailerBytes, boolByte_eq, fld_skip, fld_be_here, fld_be]
  simp (disch := omega) only [Nat.mod_eq_of_lt]

theorem chainLink_read {l : ChainLink} (h : l.index < 2 ^ 64) :
    ({ index := fld (linkBytes l) 0 8, value := BitVec.ofNat 64 (fld (linkBytes l) 8 8) } : ChainLink) = l := by
  simp [linkBytes, fld_skip, fld_be_here, fld_be]
  simp (disch := omega) [Nat.mod_eq_of_lt]

/-! ### Codes -/

theorem ofCode_lifeState (x : LifeState) : LifeState.ofCode (x.code % 256) = some x := by cases x <;> rfl

theorem ofCode_auditState (x : AuditState) : AuditState.ofCode (x.code % 256) = x := by cases x <;> rfl

theorem ofCode_segKind (x : SegKind) : SegKind.ofCode (x.code % 256) = some x := by cases x <;> rfl

/-- The flags as the number whose bits they are. -/
theorem code_reconcileFlags (f : ReconcileFlags) : f.code = bitSum [f.countDiff, f.durationDiff, f.unitsDiff, f.volumeDiff, f.seqGaps,
    f.badRecords, f.unrated, f.totalOverflow, f.trailerBad, f.futureDay] := by
  simp only [ReconcileFlags.code, bitSum, Nat.bit_val, bit, Bool.toNat, ← Bool.cond_eq_ite]
  omega

theorem ofCode_reconcileFlags (f : ReconcileFlags) : ReconcileFlags.ofCode f.code = f := by
  rw [code_reconcileFlags]
  simp only [ReconcileFlags.ofCode, testBit_bitSum]
  rfl

theorem code_reconcileFlags_lt (f : ReconcileFlags) : f.code < 256 ^ 2 := by
  rw [code_reconcileFlags]
  exact (bitSum_lt _).trans (show 2 ^ 10 < 256 ^ 2 by decide)

/-! ### The catalogue record -/

/-- An optional field reads back from its presence byte and its content. -/
theorem optField_eq {α β : Type} {b : List Byte} {i n : Nat} {o : Option α} {f : α → List Byte} {g : List Byte → β} {k : α → β}
    (hflag : fld b i 1 = bit (o.map f).isSome) (hcell : slice b (i + 1) n = (o.map f).getD (zeros n))
    (hread : ∀ x, o = some x → g (f x) = k x) : optField b i n g = o.map k := by
  cases o with
  | none => simp [optField, hflag, bit]
  | some x => simpa [optField, hflag, bit, hcell] using hread x rfl

/-- A catalogue record's body: its cells in order. -/
def catBody (v : Volume) : List Byte :=
  be 1 v.state.code ++ (be 2 v.window ++ (be 4 v.serial ++ (be 2 v.source ++ (be 2 v.day ++ (be 1 v.gen ++ (be 1 v.cls
    ++ (be 2 v.openedOn ++ (be 1 v.bank ++ (be 1 v.audit.code ++ (be 1 (bit (v.flags.map fun f => be 2 f.code).isSome)
    ++ ((v.flags.map fun f => be 2 f.code).getD (zeros 2) ++ (be 1 (bit (v.trailer.map trailerBytes).isSome)
    ++ ((v.trailer.map trailerBytes).getD (zeros 23) ++ (countsBytes v.counts ++ (be 4 v.ingest ++ (be 4 v.segments
    ++ (be 1 (bit (v.digest.map fun d => be 8 d.toNat).isSome) ++ ((v.digest.map fun d => be 8 d.toNat).getD (zeros 8)
    ++ (be 1 (bit (v.chain.map linkBytes).isSome) ++ ((v.chain.map linkBytes).getD (zeros 16)
    ++ (be 1 (bit (v.supersededOn.map (be 2)).isSome) ++ ((v.supersededOn.map (be 2)).getD (zeros 2)
    ++ (be 1 (bit (v.expiry.map (be 3)).isSome) ++ ((v.expiry.map (be 3)).getD (zeros 3)
    ++ zeros 129))))))))))))))))))))))))

theorem length_catBody (v : Volume) : (catBody v).length = 252 := by
  simp [catBody, length_getD_map]

theorem catRecordBytes_some (v : Volume) : catRecordBytes (some v) = catBody v ++ be 4 (crc32 (catBody v)).toNat := by
  have hbody : catBody v = padTo 252 (be 1 v.state.code ++ be 2 v.window ++ be 4 v.serial ++ identityBytes v ++ be 1 v.cls
      ++ be 2 v.openedOn ++ be 1 v.bank ++ be 1 v.audit.code ++ optBytes 2 (v.flags.map fun f => be 2 f.code)
      ++ optBytes 23 (v.trailer.map trailerBytes) ++ countsBytes v.counts ++ be 4 v.ingest ++ be 4 v.segments
      ++ optBytes 8 (v.digest.map fun d => be 8 d.toNat) ++ optBytes 16 (v.chain.map linkBytes)
      ++ optBytes 2 (v.supersededOn.map (be 2)) ++ optBytes 3 (v.expiry.map (be 3))) := by
    simp [catBody, padTo, optBytes_eq, identityBytes, length_getD_map]
  rw [hbody]
  rfl

theorem length_catRecordBytes (v : Volume) : (catRecordBytes (some v)).length = 256 := by
  simp [catRecordBytes_some, length_catBody]

/-- A catalogue record passes its check. -/
theorem catRecord_checked (v : Volume) :
    (crc32 ((catRecordBytes (some v)).take 252)).toNat = fld (catRecordBytes (some v)) 252 4 := by
  have hcrc := (crc32 (catBody v)).isLt
  rw [catRecordBytes_some, List.take_left' (length_catBody v), fld_skip (length_catBody v).le, length_catBody, Nat.sub_self, fld_be]
  exact (Nat.mod_eq_of_lt hcrc).symm

/-- Settles O11: each field of the record is the cell at its place. -/
theorem catalogueRecordsReadBack : Obligations.CatalogueRecordsReadBack := by
  refine ⟨fun v h => ⟨length_catRecordBytes v, ?volume⟩, fun w => ?free⟩
  case volume =>
    obtain ⟨hserial, hsource, hday, hgen, hcls, hopened, hbank, htrailer, hcounts, hingest, hsegments, hchain, hsuper, hexpiry⟩ := h
    have hslice {i n : Nat} (hi : i + n ≤ 252) : slice (catRecordBytes (some v)) i n = slice (catBody v) i n := by
      rw [catRecordBytes_some, slice_keep (by rwa [length_catBody])]
    have hfld {i n : Nat} (hi : i + n ≤ 252) : fld (catRecordBytes (some v)) i n = fld (catBody v) i n := by
      rw [fld, hslice hi, fld]
    have hflags : optField (catRecordBytes (some v)) 17 2 (fun x => ReconcileFlags.ofCode (ofBE x)) = v.flags := by
      refine (optField_eq (f := fun f => be 2 f.code) (k := id) ?_ ?_ fun f _ => ?_).trans (congrFun Option.map_id _)
      · simp [hfld, catBody, fld_skip, fld_be_here]
      · simp [hslice, catBody, slice_skip, slice_here, length_getD_map]
      · rw [ofBE_be, Nat.mod_eq_of_lt (code_reconcileFlags_lt f), ofCode_reconcileFlags, id]
    have htotals : optField (catRecordBytes (some v)) 20 23 (fun x =>
        ({ count := fld x 0 4, duration := fld x 4 6, units := fld x 10 6, volume := fld x 16 6, crcGood := fld x 22 1 == 1 } :
          TrailerTotals)) = v.trailer := by
      refine (optField_eq (f := trailerBytes) (k := id) ?_ ?_ fun t ht => ?_).trans (congrFun Option.map_id _)
      · simp [hfld, catBody, fld_skip, fld_be_here, length_getD_map]
      · simp [hslice, catBody, slice_skip, slice_here, length_getD_map]
      · exact trailerTotals_read (htrailer t ht)
    have hdigest : optField (catRecordBytes (some v)) 90 8 (fun x => BitVec.ofNat 64 (ofBE x)) = v.digest := by
      refine (optField_eq (f := fun d => be 8 d.toNat) (k := id) ?_ ?_ fun d _ => ?_).trans (congrFun Option.map_id _)
      · simp [hfld, catBody, fld_skip, fld_be_here, length_getD_map]
      · simp [hslice, catBody, slice_skip, slice_here, length_getD_map]
      · rw [ofBE_be, Nat.mod_eq_of_lt (show d.toNat < 256 ^ 8 from d.isLt), BitVec.ofNat_toNat, BitVec.setWidth_eq, id]
    have hlink : optField (catRecordBytes (some v)) 99 16
        (fun x => ({ index := fld x 0 8, value := BitVec.ofNat 64 (fld x 8 8) } : ChainLink)) = v.chain := by
      refine (optField_eq (f := linkBytes) (k := id) ?_ ?_ fun l hl => ?_).trans (congrFun Option.map_id _)
      · simp [hfld, catBody, fld_skip, fld_be_here, length_getD_map]
      · simp [hslice, catBody, slice_skip, slice_here, length_getD_map]
      · exact chainLink_read (hchain l hl)
    have hsuperseded : optField (catRecordBytes (some v)) 116 2 ofBE = v.supersededOn := by
      refine (optField_eq (f := be 2) (k := id) ?_ ?_ fun d hd => ?_).trans (congrFun Option.map_id _)
      · simp [hfld, catBody, fld_skip, fld_be_here, length_getD_map]
      · simp [hslice, catBody, slice_skip, slice_here, length_getD_map]
      · exact (ofBE_be ..).trans (Nat.mod_eq_of_lt (hsuper d hd))
    have hexpires : optField (catRecordBytes (some v)) 119 3 ofBE = v.expiry := by
      refine (optField_eq (f := be 3) (k := id) ?_ ?_ fun d hd => ?_).trans (congrFun Option.map_id _)
      · simp [hfld, catBody, fld_skip, fld_be_here, length_getD_map]
      · simp [hslice, catBody, slice_skip, slice_here, length_getD_map]
      · exact (ofBE_be ..).trans (Nat.mod_eq_of_lt (hexpiry d hd))
    have hrun : countsOf (slice (catRecordBytes (some v)) 44 38) = v.counts := by
      have hcell : slice (catRecordBytes (some v)) 44 38 = countsBytes v.counts := by
        simp [hslice, catBody, slice_skip, slice_here, length_getD_map]
      rw [hcell, countsOf_countsBytes hcounts]
    have hstate : LifeState.ofCode (fld (catRecordBytes (some v)) 0 1) = some v.state := by
      rw [hfld (by decide), catBody, fld_be_here]
      exact ofCode_lifeState v.state
    have haudit : AuditState.ofCode (fld (catRecordBytes (some v)) 16 1) = v.audit := by
      refine Eq.trans ?_ (ofCode_auditState v.audit)
      simp [hfld, catBody, fld_skip, fld_be_here]
    rw [parseCatRecord, if_neg (by simp [catRecord_checked]), hstate, Option.map_some, haudit, hflags, htotals, hdigest, hlink,
      hsuperseded, hexpires, hrun]
    simp [hfld, catBody, fld_skip, fld_be_here, length_getD_map]
    simp (disch := omega) only [Nat.mod_eq_of_lt]
    rfl
  case free =>
    have hfree : LifeState.ofCode (fld (catRecordBytes none) 0 1) = none := by
      have hzeros : padTo 252 ([] : List Byte) = be 1 0 ++ zeros 251 := rfl
      rw [catRecordBytes, hzeros, List.append_assoc, fld_be_here]
      rfl
    rw [parseCatRecord, hfree, Option.map_none, ite_self]

/-! ### The settings block -/

/-- Items of one length, laid one behind the other, read back. -/
theorem itemsOf_flatMap {α : Type} {f : α → List Byte} {g : List Byte → α} {len : Nat} {xs : List α}
    (h : ∀ x ∈ xs, (f x).length = len ∧ g (f x) = x) (rest : List Byte) : itemsOf g len xs.length (xs.flatMap f ++ rest) = xs := by
  induction xs with
  | nil => rfl
  | cons x xs ih =>
    obtain ⟨hlen, hread⟩ := h x List.mem_cons_self
    rw [List.flatMap_cons, List.append_assoc, List.length_cons, itemsOf, List.take_left' hlen, List.drop_left' hlen, hread,
      ih fun y hy => h y (List.mem_cons_of_mem x hy)]

theorem length_flatMap_of {α : Type} {f : α → List Byte} {len : Nat} {xs : List α} (h : ∀ x, (f x).length = len) :
    (xs.flatMap f).length = xs.length * len := by
  induction xs with
  | nil => simp
  | cons x xs ih => simp [ih, h, Nat.add_mul, Nat.add_comm]

theorem settingsOf_settingsBytes {x : Settings} (h : x.Fits) : settingsOf (settingsBytes x) = x := by
  obtain ⟨hidle, htimeout, hspace, hhigh, hmask, hpatrol⟩ := h
  obtain ⟨mode, policy, idleLimit, idleUnit, storeTimeout, linkLoss, spaceLow, journalHigh, maskLevel, patrolRate, readAhead⟩ := x
  have hmode : (if mode.code % 256 = 1 then CompletionMode.committed else .posted) = mode := by cases mode <;> rfl
  have hunit : (if idleUnit.code % 256 = 1 then IdleUnit.minutes else .seconds) = idleUnit := by cases idleUnit <;> rfl
  have hloss : (if linkLoss.code % 256 = 1 then LinkLoss.fail else .hold) = linkLoss := by cases linkLoss <;> rfl
  simp [settingsOf, settingsBytes, fld_skip, fld_be_here, fld_be, hmode, hunit, hloss]
  exact ⟨by cases policy <;> rfl, hidle, htimeout, hspace, hhigh, hmask, hpatrol⟩

theorem retentionOf_retentionBytes {r : RetentionEntry} (h : r.days < 2 ^ 16 ∧ r.grace < 2 ^ 16) :
    retentionOf (retentionBytes r) = r := by
  obtain ⟨hdays, hgrace⟩ := h
  obtain ⟨days, grace, choice⟩ := r
  have hchoice : (if choice.code % 256 = 1 then Choice.abandon else .resume) = choice := by cases choice <;> rfl
  simp [retentionOf, retentionBytes, fld_skip, fld_be_here, fld_be, hchoice]
  exact ⟨hdays, hgrace⟩

theorem tariffOf_tariffBytes (e : TariffEntry) : tariffOf (tariffBytes e) = e := by
  obtain ⟨grace, initial, step, rate⟩ := e
  have := grace.isLt
  have := initial.isLt
  have := step.isLt
  have := rate.isLt
  simp [tariffOf, tariffBytes, fld_skip, fld_be_here, fld_be]
  simp (disch := omega) [Nat.mod_eq_of_lt]

theorem holdOf_holdFields {h : Hold} (hf : h.id < 2 ^ 16 ∧ (∀ n, h.source = some n → n < 2 ^ 16) ∧ h.first < 2 ^ 16
    ∧ h.last < 2 ^ 16 ∧ h.placedOn < 2 ^ 16) : holdOf (holdFields h) = h := by
  obtain ⟨hid, hsource, hfirst, hlast, hplaced⟩ := hf
  obtain ⟨id, source, first, last, placedOn⟩ := h
  dsimp only at hid hsource hfirst hlast hplaced
  have hread : (if source = none then none else some (source.getD 0 % 65536)) = source := by
    cases source with
    | none => rfl
    | some n => simpa using hsource n rfl
  simp [holdOf, holdFields, boolByte_eq, fld_skip, fld_be_here, fld_be]
  exact ⟨hid, hread, hfirst, hlast, hplaced⟩

/-- A settings block's body: its cells in order. -/
def storedCells (x : Stored) : List Byte :=
  be 8 Config.settingsMarker.toNat ++ (settingsBytes x.settings ++ (be 16 x.marker.toNat ++ (be 2 x.day
    ++ (x.table.flatMap retentionBytes ++ (x.bank0.flatMap tariffBytes ++ (x.bank1.flatMap tariffBytes ++ (be 1 x.active
    ++ (be 1 x.holds.length ++ ((x.holds.flatMap holdFields ++ zeros (704 - 11 * x.holds.length)) ++ (be 8 x.floor.index
    ++ (be 8 x.floor.value.toNat ++ (be 4 x.serial ++ (be 1 x.j ++ (be 8 x.readPtr ++ zeros 2383))))))))))))))

section
variable {x : Stored} (h : x.Fits)
include h

theorem length_tables : (x.table.flatMap retentionBytes).length = 40 ∧ (x.bank0.flatMap tariffBytes).length = 448
    ∧ (x.bank1.flatMap tariffBytes).length = 448
    ∧ (x.holds.flatMap holdFields ++ zeros (704 - 11 * x.holds.length)).length = 704 := by
  have hholds := h.holds
  rw [length_flatMap_of length_retentionBytes, h.table, length_flatMap_of length_tariffBytes, h.bank0,
    length_flatMap_of length_tariffBytes, h.bank1, List.length_append, length_zeros, length_flatMap_of length_holdFields]
  exact ⟨rfl, rfl, rfl, by omega⟩

theorem length_storedCells : (storedCells x).length = 4092 := by
  obtain ⟨htable, hbank0, hbank1, hholds⟩ := length_tables h
  rw [storedCells]
  generalize x.table.flatMap retentionBytes = T at *
  generalize x.bank0.flatMap tariffBytes = A at *
  generalize x.bank1.flatMap tariffBytes = B at *
  generalize x.holds.flatMap holdFields ++ zeros (704 - 11 * x.holds.length) = H at *
  simp [htable, hbank0, hbank1, hholds]

theorem storedBody_eq : storedBody x = storedCells x := by
  obtain ⟨htable, hbank0, hbank1, hholds⟩ := length_tables h
  have hlen : (x.holds.flatMap holdFields).length = 11 * x.holds.length := by
    rw [length_flatMap_of length_holdFields, Nat.mul_comm]
  have hpad {n : Nat} {bs : List Byte} (hb : bs.length = n) : padTo n bs = bs := by simp [padTo, hb]; rfl
  rw [storedBody, storedCells, hpad htable, hpad hbank0, hpad hbank1, padTo, padTo, hlen]
  generalize x.table.flatMap retentionBytes = T at *
  generalize x.bank0.flatMap tariffBytes = A at *
  generalize x.bank1.flatMap tariffBytes = B at *
  generalize x.holds.flatMap holdFields ++ zeros (704 - 11 * x.holds.length) = H at *
  simp [htable, hbank0, hbank1, hholds, linkBytes]

theorem storedBlock_eq : storedBlock x = storedCells x ++ be 4 (crc32 (storedCells x)).toNat := by
  rw [storedBlock, storedBody_eq h]

/-- The fields of a settings block, each the cell at its place. -/
theorem storedCells_fields :
    fld (storedCells x) 0 8 = Config.settingsMarker.toNat % 256 ^ 8 ∧ slice (storedCells x) 8 12 = settingsBytes x.settings
    ∧ fld (storedCells x) 20 16 = x.marker.toNat % 256 ^ 16 ∧ fld (storedCells x) 36 2 = x.day % 256 ^ 2
    ∧ slice (storedCells x) 38 40 = x.table.flatMap retentionBytes ∧ slice (storedCells x) 78 448 = x.bank0.flatMap tariffBytes
    ∧ slice (storedCells x) 526 448 = x.bank1.flatMap tariffBytes ∧ fld (storedCells x) 974 1 = x.active % 256 ^ 1
    ∧ fld (storedCells x) 975 1 = x.holds.length % 256 ^ 1
    ∧ slice (storedCells x) 976 704 = x.holds.flatMap holdFields ++ zeros (704 - 11 * x.holds.length)
    ∧ fld (storedCells x) 1680 8 = x.floor.index % 256 ^ 8 ∧ fld (storedCells x) 1688 8 = x.floor.value.toNat % 256 ^ 8
    ∧ fld (storedCells x) 1696 4 = x.serial % 256 ^ 4 ∧ fld (storedCells x) 1700 1 = x.j % 256 ^ 1
    ∧ fld (storedCells x) 1701 8 = x.readPtr % 256 ^ 8 := by
  obtain ⟨htable, hbank0, hbank1, hholds⟩ := length_tables h
  rw [storedCells]
  generalize x.table.flatMap retentionBytes = T at *
  generalize x.bank0.flatMap tariffBytes = A at *
  generalize x.bank1.flatMap tariffBytes = B at *
  generalize x.holds.flatMap holdFields ++ zeros (704 - 11 * x.holds.length) = H at *
  simp [fld_skip, fld_be_here, slice_skip, slice_here, htable, hbank0, hbank1, hholds]

end

/-- Settles O12: each field of the block is the cell at its place. -/
theorem settingsBlocksReadBack : Obligations.SettingsBlocksReadBack := by
  intro x h
  have hlen := length_storedCells h
  refine ⟨by simp [storedBlock_eq h, hlen], ?_⟩
  have hcrc : (crc32 ((storedBlock x).take 4092)).toNat = fld (storedBlock x) 4092 4 := by
    rw [storedBlock_eq h, List.take_left' hlen, fld_skip hlen.le, hlen, Nat.sub_self, fld_be]
    exact (Nat.mod_eq_of_lt (crc32 (storedCells x)).isLt).symm
  have hslice {i n : Nat} (hi : i + n ≤ 4092) : slice (storedBlock x) i n = slice (storedCells x) i n := by
    rw [storedBlock_eq h, slice_keep (by rwa [hlen])]
  have hfld {i n : Nat} (hi : i + n ≤ 4092) : fld (storedBlock x) i n = fld (storedCells x) i n := by
    rw [fld, hslice hi, fld]
  obtain ⟨hmarker, hsettings, hsign, hday, htable, hbank0, hbank1, hactive, hcount, hholds, hindex, hvalue, hserial, hj, hread⟩ :=
    storedCells_fields h
  have hmark : Config.settingsMarker.toNat < 256 ^ 8 := Config.settingsMarker.isLt
  rw [parseStored, if_pos (by simpa [hcrc, hfld, hmarker] using hmark)]
  have hentries : itemsOf retentionOf 5 8 (x.table.flatMap retentionBytes) = x.table := by
    have := itemsOf_flatMap (fun e he => ⟨length_retentionBytes e, retentionOf_retentionBytes (h.entries e he)⟩) []
    rwa [List.append_nil, h.table] at this
  have hbank (b : List TariffEntry) (hb : b.length = 64) : itemsOf tariffOf 7 64 (b.flatMap tariffBytes) = b := by
    have := itemsOf_flatMap (xs := b) (fun e _ => ⟨length_tariffBytes e, tariffOf_tariffBytes e⟩) []
    rwa [List.append_nil, hb] at this
  have hlist : itemsOf holdOf 11 x.holds.length (x.holds.flatMap holdFields ++ zeros (704 - 11 * x.holds.length)) = x.holds :=
    itemsOf_flatMap (fun k hk => ⟨length_holdFields k, holdOf_holdFields (h.hold k hk)⟩) _
  have hmin : min (x.holds.length % 256 ^ 1) 64 = x.holds.length := by
    have := h.holds
    omega
  have hfit {v : Nat} (n : Nat) (hv : v < 256 ^ n) : v % 256 ^ n = v := Nat.mod_eq_of_lt hv
  have hvalues : BitVec.ofNat 128 (x.marker.toNat % 256 ^ 16) = x.marker ∧ BitVec.ofNat 64 (x.floor.value.toNat % 256 ^ 8) = x.floor.value := by
    rw [hfit 16 x.marker.isLt, hfit 8 x.floor.value.isLt]
    simp
  simp only [hslice, hfld, Nat.reduceAdd, Nat.reduceLeDiff, hsettings, hsign, hday, htable, hbank0, hbank1, hactive, hcount, hholds,
    hindex, hvalue, hserial, hj, hread, settingsOf_settingsBytes h.settings, hentries, hbank _ h.bank0, hbank _ h.bank1, hmin, hlist,
    hvalues]
  rw [hfit 2 h.day, hfit 1 h.active, hfit 8 h.floor, hfit 4 h.serial, hfit 1 h.j, hfit 8 h.readPtr]

end Sys2Proof.Machine
end

section
/-! Directives in their block form: the body of each code reads back as the command it spells, and the statement O10. -/

namespace Sys2Proof.Machine

/-! ### Fields of a body -/

theorem fld_cons_zero (b : Byte) (l : List Byte) : fld (b :: l) 0 1 = b.toNat := by simp [fld, slice, ofBE]

theorem fld_cons_skip {i : Nat} (h : 1 ≤ i) (b : Byte) (l : List Byte) (n : Nat) : fld (b :: l) i n = fld l (i - 1) n :=
  fld_skip (a := [b]) h

/-- A bit vector written as bytes is read back. -/
theorem ofNat_be_field {w n : Nat} (h : 8 * n = w) (x : BitVec w) : BitVec.ofNat w (x.toNat % 256 ^ n) = x := by
  have hx : x.toNat < 256 ^ n := by
    have hw : 256 ^ n = 2 ^ w := by rw [← h, Nat.pow_mul]
    rw [hw]
    exact x.isLt
  rw [Nat.mod_eq_of_lt hx, BitVec.ofNat_toNat, BitVec.setWidth_eq]

theorem bodyField_word {l : List Byte} {n i w : Nat} {x : BitVec w} (h : 8 * n = w) (hf : fld l i n = x.toNat % 256 ^ n) :
    bodyField w l i n = x := by
  rw [bodyField, hf, ofNat_be_field h]

/-- Window and serial, or any word and long word in that place, are read back from the body's first six bytes. -/
theorem bodyField_nameBytes (w : BitVec 16) (n : BitVec 32) (rest : List Byte) :
    bodyField 16 (nameBytes w n ++ rest) 0 2 = w ∧ bodyField 32 (nameBytes w n ++ rest) 2 4 = n :=
  ⟨bodyField_word rfl (by simp [nameBytes, fld_be_here]), bodyField_word rfl (by simp [nameBytes, fld_skip, fld_be_here])⟩

theorem length_nameBytes (w : BitVec 16) (n : BitVec 32) : (nameBytes w n).length = 6 := by simp [nameBytes]

theorem length_loadBytes (e : TariffEntry) : (loadBytes e).length = 8 := by simp [loadBytes]

/-- The entries of a TARIFF_LOAD body are read back. -/
theorem tariffEntriesOf_flatMap (es : List TariffEntry) : tariffEntriesOf es.length (es.flatMap loadBytes) = some es := by
  induction es with
  | nil => rfl
  | cons e es ih =>
    have hzero : fld (loadBytes e ++ es.flatMap loadBytes) 1 1 = 0 := by simp [loadBytes, fld_cons_skip, fld_cons_zero]
    have hgrace : bodyField 8 (loadBytes e ++ es.flatMap loadBytes) 0 1 = e.grace := by
      simp [bodyField, loadBytes, fld_cons_zero]
    have hinitial : bodyField 16 (loadBytes e ++ es.flatMap loadBytes) 2 2 = e.initial :=
      bodyField_word rfl (by simp [loadBytes, fld_cons_skip, fld_be_here])
    have hstep : bodyField 16 (loadBytes e ++ es.flatMap loadBytes) 4 2 = e.step :=
      bodyField_word rfl (by simp [loadBytes, fld_cons_skip, fld_skip, fld_be_here])
    have hrate : bodyField 16 (loadBytes e ++ es.flatMap loadBytes) 6 2 = e.rate :=
      bodyField_word rfl (by simp [loadBytes, fld_cons_skip, fld_skip, fld_be_here])
    rw [List.flatMap_cons, List.length_cons, tariffEntriesOf, hzero, List.drop_left' (length_loadBytes e), ih, hgrace, hinitial, hstep,
      hrate]
    rfl

theorem configureOf_configureBytes (b : ConfigureBody) : configureOf (configureBytes b) = b := by
  have hmask : bodyField 16 (configureBytes b) 0 2 = b.mask := bodyField_word rfl (by simp [configureBytes, fld_be_here])
  have hspace : bodyField 16 (configureBytes b) 8 2 = b.spaceLow :=
    bodyField_word rfl (by simp [configureBytes, fld_skip, fld_cons_skip, fld_be_here])
  simp only [configureOf, hmask, hspace]
  simp [bodyField, configureBytes, fld_skip, fld_cons_skip, fld_cons_zero]

/-! ### The body of each code -/

/-- A directive's body has the length of its code, and spells the directive. -/
theorem directiveForm_reads {c : Instr} {tag : Byte} {code : Nat} {ref : BitVec 32} {body : List Byte} (ht : c.directiveTag = some tag)
    (hwf : c.wf = true) (hf : directiveForm c = some (code, ref, body)) :
    body.length ≤ 4068 ∧ code < 256 ^ 2 ∧ bodyLength code body = some body.length ∧ directiveCommand tag ref code body = some c := by
  cases c with
  | configure t r b =>
    cases ht; cases hf
    have hlen : (configureBytes b).length = 14 := by simp [configureBytes]
    rw [hlen]
    exact ⟨by decide, by decide, rfl, congrArg (fun x => some (Instr.configure tag ref x)) (configureOf_configureBytes b)⟩
  | signature t r m =>
    cases ht; cases hf
    rw [length_be]
    refine ⟨by decide, by decide, rfl, congrArg (fun x => some (Instr.signature tag ref x)) (bodyField_word (n := 16) rfl fld_be)⟩
  | report t r => cases ht; cases hf; exact ⟨by decide, by decide, rfl, rfl⟩
  | inquire t r w f | close t r w f | accept t r w f | verify t r w f | revoke t r w f =>
    cases ht; cases hf
    have h := bodyField_nameBytes w f []
    rw [List.append_nil] at h
    rw [length_nameBytes]
    exact ⟨by decide, by decide, rfl, by simp only [directiveCommand, h]⟩
  | resolveResume t r w n | resolveAbandon t r w n =>
    cases ht; cases hf
    rw [List.length_append, length_nameBytes]
    refine ⟨by decide, by decide, rfl, ?_⟩
    rw [directiveCommand, fld_skip (length_nameBytes w n).le, length_nameBytes, fld_cons_zero, (bodyField_nameBytes w n _).1,
      (bodyField_nameBytes w n _).2]
    rfl
  | tariffLoad t r b f es =>
    cases ht; cases hf
    have hn : es.length ≤ 255 := by simpa [Instr.wf, tariffListWf] using hwf
    have hcount : fld ([b, f, BitVec.ofNat 8 es.length] ++ es.flatMap loadBytes) 2 1 = es.length := by
      simp [fld_cons_skip, fld_cons_zero]; omega
    have hlen : ([b, f, BitVec.ofNat 8 es.length] ++ es.flatMap loadBytes).length = 3 + 8 * es.length := by
      rw [List.length_append, length_flatMap_of length_loadBytes, Nat.mul_comm]; rfl
    rw [hlen]
    refine ⟨by omega, by decide, by rw [bodyLength, hcount], ?_⟩
    have hentries : ([b, f, BitVec.ofNat 8 es.length] ++ es.flatMap loadBytes).drop 3 = es.flatMap loadBytes := rfl
    rw [directiveCommand, hcount, hentries, tariffEntriesOf_flatMap]
    simp [bodyField, fld_cons_zero, fld_cons_skip]
  | tariffSelect t r b =>
    cases ht; cases hf
    exact ⟨Nat.le_add_left 1 4067, by decide, rfl, by simp [directiveCommand, bodyField, fld_cons_zero]⟩
  | calendar t r d =>
    cases ht; cases hf
    rw [length_be]
    exact ⟨by decide, by decide, rfl, congrArg (fun x => some (Instr.calendar tag ref x)) (bodyField_word (n := 2) rfl fld_be)⟩
  | release t r d =>
    cases ht; cases hf
    rw [length_be]
    exact ⟨by decide, by decide, rfl, congrArg (fun x => some (Instr.release tag ref x)) (bodyField_word (n := 2) rfl fld_be)⟩
  | clearAttention t r d =>
    cases ht; cases hf
    rw [length_be]
    exact ⟨by decide, by decide, rfl, congrArg (fun x => some (Instr.clearAttention tag ref x)) (bodyField_word (n := 2) rfl fld_be)⟩
  | retention t r k d g choice =>
    cases ht; cases hf
    have hdays : bodyField 16 ([k] ++ be 2 d.toNat ++ be 2 g.toNat ++ [choice]) 1 2 = d :=
      bodyField_word rfl (by simp [fld_cons_skip, fld_be_here])
    have hgrace : bodyField 16 ([k] ++ be 2 d.toNat ++ be 2 g.toNat ++ [choice]) 3 2 = g :=
      bodyField_word rfl (by simp [fld_cons_skip, fld_skip, fld_be_here])
    refine ⟨by simp, by decide, by simp [bodyLength], ?_⟩
    rw [directiveCommand, hdays, hgrace]
    simp [bodyField, fld_cons_zero, fld_cons_skip, fld_skip]
  | hold t r i a n f l =>
    cases ht; cases hf
    have hid : bodyField 16 (be 2 i.toNat ++ [a] ++ be 2 n.toNat ++ be 2 f.toNat ++ be 2 l.toNat) 0 2 = i :=
      bodyField_word rfl (by simp [fld_be_here])
    have hany : bodyField 8 (be 2 i.toNat ++ [a] ++ be 2 n.toNat ++ be 2 f.toNat ++ be 2 l.toNat) 2 1 = a := by
      simp [bodyField, fld_skip, fld_cons_zero]
    have hsource : bodyField 16 (be 2 i.toNat ++ [a] ++ be 2 n.toNat ++ be 2 f.toNat ++ be 2 l.toNat) 3 2 = n :=
      bodyField_word rfl (by simp [fld_cons_skip, fld_skip, fld_be_here])
    have hfirst : bodyField 16 (be 2 i.toNat ++ [a] ++ be 2 n.toNat ++ be 2 f.toNat ++ be 2 l.toNat) 5 2 = f :=
      bodyField_word rfl (by simp [fld_cons_skip, fld_skip, fld_be_here])
    have hlast : bodyField 16 (be 2 i.toNat ++ [a] ++ be 2 n.toNat ++ be 2 f.toNat ++ be 2 l.toNat) 7 2 = l :=
      bodyField_word rfl (by simp [fld_cons_skip, fld_skip, fld_be])
    refine ⟨by simp, by decide, by simp [bodyLength], ?_⟩
    rw [directiveCommand, hid, hany, hsource, hfirst, hlast]
  | _ => cases ht

/-! ### The block -/

/-- A directive block without its check. -/
def directiveBytes (marker : BitVec 128) (code : Nat) (ref : BitVec 32) (body : List Byte) : List Byte :=
  be 16 marker.toNat ++ (be 2 code ++ (be 4 ref.toNat ++ (be 2 body.length ++ (body ++ zeros (4068 - body.length)))))

section
variable {marker : BitVec 128} {code : Nat} {ref : BitVec 32} {body : List Byte}

theorem directiveBlock_eq : directiveBlock marker code ref body = directiveBytes marker code ref body
    ++ be 4 (crc32 (directiveBytes marker code ref body)).toNat := by
  have hbytes : padTo 4092 (be 16 marker.toNat ++ be 2 code ++ be 4 ref.toNat ++ be 2 body.length ++ body)
      = directiveBytes marker code ref body := by
    have hlen : 4092 - (16 + (2 + (4 + (2 + body.length)))) = 4068 - body.length := by omega
    simp [padTo, directiveBytes, hlen]
  rw [directiveBlock, hbytes]

theorem length_directiveBytes (h : body.length ≤ 4068) : (directiveBytes marker code ref body).length = 4092 := by
  simp [directiveBytes]; omega

/-- The fields of a directive block (12.2). -/
theorem directiveBlock_fields (h : body.length ≤ 4068) (hc : code < 256 ^ 2) :
    fld (directiveBlock marker code ref body) 0 16 = marker.toNat % 256 ^ 16 ∧ fld (directiveBlock marker code ref body) 16 2 = code
    ∧ fld (directiveBlock marker code ref body) 18 4 = ref.toNat % 256 ^ 4 ∧ fld (directiveBlock marker code ref body) 22 2 = body.length
    ∧ slice (directiveBlock marker code ref body) 24 body.length = body := by
  have hcode : code % 65536 = code := Nat.mod_eq_of_lt hc
  have hlen : body.length % 65536 = body.length := Nat.mod_eq_of_lt (by omega)
  rw [directiveBlock_eq, directiveBytes]
  refine ⟨?_, ?_, ?_, ?_, ?_⟩ <;> simp [fld_skip, fld_be_here, slice_skip, slice_here, hcode, hlen]

end

/-- Settles O10: the block's fields, its check, and the body read back by its code. -/
theorem directiveBlocksDecodeBack : Obligations.DirectiveBlocksDecodeBack := by
  intro c tag marker code ref body ht hwf hf
  obtain ⟨hlen, hcode, hlength, hcommand⟩ := directiveForm_reads ht hwf hf
  obtain ⟨hmarker, hfcode, hfref, hflen, hfbody⟩ := directiveBlock_fields (marker := marker) (ref := ref) hlen hcode
  have hbytes : (directiveBytes marker code ref body).length = 4092 := length_directiveBytes hlen
  refine ⟨by simp [directiveBlock_eq, hbytes], ?_, ?_, ?_⟩
  · rw [directiveMarker, hmarker, ofNat_be_field (n := 16) rfl]
  · rw [directiveBlock_eq, directiveCheckGood_append _ hbytes, Nat.mod_eq_of_lt (BitVec.isLt _), beq_self_eq_true]
  · have hread : BitVec.ofNat 32 (fld (directiveBlock marker code ref body) 18 4) = ref := by rw [hfref, ofNat_be_field (n := 4) rfl]
    simp [decodeDirective, hfcode, hflen, hfbody, hlength, Nat.not_lt.mpr hlen, hread, hcommand]

end Sys2Proof.Machine
end

section
/-! The record coder and its decoder undo each other (4.3, 4.4): fields, base-128 numbers, phone numbers, the mask; and the
statement O9. -/

namespace Sys2Proof.Machine

/-! ### Bytes and the numbers they spell -/

/-- The number that bytes spell, written with as many bytes, is those bytes. -/
theorem be_ofBE (bs : List Byte) : be bs.length (ofBE bs) = bs := by
  induction bs with
  | nil => rfl
  | cons b bs ih =>
    have hlt := ofBE_lt bs
    have htop : (b.toNat * 256 ^ bs.length + ofBE bs) >>> (8 * bs.length) = b.toNat := by
      rw [Nat.shiftRight_eq_div_pow, Nat.pow_mul, Nat.mul_comm, Nat.mul_add_div (Nat.pow_pos (by decide)), Nat.div_eq_of_lt hlt,
        Nat.add_zero]
    have hlow (n v : Nat) : be n (v % 256 ^ n) = be n v := by
      have hbe (m k : Nat) (h : m ≤ k) : be m (v % 256 ^ k) = be m v := by
        induction m with
        | zero => rfl
        | succ m ihm =>
          rw [be, be, ihm (by omega)]
          congr 1
          refine BitVec.eq_of_toNat_eq ?_
          have hpow : 256 ^ k = 256 ^ m * (256 * 256 ^ (k - (m + 1))) := by
            rw [← Nat.pow_succ', ← Nat.pow_add]; congr 1; omega
          rw [BitVec.toNat_ofNat, BitVec.toNat_ofNat, Nat.shiftRight_eq_div_pow, Nat.shiftRight_eq_div_pow, Nat.pow_mul, hpow,
            show (2 : Nat) ^ 8 = 256 from rfl, Nat.mod_mul_right_div_self, Nat.mod_mul_right_mod]
      exact hbe n n le_rfl
    rw [ofBE_cons, List.length_cons, be, htop, ← hlow, Nat.mul_comm, Nat.mul_add_mod, hlow, ih]
    simp

theorem length_slice {bs : List Byte} {i n : Nat} (h : i + n ≤ bs.length) : (slice bs i n).length = n := by
  simp [slice]; omega

/-- A field written out is the bytes it was read from. -/
theorem be_fld {bs : List Byte} {i n : Nat} (h : i + n ≤ bs.length) : be n (fld bs i n) = slice bs i n := by
  have := be_ofBE (slice bs i n)
  rwa [length_slice h] at this

/-- Neighbouring slices join. -/
theorem slice_append_slice (bs : List Byte) (i m n : Nat) : slice bs i m ++ slice bs (i + m) n = slice bs i (m + n) := by
  rw [slice, slice, slice, List.take_add, List.drop_drop]

/-! ### Fields with a flag -/

theorem takeN_append {a : List Byte} {n : Nat} (h : a.length = n) (rest : List Byte) : takeN n (a ++ rest) = some (a, rest) := by
  subst h
  simp [takeN]

/-- A field that stands when its flag does is read back. -/
theorem readField_when (f : Bool) {n x : Nat} (hx : x < 256 ^ n) (dflt : Nat) (rest : List Byte) :
    readField f n dflt (when f (be n x) ++ rest) = some (if f then x else dflt, rest) := by
  cases f with
  | false => rfl
  | true => simp [readField, when, takeN_append (length_be n x), ofBE_be, Nat.mod_eq_of_lt hx]

/-! ### Base-128 numbers -/

/-- A number of few enough groups is read back, in its fewest groups (R63, R64). -/
theorem unbase128_base128 {fuel v : Nat} (hf : 0 < fuel) (hv : v < 128 ^ fuel) (rest : List Byte) :
    unbase128 fuel (base128 fuel v ++ rest) = some (v, rest) := by
  induction fuel generalizing v with
  | zero => exact absurd hf (by decide)
  | succ fuel ih =>
    by_cases hsmall : v < 128
    · simp [base128, hsmall, unbase128, Nat.mod_eq_of_lt (show v < 256 by omega)]
    · have hfuel : 0 < fuel := by
        refine Nat.pos_of_ne_zero fun hz => hsmall ?_
        simpa [hz] using hv
      have hgroup : v / 128 < 128 ^ fuel := by
        rw [Nat.pow_succ] at hv
        exact Nat.div_lt_of_lt_mul (by rwa [Nat.mul_comm])
      have hbyte : (BitVec.ofNat 8 (v % 128 + 128)).toNat = v % 128 + 128 := by
        rw [BitVec.toNat_ofNat]; omega
      have hrest : v / 128 ≠ 0 := by omega
      have hsum : v % 128 + 128 * (v / 128) = v := Nat.mod_add_div v 128
      rw [base128, if_neg hsmall, List.cons_append, unbase128, hbyte, if_neg (by omega), ih hfuel hgroup]
      simp [hrest, hsum]

/-! ### Phone numbers -/

theorem nibbles_cons (b : Byte) (bs : List Byte) : nibbles (b :: bs) = b.toNat / 16 :: b.toNat % 16 :: nibbles bs := rfl

theorem length_nibbles (bs : List Byte) : (nibbles bs).length = 2 * bs.length := by
  induction bs with
  | nil => rfl
  | cons b bs ih => simp only [nibbles_cons, List.length_cons, ih]; omega

theorem nibbles_lt (bs : List Byte) : ∀ n ∈ nibbles bs, n < 16 := by
  induction bs with
  | nil => simp [nibbles]
  | cons b bs ih =>
    have := b.isLt
    simp only [nibbles_cons, List.forall_mem_cons]
    exact ⟨by omega, by omega, ih⟩

/-- The bytes of a byte string's nibbles. -/
theorem packNibbles_nibbles (bs : List Byte) : packNibbles (nibbles bs) = bs := by
  induction bs with
  | nil => rfl
  | cons b bs ih =>
    have : b.toNat / 16 * 16 + b.toNat % 16 = b.toNat := by omega
    rw [nibbles_cons, packNibbles, ih, this]
    simp

/-- The nibbles of packed nibbles: those packed, and the pad of an odd count. -/
theorem nibbles_packNibbles : ∀ {ns : List Nat}, (∀ n ∈ ns, n < 16) →
    nibbles (packNibbles ns) = ns ++ (if ns.length % 2 = 1 then [15] else [])
  | [], _ => rfl
  | [h], hn => by
    have := hn h (by simp)
    simp only [packNibbles, nibbles_cons, BitVec.toNat_ofNat]
    simp [nibbles]; omega
  | h :: l :: rest, hn => by
    have hh := hn h (by simp)
    have hl := hn l (by simp)
    have hrest := nibbles_packNibbles (ns := rest) fun n hm => hn n (by simp [hm])
    have hlen : (h :: l :: rest).length % 2 = rest.length % 2 := by simp only [List.length_cons]; omega
    rw [packNibbles, nibbles_cons, hrest, hlen, BitVec.toNat_ofNat, Nat.mod_eq_of_lt (by omega)]
    have h1 : (h * 16 + l) / 16 = h := by omega
    have h2 : (h * 16 + l) % 16 = l := by omega
    rw [h1, h2]; rfl

theorem length_packNibbles : ∀ ns : List Nat, (packNibbles ns).length = ceilDiv ns.length 2
  | [] => rfl
  | [h] => by simp [packNibbles, ceilDiv]
  | h :: l :: rest => by
    rw [packNibbles, List.length_cons, length_packNibbles rest]
    simp only [ceilDiv, List.length_cons]; omega

/-- The members two lists share at the front are the same in both. -/
theorem take_commonPrefix : ∀ xs ys : List Nat, xs.take (commonPrefix xs ys) = ys.take (commonPrefix xs ys)
  | x :: xs, y :: ys => by
    by_cases h : x = y
    · simp [commonPrefix, h, take_commonPrefix xs ys]
    · simp [commonPrefix, h]
  | [], _ => by simp [commonPrefix]
  | _ :: _, [] => by simp [commonPrefix]

/-- A phone number other than the reference's differs in one of its 16 nibbles. -/
theorem commonPrefix_lt {ref num : List Byte} (hr : ref.length = 8) (hn : num.length = 8) (hne : num ≠ ref) :
    commonPrefix (nibbles ref) (nibbles num) < 16 := by
  by_contra hge
  refine hne ?_
  have hlen (bs : List Byte) (h : bs.length = 8) : (nibbles bs).length ≤ commonPrefix (nibbles ref) (nibbles num) := by
    rw [length_nibbles, h]; omega
  have htake := take_commonPrefix (nibbles ref) (nibbles num)
  rw [List.take_of_length_le (hlen ref hr), List.take_of_length_le (hlen num hn)] at htake
  rw [← packNibbles_nibbles num, ← htake, packNibbles_nibbles]

/-- A phone number coded against the reference's is read back (R63, R64). -/
theorem readNumber_codeNumber {ref num : List Byte} (hr : ref.length = 8) (hn : num.length = 8) (rest : List Byte) :
    readNumber (num != ref) ref (when (num != ref) (codeNumber ref num) ++ rest) = some (num, rest) := by
  by_cases hne : num = ref
  · simp [readNumber, when, hne]
  · have hflag : (num != ref) = true := by simpa using hne
    have hlt := commonPrefix_lt hr hn hne
    have htake := take_commonPrefix (nibbles ref) (nibbles num)
    generalize hk : commonPrefix (nibbles ref) (nibbles num) = k at *
    have hlen : ((nibbles num).drop k).length = 16 - k := by rw [List.length_drop, length_nibbles, hn]
    have hpacked : (packNibbles ((nibbles num).drop k)).length = ceilDiv (16 - k) 2 := by rw [length_packNibbles, hlen]
    have hnibbles := nibbles_packNibbles (ns := (nibbles num).drop k) fun n hm => nibbles_lt num n (List.mem_of_mem_drop hm)
    rw [hlen] at hnibbles
    have hbyte : (BitVec.ofNat 8 k).toNat = k := by rw [BitVec.toNat_ofNat]; omega
    have hpad : (k % 2 == 1 && (nibbles (packNibbles ((nibbles num).drop k))).getLast? != some 15) = false := by
      by_cases hodd : k % 2 = 1
      · rw [hnibbles, if_pos (by omega)]; simp
      · simp [hodd]
    have hback : (nibbles ref).take k ++ (nibbles (packNibbles ((nibbles num).drop k))).take (16 - k) = nibbles num := by
      rw [hnibbles, List.take_append_of_le_length hlen.ge, List.take_of_length_le hlen.le, htake, List.take_append_drop]
    have hcode : codeNumber ref num = BitVec.ofNat 8 k :: packNibbles ((nibbles num).drop k) := by
      simp [codeNumber, hk, Nat.not_le.mpr hlt]
    simp [readNumber, when, hflag, hcode, hbyte, Nat.not_lt.mpr (show k ≤ 15 by omega), takeN_append hpacked, hpad, hback,
      packNibbles_nibbles]

/-! ### The mask -/

theorem code_mask (m : Mask) : m.code = bitSum [m.v, m.q, m.s1, m.s2, m.t, m.e, m.u, m.a, m.b, m.r, m.l] := by
  simp only [Mask.code, bitSum, Nat.bit_val, bit, Bool.toNat, ← Bool.cond_eq_ite]
  omega

/-- A mask without V, and without S1 and S2 together, is read back. -/
theorem ofCode_mask {m : Mask} (hv : m.v = false) (hs : (m.s1 && m.s2) = false) : m.code < 2048 ∧ Mask.ofCode m.code = some m := by
  have hlt : m.code < 2048 := by
    rw [code_mask]
    exact (bitSum_lt _).trans_le (by simp)
  refine ⟨hlt, ?_⟩
  obtain ⟨v, q, s1, s2, t, e, u, a, b, r, l⟩ := m
  dsimp only at hv hs
  rw [Mask.ofCode, if_neg (Nat.not_le.mpr hlt), code_mask]
  simp only [testBit_bitSum, hv]
  simp [hs]

/-! ### A call record from its fields -/

/-- A call record with a good CRC is what its fields build (12.1). -/
theorem buildCall_fields {r : List Byte} (hlen : r.length = 40) (hk : recKind r = kindC) (hc : recCrcGood r = true) :
    buildCall (callTariff r) (callService r) (callCause r) (callSeq r) (callStart r) (callDuration r) (callCalling r)
      (callCalled r) (callRoute r) (callCell r) (callVolume r) = r := by
  have hcell (i n : Nat) (h : i + n ≤ 40) : be n (fld r i n) = slice r i n := be_fld (by rwa [hlen])
  have hkind : [kindC] = slice r 0 1 := by
    cases r with
    | nil => simp at hlen
    | cons b l => simpa [slice, recKind] using hk.symm
  have hbody : kindC :: be 1 (callTariff r) ++ be 1 (callService r) ++ be 1 (callCause r) ++ be 4 (callSeq r) ++ be 3 (callStart r)
      ++ be 3 (callDuration r) ++ callCalling r ++ callCalled r ++ be 2 (callRoute r) ++ be 4 (callCell r) ++ be 2 (callVolume r)
      = r.take 38 := by
    rw [show kindC :: be 1 (callTariff r) = slice r 0 1 ++ be 1 (callTariff r) by rw [← hkind]; rfl, callTariff, callService, callCause,
      callSeq, callStart, callDuration, callCalling, callCalled, callRoute, callCell, callVolume, hcell 1 1 (by decide),
      hcell 2 1 (by decide), hcell 3 1 (by decide), hcell 4 4 (by decide), hcell 8 3 (by decide), hcell 11 3 (by decide),
      hcell 30 2 (by decide), hcell 32 4 (by decide), hcell 36 2 (by decide), slice_append_slice r 0 1 1, slice_append_slice r 0 2 1,
      slice_append_slice r 0 3 1, slice_append_slice r 0 4 4, slice_append_slice r 0 8 3, slice_append_slice r 0 11 3,
      slice_append_slice r 0 14 8, slice_append_slice r 0 22 8, slice_append_slice r 0 30 2, slice_append_slice r 0 32 4,
      slice_append_slice r 0 36 2]
    rfl
  have hcrc : be 2 (crc16 (r.take 38)).toNat = r.drop 38 := by
    rw [beq_iff_eq.mp hc, hcell 38 2 le_rfl, slice, List.take_of_length_le (by rw [List.length_drop, hlen])]
  rw [buildCall, hbody, hcrc, List.take_append_drop]

/-! ### Entries -/

/-- The start second that the flags S1 and S2 give back. -/
theorem start_read (ref r : List Byte) :
    (if (codeMask ref r).s2 then callStart r
      else callStart ref + if (codeMask ref r).s1 then callStart r - callStart ref else 0) = callStart r := by
  simp only [codeMask]
  by_cases heq : callStart r = callStart ref
  · simp [heq]
  · have hflag : (callStart r != callStart ref) = true := by simpa using heq
    by_cases hnear : 1 ≤ callStart r - callStart ref ∧ callStart r - callStart ref ≤ 255
    · simp only [hflag, hnear.1, hnear.2, decide_true, Bool.and_true, Bool.and_false, Bool.not_true, Bool.false_eq_true, if_false,
        if_true]
      omega
    · have hfar : (decide (1 ≤ callStart r - callStart ref) && decide (callStart r - callStart ref ≤ 255)) = false := by
        simpa using hnear
      simp only [hflag, hfar, Bool.not_false, Bool.and_true, if_true]

theorem ite_bne_eq {α : Type} [DecidableEq α] (x y : α) : (if (x != y) = true then x else y) = x := by
  by_cases h : x = y <;> simp [h]

theorem bind_of_some {α β : Type} {x : Option α} {f : α → Option β} {a : α} {b : β} (hx : x = some a) (hf : f a = some b) :
    (x >>= f) = some b := by
  rw [hx]
  exact hf

/-- Reading the body of a coded record, one field behind the other. -/
theorem decodeFields_of_fields {m : Mask} {ref b0 b1 b2 b3 b4 b5 b6 b7 b8 b9 b10 b11 b12 : List Byte}
    {seq near start tariff service cause duration route cell vol : Nat} {calling called : List Byte}
    (hseq : readField m.q 4 ((callSeq ref + 1) % 4294967296) b0 = some (seq, b1))
    (hnear : readField m.s1 1 0 b1 = some (near, b2)) (hstart : readField m.s2 3 (callStart ref + near) b2 = some (start, b3))
    (htariff : readField m.t 1 (callTariff ref) b3 = some (tariff, b4))
    (hservice : readField m.e 1 (callService ref) b4 = some (service, b5))
    (hcause : readField m.u 1 (callCause ref) b5 = some (cause, b6)) (hduration : unbase128 4 b6 = some (duration, b7))
    (hcalling : readNumber m.a (callCalling ref) b7 = some (calling, b8))
    (hcalled : readNumber m.b (callCalled ref) b8 = some (called, b9))
    (hroute : readField m.r 2 (callRoute ref) b9 = some (route, b10)) (hcell : readField m.l 4 (callCell ref) b10 = some (cell, b11))
    (hvol : unbase128 3 b11 = some (vol, b12)) (hrange : duration ≤ 16777215) :
    decodeFields m ref b0
      = some (buildCall tariff service cause seq start duration calling called route cell vol, b12) := by
  refine bind_of_some hseq (bind_of_some hnear (bind_of_some hstart (bind_of_some htariff (bind_of_some hservice (bind_of_some hcause
    (bind_of_some hduration (bind_of_some hcalling (bind_of_some hcalled (bind_of_some hroute (bind_of_some hcell
    (bind_of_some hvol ?_)))))))))))
  exact if_neg (Nat.not_lt.mpr hrange)

/-- The fields of a coded record are read back against its reference (R63, R64). -/
theorem decodeFields_codeFields {ref r : List Byte} (href : ref.length = 40) (hlen : r.length = 40) (hk : recKind r = kindC)
    (hc : recCrcGood r = true) (rest : List Byte) :
    decodeFields (codeMask ref r) ref (codeFields (codeMask ref r) ref r ++ rest) = some (r, rest) := by
  have hduration : callDuration r < 256 ^ 3 := fld_lt ..
  have hvolume : callVolume r < 256 ^ 2 := fld_lt ..
  have hnear (l : List Byte) : readField (codeMask ref r).s1 1 0
      (when (codeMask ref r).s1 (be 1 (callStart r - callStart ref)) ++ l)
        = some (if (codeMask ref r).s1 then callStart r - callStart ref else 0, l) := by
    cases hf : (codeMask ref r).s1 with
    | false => rfl
    | true =>
      simp only [codeMask, Bool.and_eq_true, decide_eq_true_eq] at hf
      exact readField_when true (by omega) 0 l
  have hnumber (i : Nat) (h : i + 8 ≤ 40) (l : List Byte) := readNumber_codeNumber (ref := slice ref i 8) (num := slice r i 8)
    (length_slice (by rwa [href])) (length_slice (by rwa [hlen])) l
  have hfields := decodeFields_of_fields (m := codeMask ref r) (ref := ref) (readField_when _ (x := callSeq r) (fld_lt r 4 4) _ _) (hnear _)
    (readField_when _ (x := callStart r) (fld_lt r 8 3) _ _) (readField_when _ (x := callTariff r) (fld_lt r 1 1) _ _) (readField_when _ (x := callService r) (fld_lt r 2 1) _ _)
    (readField_when _ (x := callCause r) (fld_lt r 3 1) _ _)
    (unbase128_base128 (v := callDuration r) (by decide) (by omega) _) (hnumber 14 (by decide) _) (hnumber 22 (by decide) _)
    (readField_when _ (x := callRoute r) (fld_lt r 30 2) _ _) (readField_when _ (x := callCell r) (fld_lt r 32 4) _ _)
    (unbase128_base128 (v := callVolume r) (by decide) (by omega) rest) (by omega)
  have hrecord := buildCall_fields hlen hk hc
  rw [codeFields]
  simp only [List.append_assoc]
  refine hfields.trans ?_
  have htariff : (if (codeMask ref r).t = true then callTariff r else callTariff ref) = callTariff r := ite_bne_eq _ _
  have hservice : (if (codeMask ref r).e = true then callService r else callService ref) = callService r := ite_bne_eq _ _
  have hcause : (if (codeMask ref r).u = true then callCause r else callCause ref) = callCause r := ite_bne_eq _ _
  have hseq : (if (codeMask ref r).q = true then callSeq r else (callSeq ref + 1) % 4294967296) = callSeq r := ite_bne_eq _ _
  have hroute : (if (codeMask ref r).r = true then callRoute r else callRoute ref) = callRoute r := ite_bne_eq _ _
  have hcell : (if (codeMask ref r).l = true then callCell r else callCell ref) = callCell r := ite_bne_eq _ _
  rw [start_read, htariff, hservice, hcause, hseq, hroute, hcell]
  exact congrArg (fun x => some (x, rest)) hrecord

/-- The entry of a record, coded or whole, gives the record back and leaves what follows it. -/
theorem decodeEntry_recordEntry {ref r : List Byte} {good : Bool} (href : ref.length = 40) (hr : codable (good, r)) (rest : List Byte) :
    decodeEntry ref (recordEntry good ref r ++ rest) = some (r, rest) := by
  obtain ⟨hlen, hcall⟩ := hr
  by_cases hcoded : (good && decide ((codedEntry ref r).length ≤ 42)) = true
  · obtain ⟨hk, hc⟩ := hcall (Bool.and_eq_true_iff.mp hcoded).1
    have hexclusive : ((codeMask ref r).s1 && (codeMask ref r).s2) = false := by
      simp only [codeMask]
      cases (callStart r != callStart ref) <;> simp
    obtain ⟨hlt, hmask⟩ := ofCode_mask (m := codeMask ref r) rfl hexclusive
    have hcode : ofBE (be 2 (codeMask ref r).code) = (codeMask ref r).code := by
      rw [ofBE_be]
      exact Nat.mod_eq_of_lt (by omega)
    have hv : (codeMask ref r).v = false := rfl
    have hentry : recordEntry good ref r = codedEntry ref r := if_pos hcoded
    rw [hentry, codedEntry, List.append_assoc, decodeEntry, takeN_append (length_be 2 _)]
    simp only [hcode, hmask, hv, Bool.false_eq_true, if_false, decodeFields_codeFields href hlen hk hc rest]
  · have hone : Mask.ofCode (ofBE (be 2 1)) = some { v := true } := by decide
    have hentry : recordEntry good ref r = verbatimEntry r := if_neg hcoded
    rw [hentry, verbatimEntry, List.append_assoc, decodeEntry, takeN_append (length_be 2 1)]
    simp only [hone, if_true, takeN_append hlen rest]

/-- Settles O9: entry by entry, each record being the reference of the next. -/
theorem codedRecordsDecodeBack : Obligations.CodedRecordsDecodeBack := by
  intro ref rs href hrs
  induction rs generalizing ref with
  | nil => rfl
  | cons p rs ih =>
    obtain ⟨good, r⟩ := p
    have hhead : codable (good, r) := hrs _ List.mem_cons_self
    have htail := ih r hhead.1 fun p hp => hrs p (List.mem_cons_of_mem _ hp)
    simp only [List.length_cons, encodeRecords, decodeEntries, decodeEntry_recordEntry href hhead, htail, List.flatMap_cons,
      Option.map_some]

end Sys2Proof.Machine
end

section
/-! A stored segment reads back from its blocks, and the scan of a zone finds the segments that lie back to back in it (R72, R73, R167);
the statement O13. -/

namespace Sys2Proof.Machine

/-! ### The header -/

/-- A segment header's cells in order. -/
def headerCells (h : SegHeader) : List Byte :=
  be 8 Config.segmentMarker.toNat ++ (be 2 h.window ++ (be 4 h.serial ++ (be 4 h.index ++ (be 4 h.first ++ (be 4 h.count
    ++ (be 1 h.kind.code ++ (be 1 h.lead ++ (be 2 h.tail ++ (be 4 h.recs ++ (be 4 h.payloadLen ++ (be 8 h.stamp
    ++ (be 1 (bit (h.run.lastSeq.map (be 4)).isSome) ++ ((h.run.lastSeq.map (be 4)).getD (zeros 4) ++ (countsBytes h.run.counts
    ++ (be 1 (bit h.run.trailerSeen) ++ (be 8 h.run.digest.toNat ++ (be 1 h.run.bank ++ zeros 25)))))))))))))))))

theorem headerBytes_eq (h : SegHeader) : headerBytes h = headerCells h := by
  simp [headerBytes, headerCells, padTo, optBytes_eq, length_getD_map]

theorem length_headerBytes (h : SegHeader) : (headerBytes h).length = 124 := by
  simp [headerBytes_eq, headerCells, length_getD_map]

/-- A header reads back, whatever follows it. -/
theorem parseHeader_headerBytes {h : SegHeader} (hf : h.Fits) (rest : List Byte) : parseHeader (headerBytes h ++ rest) = some h := by
  obtain ⟨hwindow, hserial, hindex, hfirst, hcount, hlead, htail, hrecs, hlen, hstamp, hlast, hcounts, hbank⟩ := hf
  obtain ⟨window, serial, index, first, count, kind, lead, tail, recs, payloadLen, stamp, lastSeq, counts, seen, digest, bank⟩ := h
  dsimp only at hwindow hserial hindex hfirst hcount hlead htail hrecs hlen hstamp hlast hcounts hbank
  have hkind := ofCode_segKind kind
  have hrun := countsOf_countsBytes hcounts
  have hdigest := ofNat_be_field (n := 8) rfl digest
  have hseq : (if lastSeq.isSome = true then some (ofBE ((lastSeq.map (be 4)).getD (zeros 4))) else none) = lastSeq := by
    cases lastSeq with
    | none => rfl
    | some q => simpa [ofBE_be] using hlast q rfl
  rw [headerBytes_eq, headerCells]
  simp [parseHeader, fld_skip, fld_here, slice_skip, slice_here, length_getD_map, ofBE_be, hkind, hrun, hseq, -BitVec.ofNat_toNat]
  exact ⟨hwindow, hserial, hindex, hfirst, hcount, hlead, htail, hrecs, hlen, hstamp, hdigest, hbank⟩

theorem fld_marker (h : SegHeader) (rest : List Byte) : fld (headerBytes h ++ rest) 0 8 = Config.segmentMarker.toNat := by
  rw [headerBytes_eq, headerCells, List.append_assoc, fld_be_here]
  exact Nat.mod_eq_of_lt Config.segmentMarker.isLt

/-! ### The stored segment -/

/-- The header with its CRC. -/
def headerFull (h : SegHeader) (payload : List Byte) : List Byte := headerBytes h ++ be 4 (segmentCrc (headerBytes h) payload).toNat

theorem length_headerFull (h : SegHeader) (payload : List Byte) : (headerFull h payload).length = 128 := by
  simp [headerFull, length_headerBytes]

/-- Bytes that begin with a header, and hold its payload, are its segment. -/
theorem parseSegment_of_payload {h : SegHeader} (hf : h.Fits) {payload rest : List Byte}
    (hp : storedPayload h.kind h.payloadLen (headerFull h payload ++ rest) = payload) :
    parseSegment (headerFull h payload ++ rest) = some (h, payload) := by
  have hlen := length_headerBytes h
  have hcrc : fld (headerFull h payload ++ rest) 124 4 = (segmentCrc (headerBytes h) payload).toNat := by
    rw [headerFull, List.append_assoc, fld_skip hlen.le, hlen, Nat.sub_self, fld_be_here]
    exact Nat.mod_eq_of_lt (BitVec.isLt _)
  have htake : (headerFull h payload ++ rest).take 124 = headerBytes h := by
    rw [headerFull, List.append_assoc, List.take_left' hlen]
  have hmarker : fld (headerFull h payload ++ rest) 0 8 = Config.segmentMarker.toNat := by
    rw [headerFull, List.append_assoc, fld_marker]
  have hheader : parseHeader (headerFull h payload ++ rest) = some h := by
    rw [headerFull, List.append_assoc, parseHeader_headerBytes hf]
  simp [parseSegment, hheader, hp, htake, hcrc, hmarker]

theorem length_toBlocks (n : Nat) (bs : List Byte) : (toBlocks n bs).length = n := by
  induction n generalizing bs with
  | zero => rfl
  | succ n ih => simp [toBlocks, ih]

/-- Whole blocks join to the bytes they were cut from. -/
theorem flatten_toBlocks {n : Nat} {bs : List Byte} (h : bs.length = 4096 * n) : (toBlocks n bs).flatten = bs := by
  induction n generalizing bs with
  | zero => simpa [toBlocks] using (List.eq_nil_of_length_eq_zero h).symm
  | succ n ih => rw [toBlocks, List.flatten_cons, ih (by rw [List.length_drop]; omega), List.take_append_drop]

theorem length_of_mem_toBlocks {n : Nat} {bs : List Byte} (h : bs.length = 4096 * n) : ∀ b ∈ toBlocks n bs, b.length = 4096 := by
  induction n generalizing bs with
  | zero => simp [toBlocks]
  | succ n ih =>
    simp only [toBlocks, List.forall_mem_cons]
    exact ⟨by rw [List.length_take]; omega, ih (by rw [List.length_drop]; omega)⟩

section
variable {h : SegHeader} {payload : List Byte}

/-- The stored blocks of a segment, by its kind (R73). -/
theorem segmentBlocks_of_coded (hk : h.kind = .coded) :
    segmentBlocks h payload = toBlocks h.len (padTo (4096 * h.len) (headerFull h payload ++ payload)) := by
  simp only [segmentBlocks, hk, headerFull]

theorem segmentBlocks_of_raw (hk : h.kind = .raw) :
    segmentBlocks h payload = padTo 4096 (headerFull h payload) :: toBlocks h.count payload := by
  simp only [segmentBlocks, hk, headerFull]

theorem segmentBlocks_of_lost (hk : h.kind = .lost) : segmentBlocks h payload = [padTo 4096 (headerFull h payload)] := by
  simp only [segmentBlocks, hk, headerFull]

theorem len_of_coded (hk : h.kind = .coded) : 128 + h.payloadLen ≤ 4096 * h.len ∧ 0 < h.len := by
  have := ceilDiv_mul_bounds (b := 4096) (by decide) (128 + h.payloadLen)
  rw [SegHeader.len, hk]
  simp only [storedLen]
  omega

theorem length_padded_coded (hk : h.kind = .coded) (hp : payload.length = h.payloadLen) :
    (padTo (4096 * h.len) (headerFull h payload ++ payload)).length = 4096 * h.len := by
  refine length_padTo _ _ ?_
  rw [List.length_append, length_headerFull, hp]
  exact (len_of_coded hk).1

theorem length_padded_header : (padTo 4096 (headerFull h payload)).length = 4096 :=
  length_padTo _ _ (by rw [length_headerFull]; decide)

/-- A stored segment's first block begins with its header. -/
theorem segmentBlocks_head (hp : payloadFits h payload) :
    ∃ rest blocks, segmentBlocks h payload = (headerBytes h ++ rest) :: blocks := by
  obtain ⟨hlen, hkind⟩ := hp
  cases hk : h.kind with
  | coded =>
    obtain ⟨n, hn⟩ : ∃ n, h.len = n + 1 := Nat.exists_eq_succ_of_ne_zero (len_of_coded hk).2.ne'
    rw [segmentBlocks_of_coded hk, hn, toBlocks, padTo, headerFull, List.append_assoc, List.append_assoc,
      List.take_append, List.take_of_length_le (by rw [length_headerBytes]; decide)]
    exact ⟨_, _, rfl⟩
  | raw =>
    rw [segmentBlocks_of_raw hk, padTo, headerFull, List.append_assoc]
    exact ⟨_, _, rfl⟩
  | lost =>
    rw [segmentBlocks_of_lost hk, padTo, headerFull, List.append_assoc]
    exact ⟨_, _, rfl⟩

theorem length_segmentBlocks : (segmentBlocks h payload).length = h.len := by
  cases hk : h.kind with
  | coded => rw [segmentBlocks_of_coded hk, length_toBlocks]
  | raw => rw [segmentBlocks_of_raw hk, List.length_cons, length_toBlocks, SegHeader.len, hk, storedLen, Nat.add_comm]
  | lost => rw [segmentBlocks_of_lost hk, SegHeader.len, hk, storedLen]; rfl

theorem length_of_mem_segmentBlocks (hp : payloadFits h payload) : ∀ b ∈ segmentBlocks h payload, b.length = 4096 := by
  obtain ⟨hlen, hkind⟩ := hp
  cases hk : h.kind with
  | coded =>
    rw [segmentBlocks_of_coded hk]
    exact length_of_mem_toBlocks (length_padded_coded hk hlen)
  | raw =>
    rw [hk] at hkind
    rw [segmentBlocks_of_raw hk, List.forall_mem_cons]
    exact ⟨length_padded_header, length_of_mem_toBlocks hkind⟩
  | lost =>
    rw [segmentBlocks_of_lost hk, List.forall_mem_singleton]
    exact length_padded_header

/-- A segment reads back from its blocks. -/
theorem parseSegment_segmentBlocks (hf : h.Fits) (hp : payloadFits h payload) :
    parseSegment (segmentBlocks h payload).flatten = some (h, payload) := by
  have hfull := length_headerFull h payload
  obtain ⟨hlen, hkind⟩ := hp
  cases hk : h.kind with
  | coded =>
    rw [segmentBlocks_of_coded hk, flatten_toBlocks (length_padded_coded hk hlen), padTo, List.append_assoc]
    refine parseSegment_of_payload hf ?_
    rw [hk, storedPayload, slice_skip hfull.le, hfull, Nat.sub_self, slice_here hlen]
  | raw =>
    rw [hk] at hkind
    rw [segmentBlocks_of_raw hk, List.flatten_cons, flatten_toBlocks hkind]
    have hread : slice (padTo 4096 (headerFull h payload) ++ payload) 4096 h.payloadLen = payload := by
      rw [slice_skip length_padded_header.le, length_padded_header, Nat.sub_self, slice_all hlen]
    rw [padTo, List.append_assoc] at hread ⊢
    refine parseSegment_of_payload hf ?_
    rw [hk]
    exact hread
  | lost =>
    rw [hk] at hkind
    rw [segmentBlocks_of_lost hk, List.flatten_singleton, padTo]
    refine parseSegment_of_payload hf ?_
    rw [hk]
    exact hkind.symm

theorem length_le_of_payloadFits : 0 < h.len := by
  cases hk : h.kind with
  | coded => exact (len_of_coded hk).2
  | raw => simp only [SegHeader.len, hk, storedLen]; omega
  | lost => simp only [SegHeader.len, hk, storedLen]; omega

end

/-! ### The scan of a zone -/

theorem blockBytes_map (bs : List Block) (rest : List (Option Block)) :
    blockBytes bs.length (bs.map some ++ rest) = some bs.flatten := by
  induction bs with
  | nil => rfl
  | cons b bs ih => simp [blockBytes, ih]

/-- A segment that fits is found where it begins. -/
theorem segmentAt_segmentBlocks {h : SegHeader} {payload : List Byte} (hf : h.Fits) (hp : payloadFits h payload) {room : Nat}
    (hroom : h.len ≤ room) (rest : List (Option Block)) :
    segmentAt room ((segmentBlocks h payload).map some ++ rest) = some (h, payload) := by
  obtain ⟨tail, blocks, hblocks⟩ := segmentBlocks_head hp
  have hbytes : blockBytes h.len ((segmentBlocks h payload).map some ++ rest) = some (segmentBlocks h payload).flatten := by
    have := blockBytes_map (segmentBlocks h payload) rest
    rwa [length_segmentBlocks] at this
  have hparse := parseSegment_segmentBlocks hf hp
  rw [hblocks] at hbytes hparse ⊢
  rw [List.map_cons, List.cons_append] at hbytes ⊢
  simp only [segmentAt, parseHeader_headerBytes hf, Nat.not_lt.mpr hroom, fld_marker, hbytes, bne_self_eq_false, decide_false,
    Bool.or_self, Bool.false_eq_true, if_false, Option.bind_some, hparse]

/-- What the scan notes of segments that lie back to back from an offset on. -/
def scanned (zone : Nat) : Nat → List (SegHeader × List Byte) → List Found
  | _, [] => []
  | off, x :: xs => foundAt zone off x.1 x.2 :: scanned zone (off + x.1.len) xs

/-- The blocks that segments take together. -/
def spread (segs : List (SegHeader × List Byte)) : Nat := (segs.map fun x => x.1.len).sum

theorem length_flatMap_segmentBlocks (segs : List (SegHeader × List Byte)) :
    (segs.flatMap fun x => segmentBlocks x.1 x.2).length = spread segs := by
  induction segs with
  | nil => rfl
  | cons x xs ih => simp only [List.flatMap_cons, List.length_append, length_segmentBlocks, ih, spread, List.map_cons, List.sum_cons]

theorem length_le_spread (segs : List (SegHeader × List Byte)) : segs.length ≤ spread segs := by
  induction segs with
  | nil => exact Nat.zero_le _
  | cons x xs ih =>
    have := length_le_of_payloadFits (h := x.1)
    simp only [spread, List.length_cons, List.map_cons, List.sum_cons] at ih ⊢
    omega

/-- The scan finds segments that lie back to back, and ends behind the last where none that fits begins. -/
theorem scanKept_segments {zone : Nat} {segs : List (SegHeader × List Byte)} (hs : ∀ x ∈ segs, x.1.Fits ∧ payloadFits x.1 x.2)
    {rest : List (Option Block)} {fuel off : Nat} (hfuel : segs.length ≤ fuel) (hroom : off + spread segs ≤ 4096)
    (hstop : segmentAt (4096 - (off + spread segs)) rest = none) :
    scanKept zone fuel off ((segs.flatMap fun x => segmentBlocks x.1 x.2).map some ++ rest)
      = (scanned zone off segs, off + spread segs) := by
  induction segs generalizing fuel off with
  | nil =>
    cases fuel with
    | zero => rfl
    | succ fuel =>
      rw [spread, List.map_nil, List.sum_nil, Nat.add_zero] at hstop
      simp [scanKept, hstop, scanned, spread]
  | cons x xs ih =>
    obtain ⟨fuel, rfl⟩ : ∃ n, fuel = n + 1 := Nat.exists_eq_succ_of_ne_zero (Nat.ne_of_gt (Nat.lt_of_lt_of_le (Nat.succ_pos _) hfuel))
    have hspread : spread (x :: xs) = x.1.len + spread xs := by rw [spread, List.map_cons, List.sum_cons]; rfl
    rw [hspread] at hroom hstop ⊢
    obtain ⟨hfit, hpayload⟩ := hs x List.mem_cons_self
    have hfound := segmentAt_segmentBlocks hfit hpayload (room := 4096 - off) (by omega)
      ((xs.flatMap fun x => segmentBlocks x.1 x.2).map some ++ rest)
    have hrest := ih (fun y hy => hs y (List.mem_cons_of_mem x hy)) (Nat.le_of_succ_le_succ hfuel) (off := off + x.1.len) (by omega)
      (by rw [Nat.add_assoc]; exact hstop)
    have hdrop : ((segmentBlocks x.1 x.2).map some ++ ((xs.flatMap fun x => segmentBlocks x.1 x.2).map some ++ rest)).drop x.1.len
        = (xs.flatMap fun x => segmentBlocks x.1 x.2).map some ++ rest :=
      List.drop_left' (by rw [List.length_map, length_segmentBlocks])
    rw [List.flatMap_cons, List.map_append, List.append_assoc, scanKept, hfound]
    simp only [hdrop, hrest, scanned, Nat.add_assoc]

theorem scanned_fields (zone off : Nat) (segs : List (SegHeader × List Byte)) :
    (scanned zone off segs).map (fun f => (f.zone, f.hdr, f.lead, f.tail))
      = segs.map fun x => (zone, x.1, x.2.take x.1.lead, x.2.drop (x.2.length - x.1.tail)) := by
  induction segs generalizing off with
  | nil => rfl
  | cons x xs ih => simp only [scanned, List.map_cons, ih, foundAt]

theorem scanned_offsets (zone off : Nat) (segs : List (SegHeader × List Byte)) :
    (scanned zone off segs).map (·.off) = (List.range segs.length).map fun i => off + spread (segs.take i) := by
  induction segs generalizing off with
  | nil => rfl
  | cons x xs ih =>
    simp only [scanned, List.map_cons, ih, List.length_cons, List.range_succ_eq_map, List.map_map, foundAt]
    refine congrArg₂ _ rfl (List.map_congr_left fun i _ => ?_)
    simp [spread, Nat.add_assoc]

/-- No segment that fits begins at blocks whose first is no segment's, or too long a one's. -/
theorem segmentAt_eq_none {room : Nat} {bs : List (Option Block)}
    (h : ∀ b, bs.head? = some (some b) → fld b 0 8 ≠ Config.segmentMarker.toNat ∨ parseHeader b = none
      ∨ ∃ x, parseHeader b = some x ∧ room < x.len) : segmentAt room bs = none := by
  unfold segmentAt
  split
  next b bs =>
    split
    next => rfl
    next x hx =>
      refine if_pos ?_
      obtain hm | hn | ⟨y, hy, hlen⟩ := h b rfl
      · simp [hm]
      · rw [hn] at hx; cases hx
      · rw [hy] at hx
        cases hx
        simp [hlen]
  next => rfl

/-! ### What start-up notes of a zone -/

/-- The top write stamp after some headers is one that none of them, nor the one before, exceeds. -/
theorem higherStamp_foldl (zone : Nat) (hs : List SegHeader) (top : Option (Nat × Nat)) (hne : top.isSome ∨ hs ≠ []) :
    ∃ n z, hs.foldl (higherStamp zone) top = some (n, z) ∧ (∀ x ∈ hs, x.stamp ≤ n) ∧ ∀ p, top = some p → p.1 ≤ n := by
  induction hs generalizing top with
  | nil =>
    obtain ⟨p, hp⟩ := Option.isSome_iff_exists.mp (hne.resolve_right fun h => h rfl)
    exact ⟨p.1, p.2, hp, fun _ h => absurd h List.not_mem_nil, fun q hq => by rw [hp] at hq; cases hq; exact le_rfl⟩
  | cons x xs ih =>
    have hstep : ∃ q, higherStamp zone top x = some q ∧ x.stamp ≤ q.1 ∧ ∀ p, top = some p → p.1 ≤ q.1 := by
      cases top with
      | none => exact ⟨_, rfl, le_rfl, fun _ h => by cases h⟩
      | some p =>
        by_cases hlt : p.1 < x.stamp
        · exact ⟨_, if_pos hlt, le_rfl, fun q hq => by cases hq; exact hlt.le⟩
        · exact ⟨_, if_neg hlt, Nat.not_lt.mp hlt, fun q hq => by cases hq; exact le_rfl⟩
    obtain ⟨q, hq, hx, hp⟩ := hstep
    obtain ⟨n, z, hfold, hall, htop⟩ := ih (higherStamp zone top x) (.inl (by rw [hq]; rfl))
    have hqn := htop q hq
    exact ⟨n, z, hfold, List.forall_mem_cons.mpr ⟨hx.trans hqn, hall⟩, fun p h => (hp p h).trans hqn⟩

theorem maxSerial_foldl (hs : List SegHeader) (m : Nat) :
    m ≤ hs.foldl (fun m h => max m h.serial) m ∧ ∀ x ∈ hs, x.serial ≤ hs.foldl (fun m h => max m h.serial) m := by
  induction hs generalizing m with
  | nil => exact ⟨le_rfl, fun _ h => absurd h List.not_mem_nil⟩
  | cons x xs ih =>
    obtain ⟨hm, hall⟩ := ih (max m x.serial)
    exact ⟨(le_max_left ..).trans hm, List.forall_mem_cons.mpr ⟨(le_max_right ..).trans hm, hall⟩⟩

/-- Settles O13: a stored segment's bytes, and the scan of a zone that begins with stored segments. -/
theorem storedSegmentsReadBack : Obligations.StoredSegmentsReadBack := by
  refine ⟨fun h payload hf hp => ⟨length_segmentBlocks, length_of_mem_segmentBlocks hp, parseSegment_segmentBlocks hf hp⟩, ?scan⟩
  intro zone segs rest hs blocks offset hroom hstop scan
  have hlen : blocks.length = spread segs := length_flatMap_segmentBlocks segs
  have hscan : scan = (scanned zone 0 segs, spread segs) := by
    have hkept := scanKept_segments (zone := zone) hs (rest := rest) (fuel := 4096) (off := 0)
      ((length_le_spread segs).trans (hlen ▸ hroom)) (by omega)
      (segmentAt_eq_none fun b hb => by rw [Nat.zero_add, ← hlen]; exact hstop b hb)
    rwa [Nat.zero_add] at hkept
  have hheads : (scanned zone 0 segs).map (·.hdr) = segs.map (·.1) := by
    have := congrArg (List.map fun p => p.2.1) (scanned_fields zone 0 segs)
    rwa [List.map_map, List.map_map] at this
  refine ⟨by rw [hscan, hlen], ?_, by rw [hscan, scanned_fields], ?_, fun u => ?_⟩
  · rw [hscan]
    simp only [offset, List.take_length]
    rfl
  · rw [hscan, scanned_offsets]
    simp only [Nat.zero_add]
    rfl
  · obtain ⟨heads, hzone, hmem⟩ : ∃ heads : List SegHeader, u.scanZone zone (blocks.map some ++ rest) = { u with
        found := u.found ++ scan.1, ends := u.ends ++ [(zone, scan.2)], top := heads.foldl (higherStamp zone) u.top
        maxSerial := heads.foldl (fun m h => max m h.serial) u.maxSerial, zoneBlocks := [] } ∧ ∀ x ∈ segs, x.1 ∈ heads := by
      refine ⟨_, rfl, fun x hx => List.mem_append_left _ ?_⟩
      have hfound := List.mem_map_of_mem (f := (·.1)) hx
      have hkept : (scanKept zone 4096 0 (blocks.map some ++ rest)).1 = scanned zone 0 segs := congrArg Prod.fst hscan
      rwa [hkept, hheads]
    obtain ⟨hserial, hserials⟩ := maxSerial_foldl heads u.maxSerial
    by_cases hnil : segs = []
    · refine ⟨0, 0, _, ?_, hserial, fun x hx => ?_⟩
      · rw [if_pos hnil, hzone]
      · rw [hnil] at hx
        exact absurd hx List.not_mem_nil
    · obtain ⟨x, hx⟩ := List.exists_mem_of_ne_nil segs hnil
      obtain ⟨n, z, hfold, hall, _⟩ := higherStamp_foldl zone heads u.top (.inr (List.ne_nil_of_mem (hmem x hx)))
      refine ⟨n, z, _, ?_, hserial, fun x hx => ⟨hall _ (hmem x hx), hserials _ (hmem x hx)⟩⟩
      rw [if_neg hnil, hzone, hfold]

end Sys2Proof.Machine
end

section
/-! A rendered journal block reads back, and start-up restores the journal from it (12.3, R145, R151); the statement O14. -/

namespace Sys2Proof.Machine

/-! ### Entries -/

/-- An entry's header. -/
def entryHeader (e : JournalItem) : List Byte :=
  be 2 e.code ++ (be 2 (entryLen e.body / 8) ++ (be 8 e.seq ++ (be 2 e.day ++ be 2 0)))

theorem length_entryHeader (e : JournalItem) : (entryHeader e).length = 16 := by simp [entryHeader]

/-- An entry's length is a multiple of 8 that holds its header and body. -/
theorem entryLen_bounds (body : List Byte) : 16 + body.length ≤ entryLen body ∧ entryLen body < 24 + body.length
    ∧ 8 * (entryLen body / 8) = entryLen body := by
  have := ceilDiv_mul_bounds (b := 8) (by decide) (16 + body.length)
  simp only [entryLen]
  omega

/-- An entry's bytes: its header, its body, its padding. -/
theorem bytes_eq (e : JournalItem) : e.bytes = entryHeader e ++ padTo (entryLen e.body - 16) e.body := by
  have hlen : entryLen e.body - (2 + (2 + (8 + (2 + (2 + e.body.length))))) = entryLen e.body - 16 - e.body.length := by omega
  simp [JournalItem.bytes, entryBytes, entryHeader, padTo, hlen]

theorem length_padded_body (body : List Byte) : (padTo (entryLen body - 16) body).length = entryLen body - 16 := by
  have := entryLen_bounds body
  exact length_padTo _ _ (by omega)

theorem length_bytes (e : JournalItem) : e.bytes.length = entryLen e.body := by
  have := entryLen_bounds e.body
  rw [bytes_eq, List.length_append, length_entryHeader, length_padded_body]
  omega

/-- An entry as a reader finds it. -/
def JournalItem.read (e : JournalItem) : ReadEntry := { code := e.code, seq := e.seq, body := padTo (entryLen e.body - 16) e.body }

/-- The first entry of a run is read, and what lies behind it is read on. -/
theorem readEntries_cons {e : JournalItem} (he : e.Fits) (fuel : Nat) (rest : List Byte) :
    readEntries (fuel + 1) (e.bytes ++ rest) = e.read :: readEntries fuel rest := by
  obtain ⟨⟨hcode, hfiller⟩, hseq, hlen⟩ := he
  obtain ⟨hlow, hhigh, height⟩ := entryLen_bounds e.body
  have hunits : entryLen e.body / 8 < 256 ^ 2 := by omega
  have hfcode : fld (e.bytes ++ rest) 0 2 = e.code := by
    rw [bytes_eq, entryHeader, List.append_assoc, List.append_assoc, fld_be_here]
    exact Nat.mod_eq_of_lt hcode
  have hflen : fld (e.bytes ++ rest) 2 2 = entryLen e.body / 8 := by
    have hread : fld (e.bytes ++ rest) 2 2 = entryLen e.body / 8 % 256 ^ 2 := by simp [bytes_eq, entryHeader, fld_skip, fld_be_here]
    rw [hread, Nat.mod_eq_of_lt hunits]
  have hfseq : fld (e.bytes ++ rest) 4 8 = e.seq := by
    have hread : fld (e.bytes ++ rest) 4 8 = e.seq % 256 ^ 8 := by simp [bytes_eq, entryHeader, fld_skip, fld_be_here]
    rw [hread]
    exact Nat.mod_eq_of_lt hseq
  have hbody : slice (e.bytes ++ rest) 16 (entryLen e.body - 16) = padTo (entryLen e.body - 16) e.body := by
    rw [bytes_eq, List.append_assoc, slice_skip (length_entryHeader e).le, length_entryHeader, Nat.sub_self,
      slice_here (length_padded_body e.body)]
  have htotal : (e.bytes ++ rest).length = entryLen e.body + rest.length := by rw [List.length_append, length_bytes]
  have hdrop : (e.bytes ++ rest).drop (entryLen e.body) = rest := List.drop_left' (length_bytes e)
  have hfits : ¬((e.bytes ++ rest).length < 16 ∨ entryLen e.body < 16 ∨ (e.bytes ++ rest).length < entryLen e.body) := by omega
  rw [readEntries, hflen, height, hdrop, hfcode, hfseq, hbody, if_neg (by simpa [or_assoc] using hfits), if_neg (by simpa using hfiller)]
  rfl

/-- Entries laid one behind the other are read in order. -/
theorem readEntries_flatMap {items : List JournalItem} (h : ∀ e ∈ items, e.Fits) {fuel : Nat} (hf : items.length ≤ fuel) :
    readEntries fuel (items.flatMap JournalItem.bytes) = items.map JournalItem.read := by
  induction items generalizing fuel with
  | nil => cases fuel <;> simp [readEntries]
  | cons e es ih =>
    obtain ⟨fuel, rfl⟩ : ∃ n, fuel = n + 1 := Nat.exists_eq_succ_of_ne_zero (Nat.ne_of_gt (Nat.lt_of_lt_of_le (Nat.succ_pos _) hf))
    rw [List.flatMap_cons, readEntries_cons (h e List.mem_cons_self), ih (fun x hx => h x (List.mem_cons_of_mem e hx))
      (Nat.le_of_succ_le_succ hf), List.map_cons]

/-- Every entry takes 16 bytes at least. -/
theorem length_items_le (items : List JournalItem) : 16 * items.length ≤ (items.flatMap JournalItem.bytes).length := by
  induction items with
  | nil => simp
  | cons e es ih =>
    have := entryLen_bounds e.body
    rw [List.flatMap_cons, List.length_append, length_bytes, List.length_cons]
    omega

/-! ### The rendered block -/

/-- A journal block's header with its CRC, for a buffer that was not read back. -/
theorem renderJournal_eq {head : Nat} {b : JournalBuffer} (h : b.asRead = none) :
    renderJournal head b = journalHeader head b.firstSeq b.count b.used
      ++ (be 4 (crc32 (journalHeader head b.firstSeq b.count b.used ++ zeros 4 ++ padTo 4064 b.body)).toNat ++ padTo 4064 b.body) := by
  simp only [renderJournal, h, List.append_assoc]

theorem length_journalHeader (seq firstSeq count used : Nat) : (journalHeader seq firstSeq count used).length = 28 := by
  simp [journalHeader]

section
variable {head : Nat} {b : JournalBuffer} (h : b.asRead = none) (hb : b.body.length ≤ 4064)
include h hb

theorem length_renderJournal : (renderJournal head b).length = 4096 := by
  rw [renderJournal_eq h, List.length_append, List.length_append, length_journalHeader, length_be, length_padTo _ _ hb]

omit hb in
/-- A rendered block passes its check. -/
theorem journalCrc_renderJournal : (journalCrc (renderJournal head b)).toNat = fld (renderJournal head b) 28 4 := by
  have hheader := length_journalHeader head b.firstSeq b.count b.used
  have htake : (renderJournal head b).take 28 = journalHeader head b.firstSeq b.count b.used := by
    rw [renderJournal_eq h, List.take_left' hheader]
  have hdrop : (renderJournal head b).drop 32 = padTo 4064 b.body := by
    rw [renderJournal_eq h, ← List.append_assoc, List.drop_left' (by rw [List.length_append, hheader, length_be])]
  have hcrc : fld (renderJournal head b) 28 4
      = (crc32 (journalHeader head b.firstSeq b.count b.used ++ zeros 4 ++ padTo 4064 b.body)).toNat := by
    rw [renderJournal_eq h, fld_skip hheader.le, hheader, Nat.sub_self, fld_be_here]
    exact Nat.mod_eq_of_lt (BitVec.isLt _)
  rw [journalCrc, htake, hdrop, hcrc]

/-- The fields of a rendered block's header, and its entry space. -/
theorem renderJournal_fields (hhead : head < 2 ^ 64) (hcount : b.count < 2 ^ 32) :
    fld (renderJournal head b) 0 8 = head ∧ fld (renderJournal head b) 8 8 = b.firstSeq % 256 ^ 8
    ∧ fld (renderJournal head b) 16 4 = b.count ∧ slice (renderJournal head b) 32 (fld (renderJournal head b) 20 2 - 32) = b.body := by
  have hheader := length_journalHeader head b.firstSeq b.count b.used
  have hfld {i n : Nat} (hi : i + n ≤ 28) :
      fld (renderJournal head b) i n = fld (journalHeader head b.firstSeq b.count b.used) i n := by
    rw [renderJournal_eq h, fld_keep (by rwa [hheader])]
  have hused : fld (renderJournal head b) 20 2 = 32 + b.body.length := by
    have hread : fld (renderJournal head b) 20 2 = b.used % 256 ^ 2 := by simp [hfld, journalHeader, fld_skip, fld_be_here]
    rw [hread, JournalBuffer.used, Nat.mod_eq_of_lt (by omega)]
  refine ⟨?_, ?_, ?_, ?_⟩
  · have hread : fld (renderJournal head b) 0 8 = head % 256 ^ 8 := by simp [hfld, journalHeader, fld_be_here]
    rw [hread]
    exact Nat.mod_eq_of_lt hhead
  · simp [hfld, journalHeader, fld_skip, fld_be_here]
  · have hread : fld (renderJournal head b) 16 4 = b.count % 256 ^ 4 := by simp [hfld, journalHeader, fld_skip, fld_be_here]
    rw [hread]
    exact Nat.mod_eq_of_lt hcount
  · rw [hused, Nat.add_sub_cancel_left, renderJournal_eq h, ← List.append_assoc,
      slice_skip (by rw [List.length_append, hheader, length_be]), List.length_append, hheader, length_be, padTo, slice_here rfl]

end

/-! ### Start-up's choice of block -/

theorem le_foldl_max (l : List Nat) (m : Nat) : m ≤ l.foldl max m ∧ ∀ x ∈ l, x ≤ l.foldl max m := by
  induction l generalizing m with
  | nil => exact ⟨le_rfl, fun _ h => absurd h List.not_mem_nil⟩
  | cons x xs ih =>
    obtain ⟨hm, hall⟩ := ih (max m x)
    exact ⟨(le_max_left ..).trans hm, List.forall_mem_cons.mpr ⟨(le_max_right ..).trans hm, hall⟩⟩

/-- The entries that name a volume in their first six bytes note its serial (12.4). -/
theorem mem_serials {e : ReadEntry} (h : e.code = 2 ∨ e.code = 3 ∨ e.code = 5 ∨ e.code = 7 ∨ e.code = 0x0B ∨ e.code = 0x0E) :
    fld e.body 2 4 ∈ e.serials := by
  obtain ⟨code, seq, body⟩ := e
  dsimp only at h
  obtain rfl | rfl | rfl | rfl | rfl | rfl := h <;> simp [ReadEntry.serials]

/-- A valid ring block is kept when none of a higher sequence was. -/
theorem takeRing_of_valid {n : Nat} {b : Block} {u : Startup} (h : ringValid n u.pos b = true) :
    ∃ c, u.takeRing n (some b) = { u with
        best := some c, maxSerial := ((blockEntries b).flatMap (·.serials)).foldl max u.maxSerial
        purged := u.purged ++ ((blockEntries b).filter (·.code == 0x0007)).map fun e => fld e.body 2 4 }
      ∧ (c = b ∨ u.best = some c) ∧ fld b 0 8 ≤ fld c 0 8 ∧ ∀ d, u.best = some d → fld d 0 8 ≤ fld c 0 8 := by
  cases hb : u.best with
  | none => exact ⟨b, by simp [Startup.takeRing, h, hb], .inl rfl, le_rfl, fun _ hd => by cases hd⟩
  | some c =>
    by_cases hlt : fld c 0 8 < fld b 0 8
    · exact ⟨b, by simp [Startup.takeRing, h, hb, hlt], .inl rfl, le_rfl, fun d hd => by cases hd; exact hlt.le⟩
    · exact ⟨c, by simp [Startup.takeRing, h, hb, hlt], .inr rfl, Nat.not_lt.mp hlt, fun d hd => by cases hd; exact le_rfl⟩

theorem takeRing_of_invalid {n : Nat} {b : Block} {u : Startup} (h : ringValid n u.pos b = false) : u.takeRing n (some b) = u := by
  simp [Startup.takeRing, h]

/-- Settles O14: the rendered block's fields and entries, start-up's choice, and the journal unit it sets. -/
theorem journalBlocksReadBack : Obligations.JournalBlocksReadBack := by
  refine ⟨?rendered, fun n b u => ⟨rfl, fun h => takeRing_of_invalid ?_, fun s h => ?_⟩⟩
  case rendered =>
    intro head firstSeq n items hhead hitems hspace buf b
    have hcount : items.length ≤ 254 := by
      have := length_items_le items
      omega
    obtain ⟨hfhead, hffirst, hfcount, hbody⟩ :=
      renderJournal_fields (head := head) (b := buf) rfl hspace hhead (show items.length < 2 ^ 32 by omega)
    have hentries : blockEntries b = items.map JournalItem.read := by
      rw [blockEntries, hbody]
      exact readEntries_flatMap hitems hcount
    have hvalid : ringValid n (head % n) b = true := by
      have hcrc := journalCrc_renderJournal (head := head) (b := buf) rfl
      simp only [ringValid, b, hcrc, hfhead, beq_self_eq_true, Bool.and_self]
    refine ⟨length_renderJournal rfl hspace, hvalid, ?_, fun u hu => ?_, fun u s hfirst hbest => ?_⟩
    · rw [hentries, List.map_map]
      rfl
    · obtain ⟨c, htake, hc, hle, hbest⟩ := takeRing_of_valid (u := u) (n := n) (b := b) (by rwa [hu])
      obtain ⟨hmax, hserials⟩ := le_foldl_max ((blockEntries b).flatMap (·.serials)) u.maxSerial
      refine ⟨_, c, htake.trans ?_, hmax, hc, hfhead ▸ hle, hbest, fun e he hcode => hserials _ ?_⟩
      · have hpurged : ((blockEntries b).filter (·.code == 0x0007)).map (fun e => fld e.body 2 4)
            = (items.filter fun e => e.code = 7).map fun e => fld (padTo (entryLen e.body - 16) e.body) 2 4 := by
          rw [hentries, List.filter_map, List.map_map]
          simp only [Bool.beq_eq_decide_eq]
          rfl
        rw [hpurged]
      · rw [hentries]
        exact List.mem_flatMap.mpr ⟨e.read, List.mem_map_of_mem he, mem_serials hcode⟩
    · have hlast : (blockEntries b).getLast? = items.getLast?.map JournalItem.read := by rw [hentries, List.getLast?_map]
      have hffirst' : fld b 8 8 = firstSeq := hffirst.trans (Nat.mod_eq_of_lt hfirst)
      simp only [State.setJournal, hbest, hlast, hffirst', hfcount, hbody, hfhead, clampPointer, b]
      cases items.getLast? <;> rfl
  · obtain h | h := h <;> simp [ringValid, h]
  · simp only [State.setJournal, h]

end Sys2Proof.Machine
end

section
/-! The arbiter's grants, the DATA and COMPLETIONs that come back, and the completions that nobody waits for: the statements O47 and
O48. -/

namespace Sys2Proof.Machine

/-! ### Grants -/

theorem grantable_iff {s : State} {r : StoreReq} : r.grantable s.isHalted = true ↔ s.halted = none ∨ r.op ≠ .write := by
  cases h : s.halted <;> simp [StoreReq.grantable, State.isHalted, h]

/-- The lowest free tag (R90). -/
theorem freeTag_of_lowest {p : StorePort} {t : Nat} (ht : t ≤ 15) (hfree : ∀ e ∈ p.table, e.tag ≠ t)
    (hlow : ∀ u, u < t → ∃ e ∈ p.table, e.tag = u) : p.freeTag = some t := by
  rw [StorePort.freeTag, List.find?_range_eq_some]
  refine ⟨by simpa using hfree, by simp; omega, fun u hu => ?_⟩
  simpa using hlow u hu

theorem freeTag_of_full {p : StorePort} (h : ∀ t ≤ 15, ∃ e ∈ p.table, e.tag = t) : p.freeTag = none := by
  rw [StorePort.freeTag, List.find?_eq_none]
  intro t ht
  have hlt := List.mem_range.mp ht
  simpa using h t (by omega)

theorem dequeue_of_first {r : StoreReq} {pre post : List StoreReq} (h : r ∉ pre) : dequeue r (pre ++ r :: post) = pre ++ post := by
  induction pre with
  | nil => simp [dequeue]
  | cons x xs ih =>
    obtain ⟨hx, hxs⟩ := not_or.mp (fun hm => h (List.mem_cons.mpr hm))
    rw [List.cons_append, dequeue, if_neg (Ne.symm hx), ih hxs, List.cons_append]

/-- The first request of the lowest class that may go out is granted next (R91). -/
theorem nextGrant_of_first {halted : Bool} {p : StorePort} {pre post : List StoreReq} {r : StoreReq} (hq : p.queue = pre ++ r :: post)
    (hr : r.grantable halted = true) (h1 : 1 ≤ r.cls) (h5 : r.cls ≤ 5)
    (hpre : ∀ x ∈ pre, x.grantable halted = true → r.cls < x.cls) (hpost : ∀ x ∈ post, x.grantable halted = true → r.cls ≤ x.cls) :
    p.nextGrant halted = some r := by
  have hlower (c : Nat) (hc : c < r.cls) : p.queue.find? (fun x => x.cls == c && x.grantable halted) = none := by
    rw [List.find?_eq_none]
    intro x hx hm
    obtain ⟨hcls, hgo⟩ := Bool.and_eq_true_iff.mp hm
    have hle : r.cls ≤ x.cls := by
      rw [hq, List.mem_append, List.mem_cons] at hx
      obtain hx | rfl | hx := hx
      · exact (hpre x hx hgo).le
      · exact le_rfl
      · exact hpost x hx hgo
    have := beq_iff_eq.mp hcls
    omega
  have hown : p.queue.find? (fun x => x.cls == r.cls && x.grantable halted) = some r := by
    rw [hq, List.find?_append, List.find?_eq_none.mpr, Option.none_or]
    · simp [hr]
    · intro x hx hm
      obtain ⟨hcls, hgo⟩ := Bool.and_eq_true_iff.mp hm
      have := hpre x hx hgo
      have := beq_iff_eq.mp hcls
      omega
  rw [StorePort.nextGrant]
  have hcls : r.cls = 1 ∨ r.cls = 2 ∨ r.cls = 3 ∨ r.cls = 4 ∨ r.cls = 5 := by omega
  obtain h | h | h | h | h := hcls <;> rw [h] at hlower hown <;>
    simp [hlower 1, hlower 2, hlower 3, hlower 4, hown]

/-- The blocks of a write are sent in order behind what was sent. -/
theorem sendBlocks_eq (t i : Nat) (bs : List Block) (s : State) :
    sendBlocks t i bs s = { s with sent := s.sent ++ (bs.zipIdx i).map fun p => .storeData t p.2 p.1 } := by
  induction bs generalizing i s with
  | nil => simp [sendBlocks]
  | cons b bs ih => simp [sendBlocks, ih, State.send]

/-! ### What comes back -/

theorem wants_iff {e : StoreEntry} {i : Nat} : e.wants i = true
    ↔ e.abandoned = false ∧ e.req.op = .read ∧ i < e.req.count ∧ ∀ p ∈ e.got, p.1 ≠ i := by
  simp [StoreEntry.wants, and_assoc]

/-- Blocks that came in order are gathered. -/
theorem gather_of_zipIdx {bs : List Block} {got : List (Nat × Block)} (h : got = bs.zipIdx.map fun p => (p.2, p.1)) {n : Nat}
    (hn : n ≤ bs.length) : gather got n = some (bs.take n) := by
  induction n with
  | zero => rfl
  | succ n ih =>
    have hfind : got.find? (·.1 == n) = some (n, bs[n]) := by
      rw [List.find?_eq_some_iff_getElem]
      subst h
      refine ⟨by simp, n, by simpa using hn, by simp, fun j hj => ?_⟩
      simp; omega
    rw [gather, ih (Nat.le_of_succ_le hn), hfind, Option.map_some, List.take_add_one, List.getElem?_eq_getElem hn]
    rfl

/-- A missing block leaves nothing gathered. -/
theorem gather_of_missing {got : List (Nat × Block)} {i n : Nat} (hi : i < n) (hmiss : ∀ p ∈ got, p.1 ≠ i) : gather got n = none := by
  induction n with
  | zero => exact absurd hi (Nat.not_lt_zero i)
  | succ n ih =>
    by_cases hn : i = n
    · have hfind : got.find? (·.1 == n) = none := by
        rw [List.find?_eq_none]
        exact fun p hp => by simpa [← hn] using hmiss p hp
      rw [gather, hfind, Option.map_none]
      cases gather got n <;> rfl
    · rw [gather, ih (by omega)]

theorem firstMissing_eq {got : List (Nat × Block)} {i n : Nat} (hi : i < n) (hmiss : ∀ p ∈ got, p.1 ≠ i)
    (hall : ∀ j, j < i → ∃ p ∈ got, p.1 = j) : firstMissing got n = i := by
  obtain ⟨-, habsent, hbefore⟩ := firstMissing_spec (gather_of_missing hi hmiss)
  rcases Nat.lt_trichotomy (firstMissing got n) i with h | h | h
  · obtain ⟨p, hp, he⟩ := hall _ h
    exact absurd he (habsent p hp)
  · exact h
  · obtain ⟨p, hp, he⟩ := hbefore i h
    exact absurd he (hmiss p hp)

/-- Settles O47: the grant, its exceptions, the DATA of a read, and the outcomes of a COMPLETION. -/
theorem theArbiterGrantsInClassOrder : Obligations.TheArbiterGrantsInClassOrder := by
  refine ⟨?grant, ?idle, ?data, ?outcome⟩
  case grant =>
    intro s pre post r t hr hup mayGo hq hgo h1 h5 hpre hpost ht hfree hlow
    have hgrant := nextGrant_of_first (halted := s.isHalted) hq (grantable_iff.mpr hgo) h1 h5
      (fun x hx hg => hpre x hx (grantable_iff.mp hg)) fun x hx hg => hpost x hx (grantable_iff.mp hg)
    have hmem : r ∉ pre := fun hm => absurd (hpre r hm hgo) (lt_irrefl _)
    have hexec : exec .storeGrant s = .next (State.issue t r { s with port := { s.port with queue := pre ++ post } }) := by
      rw [← dequeue_of_first hmem (post := post), ← hq]
      simp only [exec, execStoreGrant, hup, hr, freeTag_of_lowest ht hfree hlow, hgrant, Bool.not_true, Bool.or_self,
        Bool.false_eq_true, if_false]
    rw [hexec, State.issue, sendBlocks_eq]
    simp [State.send]
  case idle =>
    intro s h
    have hnothing : s.port.up = false ∨ s.port.freeTag = none ∨ s.port.nextGrant s.isHalted = none := by
      obtain h | h | h := h
      · exact .inl h
      · exact .inr (.inl (freeTag_of_full h))
      · refine .inr (.inr (List.findSome?_eq_none_iff.mpr fun c _ => List.find?_eq_none.mpr fun x hx hm => ?_))
        obtain ⟨hhalted, hwrite⟩ := h x hx
        simp [StoreReq.grantable, hhalted, hwrite] at hm
    simp only [exec, execStoreGrant]
    obtain h | h | h := hnothing
    · simp [h]
    · simp [h]
    · split
      · rfl
      · rw [h]
        cases s.port.freeTag <;> rfl
  case data =>
    intro tag index b s hr hb
    have haccept : StoreEntry.accept tag.toNat index.toNat b = fun e =>
        if e.tag = tag.toNat ∧ e.abandoned = false ∧ e.req.op = .read ∧ index.toNat < e.req.count
            ∧ (∀ p ∈ e.got, p.1 ≠ index.toNat) then { e with got := e.got ++ [(index.toNat, b)] } else e := by
      funext e
      simp only [StoreEntry.accept, Bool.and_eq_true, beq_iff_eq, wants_iff]
    simp [exec, execStoreData, blockWf, hb, hr, haccept]
  case outcome =>
    intro status field e
    have hthree : status.toNat = 3 ↔ status = 3 := by rw [BitVec.toNat_eq]; rfl
    refine ⟨fun h => ?_, fun h0 h3 => ?_, fun h0 hop => ?_, fun h0 hop => ⟨fun bs hlen hgot => ?_, fun i hi hmiss hall => ?_⟩⟩
    · rw [h, outcome_failed field e (by decide)]
      rfl
    · rw [outcome_failed field e h0, if_neg (mt hthree.mp h3)]
    · rw [h0, outcome_good_write field e hop]
    · rw [h0]
      refine outcome_good_read field hop ?_
      rw [gather_of_zipIdx hgot hlen.ge, ← hlen, List.take_length]
    · rw [h0, outcome_short_read field hop (gather_of_missing hi hmiss), firstMissing_eq hi hmiss hall]

/-! ### Completions that nobody waits for -/

theorem dropEntry_eq (t : Nat) (s : State) :
    s.dropEntry t = { s with port := { s.port with table := s.port.table.filter (·.tag ≠ t) } } := by
  simp only [State.dropEntry, bne, Bool.beq_eq_decide_eq, ne_eq, decide_not]

/-- Nothing to go through: an empty waiting list leaves the state. -/
theorem passWaiting_of_nil {s : State} (h : s.alloc.waiting = []) : s.passWaiting = s := by
  have hjoined : s.alloc.zoneJoined s.alloc = false := by simp [Alloc.zoneJoined]
  simp [State.passWaiting, State.passAgain, h, each, hjoined]

/-- The zone that a number names, where no two zones share it. -/
theorem zone_of_unique {a : Alloc} {z : Zone} (hz : z ∈ a.zones) (hu : ∀ x ∈ a.zones, x.zone = z.zone → x = z) :
    a.zone z.zone = some z := by
  cases h : a.zone z.zone with
  | none => exact absurd (List.find?_eq_none.mp h z hz) (by simp)
  | some y =>
    have hy : y.zone = z.zone := by simpa using List.find?_some h
    rw [hu y (List.mem_of_find?_eq_some h) hy]

theorem modZone_eq (n : Nat) (f : Zone → Zone) (a : Alloc) :
    a.modZone n f = { a with zones := a.zones.map fun x => if x.zone = n then f x else x } := by
  simp only [Alloc.modZone, beq_iff_eq]

theorem zone_modZone {a : Alloc} {n : Nat} {z : Zone} (h : a.zone n = some z) {f : Zone → Zone} (hf : ∀ x, (f x).zone = x.zone) :
    (a.modZone n f).zone n = some (f z) := by
  have hfind := find?_map_key Zone.zone n n f hf a.zones
  rw [Alloc.zone] at h
  rw [h, Option.map_some, if_pos (beq_self_eq_true n)] at hfind
  exact hfind

/-- A zone that holds something stays as it is. -/
theorem zoneTest_of_holding {s : State} {n : Nat} {z : Zone} (h : s.alloc.zone n = some z) (hi : z.idle = false) : s.zoneTest n = s := by
  simp [State.zoneTest, h, hi]

/-- A FULL zone that holds nothing becomes FREE; with nothing waiting that is all. -/
theorem zoneTest_of_idle_full {s : State} {n : Nat} {z : Zone} (h : s.alloc.zone n = some z) (hi : z.idle = true)
    (hf : z.filling = false) (hw : s.alloc.waiting = []) : s.zoneTest n = { s with alloc := s.alloc.freeZone n } := by
  rw [State.zoneTest, h]
  simp only [hi, hf, Bool.not_true, Bool.not_false, Bool.false_eq_true, if_false, if_true]
  exact passWaiting_of_nil hw

/-- Settles O48: row by row, then the end of an ABANDONED placement. -/
theorem unawaitedCompletionsOnlyFreeTheTag : Obligations.UnawaitedCompletionsOnlyFreeTheTag := by
  intro tag status field s hr rows freed p hp
  have hrow : ∃ act, exec p.1 s = .next (s.takeCompletion tag p.2 act) := by
    simp only [rows, List.mem_cons, List.not_mem_nil, or_false] at hp
    obtain rfl | rfl | rfl | rfl | rfl | rfl | rfl | rfl | rfl := hp <;> exact ⟨_, rfl⟩
  obtain ⟨act, hexec⟩ := hrow
  refine ⟨fun hn => hexec.trans (congrArg _ (takeCompletion_none hn _ _)), fun e he =>
    ⟨fun hu => hexec.trans (congrArg _ (takeCompletion_other he hu _)), fun hu ha hd => ?discarded, fun hu ha hseg => ?abandoned,
      fun serial index stamp z ha huser hz hunique => ?placement⟩⟩
  case discarded => rw [hexec, takeCompletion_discard hr he hu ha hd, dropEntry_eq]
  case abandoned =>
    have hleft (x : State) : releaseAbandoned e.req.user x = x := by
      cases hq : e.req.user with
      | segment => rw [hq] at hseg; cases hseg
      | _ => rfl
    rw [hexec, takeCompletion_abandoned hr he hu ha, hleft, dropEntry_eq]
  case placement =>
    intro left row
    have hmem : z ∈ s.alloc.zones := List.mem_of_find?_eq_some hz
    have hzone := zone_modZone (zone_of_unique hmem hunique)
      (f := fun x => { x with list := x.list.filter fun q => !(q.stamp == stamp && q.status == .abandoned) }) fun _ => rfl
    have hleft : z.list.filter (fun q => !(q.stamp == stamp && q.status == .abandoned)) = left := by
      simp only [left, Bool.beq_eq_decide_eq, decide_not, Bool.decide_and]
    have hexecRow : exec row s = .next (State.zoneTest z.zone { freed with alloc := s.alloc.modZone z.zone fun x =>
        { x with list := x.list.filter fun q => !(q.stamp == stamp && q.status == .abandoned) } }) := by
      have hrow : exec row s = .next (s.completeFor isSegment tag status field) := rfl
      rw [hrow, State.completeFor, takeCompletion_abandoned hr he (by rw [huser]; rfl) ha, huser, dropEntry_eq]
      simp only [releaseAbandoned, State.dropAbandoned, hz]
      rfl
    have hidle : ({ z with list := z.list.filter fun q => !(q.stamp == stamp && q.status == .abandoned) } : Zone).idle
        = (z.live == 0 && left.isEmpty) := by rw [hleft]; rfl
    refine ⟨fun h => ?_, fun hl h0 hf hw => ?_⟩
    · have hholds : (z.live == 0 && left.isEmpty) = false := by
        rcases h with h | h <;> simp [h]
      have hzones : s.alloc.zones.map (fun x => if x.zone = z.zone then { x with list := x.list.filter fun q =>
          !(q.stamp == stamp && q.status == .abandoned) } else x)
            = s.alloc.zones.map fun x => if x.zone = z.zone then { x with list := left } else x :=
        List.map_congr_left fun x hx => by
          by_cases hxz : x.zone = z.zone
          · rw [if_pos hxz, if_pos hxz, hunique x hx hxz, hleft]
          · rw [if_neg hxz, if_neg hxz]
      rw [hexecRow, zoneTest_of_holding hzone (hidle.trans hholds), modZone_eq, hzones]
    · have hempty : (z.live == 0 && left.isEmpty) = true := by simp [hl, h0]
      have hzones := filter_map_key Zone.zone z.zone (fun x => ({ x with list := x.list.filter fun q =>
        !(q.stamp == stamp && q.status == .abandoned) } : Zone)) (fun _ h => h) s.alloc.zones
      refine hexecRow.trans ((congrArg _ (zoneTest_of_idle_full (s := { freed with alloc := s.alloc.modZone z.zone fun x =>
        { x with list := x.list.filter fun q => !(q.stamp == stamp && q.status == .abandoned) } }) hzone (hidle.trans hempty) hf hw)).trans ?_)
      simp only [Alloc.freeZone, modZone_eq, bne, Bool.beq_eq_decide_eq, ← decide_not] at hzones ⊢
      rw [← hzones]

end Sys2Proof.Machine
end

section
/-! The sweep (7.4), and the statement O57. -/

namespace Sys2Proof.Machine

theorem isDue_iff {v : Volume} {day : Nat} : isDue v day = true ↔ v.state = .closed ∧ ∃ d, v.expiry = some d ∧ d ≤ day := by
  cases h : v.expiry <;> simp [isDue, h]

theorem isHeld_iff {s : State} {v : Volume} : s.isHeld v = true
    ↔ ∃ h ∈ s.ret.holds, (h.source = none ∨ h.source = some v.source) ∧ h.first ≤ v.day ∧ v.day ≤ h.last := by
  simp only [State.isHeld, List.any_eq_true, covers_iff]
  refine exists_congr fun h => and_congr_right fun _ => and_congr_left fun _ => ?_
  cases h.source <;> simp

/-- The state after a sweep's step: the window's outcome, and after window 4094 the end of the sweep. -/
def State.swept (w x : Sweep) (s : State) : State :=
  let y : State := { s with ret := { s.ret with sweep := some { x with next := w.next + 1 } } }
  if w.next = 4094 then
    State.append
      { code := 0x0006, who := .sweep
        body := be 2 w.day ++ be 4 w.ref ++ be 2 x.queued ++ be 2 x.held ++ be 2 x.blocked ++ be 2 x.verifying }
      { y with latched := { s.latched with expiryBlocked := s.latched.expiryBlocked || 0 < x.blocked } }
  else y

section
variable {s : State} {w : Sweep}

/-- SWEEP_EXAMINE with a window left: the window is examined and the sweep moves on or ends. -/
theorem exec_sweepExamine (h : s.Runs) (hw : s.ret.sweep = some w) (hn : w.next ≤ 4094) {x : Sweep} {u : State}
    (hexam : s.examineWindow w = (u, x)) (hx : x.day = w.day ∧ x.ref = w.ref) :
    exec .sweepExamine s = .next (u.swept w x) := by
  obtain ⟨hday, href⟩ := hx
  have hrunning : s.running = true := by simp [State.running, State.isHalted, State.starting, h.alive, h.started]
  simp only [exec, execSweepExamine, hw, hrunning, h.released, hn, State.sweepStep, hexam, Bool.not_false, Bool.and_self, decide_true,
    if_true]
  rw [State.swept]
  by_cases hlast : w.next = 4094
  · rw [if_pos hlast, if_pos (beq_iff_eq.mpr hlast), State.sweepEnds, sweepBody, hday, href]
    by_cases hb : 0 < x.blocked <;> simp [hb, State.setBlocked]
  · rw [if_neg hlast, if_neg (mt beq_iff_eq.mp hlast)]

theorem examineWindow_of_free (hv : s.vol w.next = none) : s.examineWindow w = (s, w) := by
  simp [State.examineWindow, hv]

variable {v : Volume}

theorem examineWindow_of_undue (hv : s.vol w.next = some v) (hd : isDue v w.day = false) : s.examineWindow w = (s, w) := by
  simp [State.examineWindow, hv, hd]

theorem examineWindow_of_due (hv : s.vol w.next = some v) (hd : isDue v w.day = true) : s.examineWindow w = s.examineDue v w := by
  simp [State.examineWindow, hv, hd]

theorem examineDue_of_held (h : s.isHeld v = true) : s.examineDue v w = (s, { w with held := w.held + 1 }) := by
  simp [State.examineDue, h]

theorem examineDue_of_verifying (h : s.isHeld v = false) (hv : v.verifyQueued = true ∨ v.verifying = true) :
    s.examineDue v w = (s, { w with verifying := w.verifying + 1 }) := by
  simp [State.examineDue, h, hv]

theorem examineDue_of_blocked (h : s.isHeld v = false) (hq : v.verifyQueued = false) (hv : v.verifying = false)
    (hr : v.audit ≠ .reconciled) (ha : v.audit ≠ .accepted) : s.examineDue v w = (s, { w with blocked := w.blocked + 1 }) := by
  simp [State.examineDue, h, hq, hv, hr, ha]

theorem examineDue_of_expiring (h : s.isHeld v = false) (hq : v.verifyQueued = false) (hv : v.verifying = false)
    (ha : v.audit = .reconciled ∨ v.audit = .accepted) : s.examineDue v w
      = ({ s.rewriteVol v.window (fun v => { v with state := .expiring }) [.expiring v.window v.serial] with
           ret := { s.ret with queue := s.ret.queue ++ [{ window := v.window, serial := v.serial }] } },
         { w with queued := w.queued + 1 }) := by
  have hret : (s.rewriteVol v.window (fun v => { v with state := .expiring }) [.expiring v.window v.serial]).ret = s.ret :=
    (congrArg State.ret (callCatalogue_only _ _ _)).trans rfl
  have haudit : (v.audit != .reconciled && v.audit != .accepted) = false := by
    rcases ha with ha | ha <;> simp [ha]
  simp only [State.examineDue, h, hq, hv, haudit, Bool.or_self, Bool.false_eq_true, if_false, hret]

end

/-- Settles O57: R118's cases for one window, each followed by R119's end. -/
theorem sweepExaminesInWindowOrder : Obligations.SweepExaminesInWindowOrder := by
  intro s w h hw moved due held
  refine ⟨fun hn => ⟨fun hv => exec_sweepExamine h hw hn (examineWindow_of_free hv) ⟨rfl, rfl⟩, fun v hv => ?_⟩, fun hn => ?_⟩
  · have hwindow : v.window = w.next := vol_window hv
    have hunheld (hh : ¬held v) : s.isHeld v = false := Bool.eq_false_iff.mpr (mt isHeld_iff.mp hh)
    refine ⟨fun hd => ?_, fun hd hh => ?_, fun hd hh hver => ?_, fun hd hh hq hver => ⟨fun hr ha => ?_, fun ha => ?_⟩⟩
    · exact exec_sweepExamine h hw hn (examineWindow_of_undue hv (Bool.eq_false_iff.mpr (mt isDue_iff.mp hd))) ⟨rfl, rfl⟩
    · exact exec_sweepExamine h hw hn ((examineWindow_of_due hv (isDue_iff.mpr hd)).trans
        (examineDue_of_held (isHeld_iff.mpr hh))) ⟨rfl, rfl⟩
    · exact exec_sweepExamine h hw hn ((examineWindow_of_due hv (isDue_iff.mpr hd)).trans
        (examineDue_of_verifying (hunheld hh) hver)) ⟨rfl, rfl⟩
    · exact exec_sweepExamine h hw hn ((examineWindow_of_due hv (isDue_iff.mpr hd)).trans
        (examineDue_of_blocked (hunheld hh) hq hver hr ha)) ⟨rfl, rfl⟩
    · intro rewritten
      have hexpiring := (examineWindow_of_due hv (isDue_iff.mpr hd)).trans (examineDue_of_expiring (hunheld hh) hq hver ha)
      rw [rewriteVol_eq, hwindow] at hexpiring
      exact exec_sweepExamine h hw hn hexpiring ⟨rfl, rfl⟩
  · simp [exec, execSweepExamine, hw, Nat.not_le.mpr hn]

end Sys2Proof.Machine
end

section
/-! The rules for placing and sealing (4.7, 4.8, 5.4), as HELD_CLOSE, the idle timer, SYNC and the commits use them: O45, O46. -/

namespace Sys2Proof.Machine

/-! ### A placement -/

/-- A placement of the pending segment `p` at an offset of a zone of `alloc`, with the next write stamp, its write asked for. -/
def State.placedAt (serial index : Nat) (p : PendSeg) (zone off : Nat) (alloc : Alloc) (s : State) : State :=
  let h : SegHeader := { p.hdr with stamp := s.alloc.stamp }
  { s with
    pend := s.pend.map fun x => if x.hdr.serial = serial ∧ x.hdr.index = index then
      { p with place := some { zone, off, len := p.hdr.len, stamp := s.alloc.stamp }, hdr := h } else x
    alloc := { alloc with
      stamp := s.alloc.stamp + 1
      zones := alloc.zones.map fun x => if x.zone = zone then
        { x with fill := x.fill + p.hdr.len
                 list := x.list ++ [{ window := p.hdr.window, serial, index, off, len := p.hdr.len
                                      stamp := s.alloc.stamp }] } else x }
    port := { s.port with queue := s.port.queue ++ [{
      cls := 3, user := .segment p.hdr.serial p.hdr.index s.alloc.stamp, op := .write, block := zone * 4096 + off
      count := p.hdr.len, data := segmentBlocks h p.payload }] } }

theorem makeRoom_fields {len : Nat} {a a' : Alloc} (h : a.makeRoom len = some a') : a'.stamp = a.stamp ∧ a'.waiting = a.waiting ∧ a'.j = a.j := by
  unfold Alloc.makeRoom at h
  split at h
  · cases h
  next z hz =>
    split at h
    · cases h; exact ⟨rfl, rfl, rfl⟩
    · split at h
      · cases h
        by_cases hi : z.idle <;> simp [hi, Alloc.freeZone, Alloc.modZone]
      · split at h
        · cases h; exact ⟨rfl, rfl, rfl⟩
        · cases h

theorem tryPlace_of_room {serial index : Nat} {p : PendSeg} {a : Alloc} {z : Zone} {s : State}
    (hp : s.pendSeg serial index = some p) (hroom : s.alloc.makeRoom p.hdr.len = some a) (hz : a.filling = some z) :
    s.tryPlace serial index = some (s.placedAt serial index p z.zone z.fill a) := by
  obtain ⟨hstamp, -, -⟩ := makeRoom_fields hroom
  simp only [State.tryPlace, hp, Alloc.takePlace, hroom, hz, State.placedAt, State.modPend, State.enqueue, Alloc.modZone, segmentReq,
    Place.block, hstamp, beq_iff_eq, Bool.and_eq_true]

theorem tryPlace_of_no_room {serial index : Nat} {p : PendSeg} {s : State} (hp : s.pendSeg serial index = some p)
    (hroom : s.alloc.makeRoom p.hdr.len = none) : s.tryPlace serial index = none := by
  simp only [State.tryPlace, hp, Alloc.takePlace, hroom]

theorem placeOnce_of_room {serial index : Nat} {p : PendSeg} {a : Alloc} {z : Zone} {s : State} (hh : s.halted = none)
    (hp : s.pendSeg serial index = some p) (hroom : s.alloc.makeRoom p.hdr.len = some a) (hz : a.filling = some z) :
    s.placeOnce serial index = s.placedAt serial index p z.zone z.fill a := by
  simp only [State.placeOnce, tryPlace_of_room hp hroom hz, isHalted_eq_false hh, Bool.false_eq_true, if_false]

theorem placeOnce_of_no_room {serial index : Nat} {p : PendSeg} {s : State} (hh : s.halted = none)
    (hp : s.pendSeg serial index = some p) (hroom : s.alloc.makeRoom p.hdr.len = none) :
    s.placeOnce serial index = s.joinWaiting (.place serial index) := by
  simp only [State.placeOnce, tryPlace_of_no_room hp hroom, isHalted_eq_false hh, Bool.false_eq_true, if_false]

/-- No zone joined the FIFO: the waiting list is not gone through. -/
theorem passIfJoined_of_subset {old : Alloc} {s : State} (h : ∀ n ∈ s.alloc.fifo, n ∈ old.fifo) : s.passIfJoined old = s := by
  have hj : old.zoneJoined s.alloc = false := by
    simpa [Alloc.zoneJoined] using h
  simp [State.passIfJoined, hj]

theorem makeRoom_of_fit {len : Nat} {a : Alloc} {z : Zone} (hz : a.filling = some z) (hfit : z.fill + len ≤ 4096) :
    a.makeRoom len = some a := by simp [Alloc.makeRoom, hz, hfit]

/-- A placement that fits in the FILLING zone goes to its fill point, and nothing else moves. -/
theorem placeOnce_of_fit {serial index : Nat} {p : PendSeg} {z : Zone} {s : State} (hh : s.halted = none)
    (hp : s.pendSeg serial index = some p) (hz : s.alloc.filling = some z) (hfit : z.fill + p.hdr.len ≤ 4096) :
    s.placeOnce serial index = s.placedAt serial index p z.zone z.fill s.alloc :=
  placeOnce_of_room hh hp (makeRoom_of_fit hz hfit) hz

/-- Room for a placement: in the FILLING zone, in a FREE one, or in a FILLING zone that holds nothing. -/
theorem canPlace_iff {len : Nat} {a : Alloc} :
    a.canPlace len = true ↔ ∃ z, a.filling = some z ∧ (z.fill + len ≤ 4096 ∨ a.fifo ≠ [] ∨ (z.live = 0 ∧ z.list = [])) := by
  cases hz : a.filling with
  | none => simp [Alloc.canPlace, hz]
  | some z =>
    simp only [Alloc.canPlace, Alloc.fits, hz, Option.isSome_some, Bool.true_and, Option.any_some, Zone.idle, Bool.or_eq_true,
      Bool.not_eq_true', List.isEmpty_eq_false_iff, decide_eq_true_eq, Bool.and_eq_true, beq_iff_eq, List.isEmpty_iff,
      Option.some.injEq, exists_eq_left']
    tauto

theorem find?_insertBy_pos {α : Type} {key : α → Nat} {x : α} {q : α → Bool} {l : List α} (hx : q x = true)
    (h : ∀ y ∈ l, q y = false) : (insertBy key x l).find? q = some x := by
  induction l with
  | nil => simp [insertBy, hx]
  | cons y l ih =>
    rw [List.forall_mem_cons] at h
    simp only [insertBy]
    split
    · simp [hx]
    · simpa [List.find?_cons, h.1] using ih h.2

theorem exists_find?_insertBy {α : Type} {key : α → Nat} {x : α} {q : α → Bool} {l : List α} (hx : q x = true) :
    ∃ y, (insertBy key x l).find? q = some y :=
  Option.isSome_iff_exists.mp (List.find?_isSome.mpr ⟨x, (perm_insertBy key x l).mem_iff.mpr (by simp), hx⟩)

theorem exists_filling_modZone {n : Nat} {f : Zone → Zone} (hf : ∀ x, (f x).filling = x.filling) {a : Alloc} {z : Zone}
    (hz : a.filling = some z) : ∃ y, (a.modZone n f).filling = some y := by
  refine Option.isSome_iff_exists.mp (List.find?_isSome.mpr ?_)
  have hmem := List.mem_of_find?_eq_some hz
  have hfill : z.filling = true := by simpa using List.find?_some hz
  refine ⟨if z.zone == n then f z else z, List.mem_map_of_mem hmem, ?_⟩
  split
  · rw [hf, hfill]
  · exact hfill

/-- Where there is room, a placement is made. -/
theorem makeRoom_of_canPlace {len : Nat} {a : Alloc} (h : a.canPlace len = true) :
    ∃ a' z, a.makeRoom len = some a' ∧ a'.filling = some z := by
  obtain ⟨z, hz, hroom⟩ := canPlace_iff.mp h
  by_cases hfit : z.fill + len ≤ 4096
  · exact ⟨a, z, makeRoom_of_fit hz hfit, hz⟩
  · cases hfifo : a.fifo with
    | cons n rest =>
      simp only [Alloc.makeRoom, hz, hfit, if_false, hfifo, Option.some.injEq, exists_eq_left', exists_and_left]
      exact exists_find?_insertBy rfl
    | nil =>
      have hidle : z.idle = true := by simpa [Zone.idle, hfit, hfifo] using hroom
      obtain ⟨y, hy⟩ := exists_filling_modZone (n := z.zone) (f := fun x => { x with fill := 0 }) (fun _ => rfl) hz
      exact ⟨_, y, by simp [Alloc.makeRoom, hz, hfit, hfifo, hidle], hy⟩

/-! ### Sealing -/

/-- The pending segment that sealing makes of the open segment of `c`, with no placement yet (4.8). -/
def Ctx.sealedSeg (status : PendStatus) (c : Ctx) : PendSeg := { hdr := c.header, payload := c.sealedPayload, status }

/-- The open segment of window `w` has become the pending segment `p` and a fresh one begins; `alloc` gives up a map entry, and the
seal waits no longer (4.8). -/
def State.sealedInto (w serial : Nat) (p : PendSeg) (alloc : Alloc) (s : State) : State :=
  { s with
    pend := s.pend ++ [p]
    ctxs := s.ctxs.map fun x => if x.window = w then
      { x with
        next := x.next + 1
        seg := { index := x.next + 1, first := x.seg.first + x.seg.blocks, kind := if x.framer = .raw then .raw else .coded }
        reference := zeroRecord } else x
    alloc := { alloc with mapFree := s.alloc.mapFree - 1, waiting := s.alloc.waiting.filter (· ≠ .seal w serial) } }

/-- The status that a sealed segment begins with. -/
def State.sealStatus (s : State) : PendStatus := if s.isHalted then .unwritten else .writing

theorem sealOnce_eq {w : Nat} {s : State} {c : Ctx} (hc : s.ctx w = some c) :
    s.sealOnce w = if c.opened then (s.sealedInto w c.serial (c.sealedSeg s.sealStatus) s.alloc).placeOnce c.serial c.next
      else s.sealedInto w c.serial (c.sealedSeg s.sealStatus) s.alloc := by
  have hitems : s.alloc.waiting.filter (· != .seal w c.serial) = s.alloc.waiting.filter (· ≠ .seal w c.serial) :=
    List.filter_congr fun i _ => by simp [bne, Bool.beq_eq_decide_eq]
  simp only [State.sealOnce, hc, State.modCtx, State.leaveWaiting, State.sealedInto, freshSeg, hitems, beq_iff_eq]
  rfl

theorem seal_eq {w : Nat} {s : State} {c : Ctx} (hc : s.ctx w = some c) :
    s.seal w = if c.opened then (s.sealedInto w c.serial (c.sealedSeg s.sealStatus) s.alloc).placeOrWait c.serial c.next
      else s.sealedInto w c.serial (c.sealedSeg s.sealStatus) s.alloc := by
  rw [State.seal, sealOnce_eq hc]
  split
  · simp only [State.placeOrWait, State.passIfJoined]
    rfl
  · exact passIfJoined_of_subset fun n hn => hn

/-- A HALTED part, and one whose open's writes are out, seals without a placement. -/
theorem seal_of_unplaced {w : Nat} {s : State} {c : Ctx} (hc : s.ctx w = some c) (h : s.isHalted = true ∨ c.opened = false) :
    s.seal w = s.sealedInto w c.serial (c.sealedSeg s.sealStatus) s.alloc := by
  rw [seal_eq hc]
  split
  next ho =>
    have hh : s.isHalted = true := h.resolve_right (by simp [ho])
    have hhu : (s.sealedInto w c.serial (c.sealedSeg s.sealStatus) s.alloc).isHalted = true := hh
    rw [State.placeOrWait, State.placeOnce, if_pos hhu]
    exact passIfJoined_of_subset fun n hn => hn
  · rfl

/-- A segment joins the pending list where none stands at its serial and index, and is found there. -/
theorem pendSeg_sealedInto {w serial : Nat} {p : PendSeg} {a : Alloc} {s : State}
    (hnew : ∀ x ∈ s.pend, ¬(x.hdr.serial = p.hdr.serial ∧ x.hdr.index = p.hdr.index)) :
    (s.sealedInto w serial p a).pendSeg p.hdr.serial p.hdr.index = some p := by
  have hnone : s.pend.find? (fun x => x.hdr.serial == p.hdr.serial && x.hdr.index == p.hdr.index) = none := by
    simpa using hnew
  simp [State.pendSeg, State.sealedInto, List.find?_append, hnone]

/-- Sealed and placed in the FILLING zone, the segment has its place, its stamp and its write. -/
theorem seal_of_fit {w : Nat} {s : State} {c : Ctx} {z : Zone} (hc : s.ctx w = some c) (hh : s.halted = none) (ho : c.opened = true)
    (hnew : ∀ x ∈ s.pend, ¬(x.hdr.serial = c.serial ∧ x.hdr.index = c.next)) (hz : s.alloc.filling = some z)
    (hfit : z.fill + c.sealLen ≤ 4096) :
    s.seal w = (s.sealedInto w c.serial (c.sealedSeg .writing) s.alloc).placedAt c.serial c.next (c.sealedSeg .writing) z.zone z.fill
      (s.sealedInto w c.serial (c.sealedSeg .writing) s.alloc).alloc := by
  have hst : s.sealStatus = .writing := by simp [State.sealStatus, isHalted_eq_false hh]
  rw [seal_eq hc, if_pos ho, State.placeOrWait, hst, placeOnce_of_fit (serial := c.serial) (index := c.next)
    (s := s.sealedInto w c.serial (c.sealedSeg .writing) s.alloc) hh (pendSeg_sealedInto (p := c.sealedSeg .writing) hnew) hz hfit]
  exact passIfJoined_of_subset fun n hn => hn

/-- The pending segment that sealing makes, placed at an offset of a zone with the next write stamp. -/
def Ctx.placedSeg (zone off stamp : Nat) (c : Ctx) : PendSeg :=
  { hdr := { c.header with stamp }, payload := c.sealedPayload, status := .writing,
    place := some { zone, off, len := c.sealLen, stamp } }

/-- A segment just sealed is the one that its placement changes. -/
theorem placedAt_sealedInto {w zone off : Nat} {s : State} {c : Ctx}
    (hnew : ∀ x ∈ s.pend, ¬(x.hdr.serial = c.serial ∧ x.hdr.index = c.next)) :
    (s.sealedInto w c.serial (c.sealedSeg .writing) s.alloc).placedAt c.serial c.next (c.sealedSeg .writing) zone off
        (s.sealedInto w c.serial (c.sealedSeg .writing) s.alloc).alloc
      = { s.sealedInto w c.serial (c.placedSeg zone off s.alloc.stamp)
            { s.alloc with
              stamp := s.alloc.stamp + 1
              zones := s.alloc.zones.map fun x => if x.zone = zone then
                { x with fill := x.fill + c.sealLen
                         list := x.list ++ [{ window := c.window, serial := c.serial, index := c.next, off, len := c.sealLen
                                              stamp := s.alloc.stamp }] } else x } with
          port := { s.port with queue := s.port.queue ++ [{
            cls := 3, user := .segment c.serial c.next s.alloc.stamp, op := .write, block := zone * 4096 + off, count := c.sealLen
            data := segmentBlocks { c.header with stamp := s.alloc.stamp } c.sealedPayload }] } } := by
  have hpend : (s.pend ++ [c.sealedSeg .writing]).map (fun x => if x.hdr.serial = c.serial ∧ x.hdr.index = c.next then
      c.placedSeg zone off s.alloc.stamp else x) = s.pend ++ [c.placedSeg zone off s.alloc.stamp] := by
    rw [List.map_append, (List.map_congr_left fun x hx => if_neg (hnew x hx)).trans (List.map_id' s.pend)]
    simp [Ctx.sealedSeg, Ctx.header]
  exact congrArg (fun l => { (s.sealedInto w c.serial (c.sealedSeg .writing) s.alloc).placedAt c.serial c.next (c.sealedSeg .writing)
    zone off (s.sealedInto w c.serial (c.sealedSeg .writing) s.alloc).alloc with pend := l }) hpend

theorem canClose_iff {c : Ctx} {s : State} :
    s.canClose c = true ↔ (s.pendOf c.serial).length < 3 ∧ 0 < s.alloc.mapFree ∧ s.sealPlaces c = true := by
  simp [State.canClose, and_assoc]

theorem sealPlaces_iff {c : Ctx} {s : State} :
    s.sealPlaces c = true ↔ s.isHalted = true ∨ ¬(c.openCatalogue = true ∧ c.openSettings = true) ∨ ∃ z, s.alloc.filling = some z
      ∧ (z.fill + c.sealLen ≤ 4096 ∨ s.alloc.fifo ≠ [] ∨ (z.live = 0 ∧ z.list = [])) := by
  rw [← canPlace_iff, State.sealPlaces, Ctx.opened, Bool.or_eq_true, Bool.or_eq_true, Bool.not_eq_true', Bool.and_eq_false_iff, or_assoc]
  refine or_congr_right (or_congr_left ?_)
  simp only [← Bool.not_eq_true, not_and_or]

/-! ### What stays of a segment just sealed, while the waiting list is gone through -/

/-- The open segment of `c` has been sealed: its pending segment, placed if `placed`, and a fresh open segment with no close held. -/
def State.HasSealed (placed : Bool) (w : Nat) (c : Ctx) (t : State) : Prop :=
  (∃ p, t.pendSeg c.serial c.next = some p ∧ p.hdr = { c.header with stamp := p.hdr.stamp } ∧ (placed = true → p.place.isSome = true)
    ∧ p.status = .writing)
  ∧ ∃ x, t.ctx w = some x ∧ x.next = c.next + 1 ∧ x.seg.blocks = 0 ∧ x.seg.first = c.seg.first + c.seg.blocks ∧ x.seg.held = none

theorem hasSealed_congr {placed : Bool} {w : Nat} {c : Ctx} {s t : State} (hp : t.pend = s.pend) (hc : t.ctxs = s.ctxs)
    (h : s.HasSealed placed w c) : t.HasSealed placed w c := by
  simpa only [State.HasSealed, State.pendSeg, State.ctx, hp, hc] using h

/-- A placement changes the header of the segment it names in the write stamp alone. -/
theorem pendSeg_placedAt {serial index : Nat} {p : PendSeg} {zone off : Nat} {a : Alloc} {s : State}
    (hp : s.pendSeg serial index = some p) (n i : Nat) :
    (s.placedAt serial index p zone off a).pendSeg n i = (s.pendSeg n i).map fun x => if n = serial ∧ i = index then
      { p with place := some { zone, off, len := p.hdr.len, stamp := s.alloc.stamp }, hdr := { p.hdr with stamp := s.alloc.stamp } }
      else x := by
  have hkey : p.hdr.serial = serial ∧ p.hdr.index = index := by simpa using List.find?_some hp
  simp only [State.pendSeg, State.placedAt]
  clear hp
  induction s.pend with
  | nil => rfl
  | cons x xs ih =>
    rw [List.map_cons, List.find?_cons, List.find?_cons, ih]
    by_cases hx : x.hdr.serial = n ∧ x.hdr.index = i
    · obtain ⟨rfl, rfl⟩ := hx
      by_cases he : x.hdr.serial = serial ∧ x.hdr.index = index
      · simp [he, hkey]
      · simp [he]
    · have hx' : (x.hdr.serial == n && x.hdr.index == i) = false := by simpa using hx
      rw [hx']
      by_cases he : x.hdr.serial = serial ∧ x.hdr.index = index
      · have hne : ((p.hdr.serial == n) && (p.hdr.index == i)) = false := by
          rw [hkey.1, hkey.2, ← he.1, ← he.2]; exact hx'
        simp only [he, and_self, if_true, hne]
      · simp only [he, if_false, hx']

/-- What a placement that is made does to its state. -/
theorem tryPlace_eq_some {serial index : Nat} {s t : State} (h : s.tryPlace serial index = some t) :
    ∃ (p : PendSeg) (z : Zone) (a : Alloc), s.pendSeg serial index = some p
      ∧ s.alloc.makeRoom p.hdr.len = some a ∧ a.filling = some z ∧ t = s.placedAt serial index p z.zone z.fill a := by
  cases hp : s.pendSeg serial index with
  | none => simp [State.tryPlace, hp] at h
  | some p =>
    cases hroom : s.alloc.makeRoom p.hdr.len with
    | none => rw [tryPlace_of_no_room hp hroom] at h; cases h
    | some a =>
      cases hz : a.filling with
      | none => simp [State.tryPlace, hp, Alloc.takePlace, hroom, hz] at h
      | some z =>
        rw [tryPlace_of_room hp hroom hz] at h
        exact ⟨p, z, a, rfl, hroom, hz, (Option.some.inj h).symm⟩

theorem hasSealed_placedAt {placed : Bool} {w : Nat} {c : Ctx} {serial index zone off : Nat} {p : PendSeg} {a : Alloc} {s : State}
    (hp : s.pendSeg serial index = some p) (h : s.HasSealed placed w c) : (s.placedAt serial index p zone off a).HasSealed placed w c := by
  obtain ⟨⟨q, hq, hhdr, hplace, hstatus⟩, hctx⟩ := h
  refine ⟨?_, hctx⟩
  simp only [pendSeg_placedAt hp, hq, Option.map_some, Option.some.injEq, exists_eq_left']
  split
  next he =>
    obtain ⟨rfl, rfl⟩ := he
    obtain rfl : q = p := Option.some.inj (hq.symm.trans hp)
    refine ⟨?_, fun _ => rfl, hstatus⟩
    show ({ q.hdr with stamp := s.alloc.stamp } : SegHeader) = { c.header with stamp := s.alloc.stamp }
    rw [hhdr]
  · exact ⟨hhdr, hplace, hstatus⟩

theorem hasSealed_tryPlace {placed : Bool} {w : Nat} {c : Ctx} {serial index : Nat} {s t : State}
    (ht : s.tryPlace serial index = some t) (h : s.HasSealed placed w c) : t.HasSealed placed w c := by
  obtain ⟨p, z, a, hp, -, -, rfl⟩ := tryPlace_eq_some ht
  exact hasSealed_placedAt hp h

theorem hasSealed_placeOnce {placed : Bool} {w : Nat} {c : Ctx} {serial index : Nat} {s : State} (h : s.HasSealed placed w c) :
    (s.placeOnce serial index).HasSealed placed w c := by
  unfold State.placeOnce
  split
  · exact h
  · split
    next ht => exact hasSealed_tryPlace ht h
    · unfold State.joinWaiting
      split
      · exact h
      · exact hasSealed_congr rfl rfl h

/-- Another context's seal leaves the segment just sealed as it is. -/
theorem hasSealed_sealOnce {placed : Bool} {w k : Nat} {c d : Ctx} {s : State} (hk : s.ctx k = some d) (hne : k ≠ w)
    (h : s.HasSealed placed w c) : (s.sealOnce k).HasSealed placed w c := by
  have hbase : (s.sealedInto k d.serial (d.sealedSeg s.sealStatus) s.alloc).HasSealed placed w c := by
    obtain ⟨⟨q, hq, hrest⟩, x, hx, hxrest⟩ := h
    refine ⟨⟨q, ?_, hrest⟩, x, ?_, hxrest⟩
    · show (s.pend ++ _).find? _ = some q
      rw [List.find?_append, show s.pend.find? _ = some q from hq]
      rfl
    · have hmap := ctx_modCtx k w (fun x => { x with
        next := x.next + 1
        seg := { index := x.next + 1, first := x.seg.first + x.seg.blocks, kind := if x.framer = .raw then .raw else .coded }
        reference := zeroRecord }) (fun _ => rfl) s
      rw [hx, Option.map_some, if_neg (by simpa using hne.symm)] at hmap
      rw [← hmap]
      simp [State.ctx, State.modCtx, State.sealedInto]
  rw [sealOnce_eq hk]
  split
  · exact hasSealed_placeOnce hbase
  · exact hbase

theorem hasSealed_proceed {placed : Bool} {w : Nat} {c : Ctx} (i : WaitItem) {s : State} (h : s.HasSealed placed w c) :
    (State.proceed i s).HasSealed placed w c := by
  have hleave : (s.leaveWaiting i).HasSealed placed w c := hasSealed_congr rfl rfl h
  match i, hleave with
  | .seal k n, hleave =>
    simp only [State.proceed]
    split
    · exact hleave
    next d hk =>
      split
      · exact hleave
      next hheld =>
        split
        · refine hasSealed_sealOnce hk ?_ h
          rintro rfl
          obtain ⟨-, x, hx, -, -, -, hnone⟩ := h
          obtain rfl : x = d := Option.some.inj (hx.symm.trans hk)
          simp [hnone] at hheld
        · exact h
  | .place n j, hleave =>
    simp only [State.proceed]
    split
    · exact hleave
    · split
      · exact h
      next t ht => exact hasSealed_congr (s := t) rfl rfl (hasSealed_tryPlace ht h)

theorem each_of_kept {α : Type} {f : α → State → State} {K : State → Prop} (hf : ∀ x s, K s → K (f x s)) (xs : List α) {s : State}
    (h : K s) : K (each f xs s) := by
  induction xs generalizing s with
  | nil => exact h
  | cons x xs ih => exact ih (hf x s h)

/-- A property that each entry's turn keeps, the pass of the waiting list keeps. -/
theorem passAgain_of_kept {K : State → Prop} (hK : ∀ i s, K s → K (State.proceed i s)) (n : Nat) {s : State} (h : K s) :
    K (s.passAgain n) := by
  induction n generalizing s with
  | zero => exact h
  | succ n ih =>
    have hpass := each_of_kept hK s.alloc.waiting h
    unfold State.passAgain
    dsimp only
    split
    · exact ih hpass
    · exact hpass

theorem passWaiting_of_kept {K : State → Prop} (hK : ∀ i s, K s → K (State.proceed i s)) {s : State} (h : K s) : K s.passWaiting := by
  unfold State.passWaiting
  split
  · exact h
  · exact passAgain_of_kept hK _ h

theorem passIfJoined_of_kept {K : State → Prop} (hK : ∀ i s, K s → K (State.proceed i s)) (old : Alloc) {s : State} (h : K s) :
    K (s.passIfJoined old) := by
  unfold State.passIfJoined
  split
  · exact passWaiting_of_kept hK h
  · exact h

theorem hasSealed_sealedInto {w : Nat} {c : Ctx} {s : State} (hc : s.ctx w = some c) (hh : s.halted = none)
    (hnew : ∀ x ∈ s.pend, ¬(x.hdr.serial = c.serial ∧ x.hdr.index = c.next)) :
    (s.sealedInto w c.serial (c.sealedSeg s.sealStatus) s.alloc).HasSealed false w c := by
  have hw := ctx_window hc
  refine ⟨⟨_, pendSeg_sealedInto (p := c.sealedSeg s.sealStatus) hnew, rfl, nofun, ?_⟩, ?_⟩
  · simp [Ctx.sealedSeg, State.sealStatus, isHalted_eq_false hh]
  · have hmap := ctx_modCtx w w (fun x => { x with
      next := x.next + 1
      seg := { index := x.next + 1, first := x.seg.first + x.seg.blocks, kind := if x.framer = .raw then .raw else .coded }
      reference := zeroRecord }) (fun _ => rfl) s
    rw [hc, Option.map_some, if_pos (beq_self_eq_true w)] at hmap
    refine ⟨_, Eq.trans ?_ hmap, rfl, rfl, rfl, rfl⟩
    simp [State.ctx, State.modCtx, State.sealedInto]

/-- A seal in a part that runs, for which there is room, leaves its segment placed and WRITING. -/
theorem hasSealed_seal {w : Nat} {s : State} {c : Ctx} (hc : s.ctx w = some c) (hh : s.halted = none)
    (hnew : ∀ x ∈ s.pend, ¬(x.hdr.serial = c.serial ∧ x.hdr.index = c.next)) :
    (s.seal w).HasSealed false w c
      ∧ (c.opened = true → s.alloc.canPlace c.sealLen = true → (s.seal w).HasSealed true w c) := by
  have hbase := hasSealed_sealedInto hc hh hnew
  have hseg := pendSeg_sealedInto (w := w) (serial := c.serial) (p := c.sealedSeg s.sealStatus) (a := s.alloc) hnew
  rw [seal_eq hc]
  constructor
  · split
    · exact passIfJoined_of_kept (fun i s h => hasSealed_proceed i h) _ (hasSealed_placeOnce hbase)
    · exact hbase
  · intro ho hroom
    obtain ⟨a, z, ha, hz⟩ :=
      makeRoom_of_canPlace (a := (s.sealedInto w c.serial (c.sealedSeg s.sealStatus) s.alloc).alloc) hroom
    rw [if_pos ho, State.placeOrWait,
      placeOnce_of_room (serial := c.serial) (index := c.next) (s := s.sealedInto w c.serial (c.sealedSeg s.sealStatus) s.alloc) hh hseg ha hz]
    refine passIfJoined_of_kept (fun i s h => hasSealed_proceed i h) _ ?_
    obtain ⟨⟨q, hq, hhdr, -, hstatus⟩, hctx⟩ := hasSealed_placedAt (zone := z.zone) (off := z.fill) (a := a) hseg hbase
    refine ⟨⟨q, hq, hhdr, fun _ => ?_, hstatus⟩, hctx⟩
    rw [pendSeg_placedAt hseg, show State.pendSeg _ c.serial c.next = _ from hseg] at hq
    have hkey : c.serial = (c.sealedSeg s.sealStatus).hdr.serial ∧ c.next = (c.sealedSeg s.sealStatus).hdr.index := ⟨rfl, rfl⟩
    rw [Option.map_some, if_pos hkey] at hq
    rw [← Option.some.inj hq]
    rfl

/-! ### HELD_CLOSE -/

theorem exec_heldClose_of_none {window : BitVec 12} {s : State} {c : Ctx} (hc : s.ctx window.toNat = some c) (hheld : c.seg.held = none) :
    exec (.heldClose window) s = .next s := by
  simp [exec, execHeldClose, hc, hheld]

theorem exec_heldClose {window : BitVec 12} {s : State} {c : Ctx} (hr : s.resetHeld = false) (hst : s.startup = none)
    (hc : s.ctx window.toNat = some c) (hheld : c.seg.held.isSome = true) :
    exec (.heldClose window) s = .next (if s.canClose c then s.seal window.toNat
      else if s.alloc.mapFree == 0 || !s.sealPlaces c then s.joinWaiting (.seal window.toNat c.serial) else s) := by
  have hsome : c.seg.held.isNone = false := by simpa [Option.isSome_iff_ne_none] using hheld
  simp [exec, execHeldClose, State.starting, hr, hst, hc, hsome]

theorem joinWaiting_of_mem {i : WaitItem} {s : State} (h : i ∈ s.alloc.waiting) : s.joinWaiting i = s := by
  simp [State.joinWaiting, h]

theorem joinWaiting_of_not_mem {i : WaitItem} {s : State} (h : i ∉ s.alloc.waiting) :
    s.joinWaiting i = { s with alloc := { s.alloc with waiting := s.alloc.waiting ++ [i] } } := by
  simp [State.joinWaiting, h]

theorem canClose_of_room {c : Ctx} {s : State} (hp : (s.pendOf c.serial).length < 3) (hm : 0 < s.alloc.mapFree)
    (hroom : s.sealPlaces c = true) : s.canClose c = true := canClose_iff.mpr ⟨hp, hm, hroom⟩

theorem canClose_of_pending {c : Ctx} {s : State} (hp : 3 ≤ (s.pendOf c.serial).length) : s.canClose c = false :=
  Bool.eq_false_iff.mpr fun h => absurd (canClose_iff.mp h).1 (by omega)

/-- A map entry or a placement is lacking: the close cannot be made, and the seal waits. -/
theorem lacks_of {c : Ctx} {s : State} (h : s.alloc.mapFree = 0 ∨ ¬s.sealPlaces c = true) :
    s.canClose c = false ∧ (s.alloc.mapFree == 0 || !s.sealPlaces c) = true := by
  constructor
  · refine Bool.eq_false_iff.mpr fun hclose => ?_
    obtain ⟨-, hmap, hplace⟩ := canClose_iff.mp hclose
    exact h.elim (by omega) (fun hn => hn hplace)
  · simpa using h

theorem lacks_eq_false {c : Ctx} {s : State} (hm : 0 < s.alloc.mapFree) (hroom : s.sealPlaces c = true) :
    (s.alloc.mapFree == 0 || !s.sealPlaces c) = false := by
  simp [hroom]; omega

theorem opened_iff {c : Ctx} : c.opened = true ↔ c.openCatalogue = true ∧ c.openSettings = true := Bool.and_eq_true_iff

/-- Settles O45. -/
theorem heldCloseSealsTheSegment : Obligations.HeldCloseSealsTheSegment := by
  unfold Obligations.HeldCloseSealsTheSegment
  refine ⟨fun window s hc => by simp [exec, execHeldClose, hc], ?_⟩
  intro window s c hr hst hc row pending written room item h sealed
  have hroom : s.sealPlaces c = true ↔ room := sealPlaces_iff
  refine ⟨exec_heldClose_of_none hc, fun hheld => ⟨?pending, ?lacks, ?unplaced, ?placed⟩⟩
  all_goals have hexec := exec_heldClose hr hst hc hheld
  case pending =>
    intro hp hm hr'
    rw [canClose_of_pending hp, lacks_eq_false hm (hroom.mpr hr')] at hexec
    exact hexec
  case lacks =>
    intro hl
    obtain ⟨hclose, hlack⟩ := lacks_of (c := c) (s := s) (hl.imp_right fun hn hp => hn (hroom.mp hp))
    rw [hclose, hlack] at hexec
    exact ⟨fun hmem => hexec.trans (congrArg _ (joinWaiting_of_mem hmem)),
      fun hmem => hexec.trans (congrArg _ (joinWaiting_of_not_mem hmem))⟩
  case unplaced =>
    intro hp hm hu
    have hplaces := hroom.mpr (hu.imp_right Or.inl)
    rw [canClose_of_room hp hm hplaces, if_pos rfl,
      seal_of_unplaced hc (hu.imp_right fun hw => Bool.eq_false_iff.mpr fun ho => hw (opened_iff.mp ho))] at hexec
    exact hexec
  case placed =>
    intro hp hm hr' hh hw
    have ho := opened_iff.mpr hw
    have hst : s.sealStatus = .writing := by simp [State.sealStatus, isHalted_eq_false hh]
    rw [canClose_of_room hp hm (hroom.mpr hr'), if_pos rfl] at hexec
    refine ⟨?_, fun hnew => ⟨?_, ?_⟩⟩
    · rw [hexec, seal_eq hc, if_pos ho, hst]
      rfl
    · have hplace : s.alloc.canPlace c.sealLen = true := by
        simpa [State.sealPlaces, isHalted_eq_false hh, ho] using hroom.mpr hr'
      obtain ⟨⟨p, hp, hhdr, hplaced, hstatus⟩, x, hx, hnext, hblocks, hfirst, -⟩ := (hasSealed_seal hc hh hnew).2 ho hplace
      exact ⟨_, p, x, hexec, List.mem_of_find?_eq_some hp, hhdr, hplaced rfl, hstatus, hx, hnext, hblocks, hfirst⟩
    · intro z hz hfit
      rw [hexec, seal_of_fit hc hh ho hnew hz hfit, placedAt_sealedInto hnew]
      rfl

end Sys2Proof.Machine
end

section
/-! The idle timer of an OPEN volume runs out (1.5): O46. -/

namespace Sys2Proof.Machine

/-! ### What an append looks at -/

/-- Two states append alike: the journal unit, the halt, the ring's length and the archive day are the same. -/
structure State.SameJournal (s t : State) : Prop where
  jr : t.jr = s.jr
  halted : t.halted = s.halted
  ring : t.alloc.j = s.alloc.j
  day : t.ret.day = s.ret.day

theorem sameJournal_callJournal {s t : State} (h : s.SameJournal t) (ring : Nat) (content : Block) (ws : List JournalWaiter) :
    (s.callJournal ring content ws).SameJournal (t.callJournal ring content ws) := by
  obtain ⟨hjr, hhalt, hj, hday⟩ := h
  simp only [State.callJournal, State.isHalted, hjr, hhalt]
  split
  · exact ⟨hjr, hhalt, hj, hday⟩
  · split <;> exact ⟨rfl, rfl, hj, hday⟩

theorem sameJournal_passBlock {s t : State} (h : s.SameJournal t) : s.passBlock.SameJournal t.passBlock := by
  have hcall := sameJournal_callJournal h
  obtain ⟨hjr, hhalt, hj, hday⟩ := h
  simp only [State.passBlock, State.headRing, State.ringLen, hjr, hj, hday]
  split
  · exact ⟨by simp only [hjr], hhalt, hj, hday⟩
  · obtain ⟨kjr, khalt, kj, kday⟩ := hcall (s.jr.head % (s.alloc.j * 4096)) (renderJournal s.jr.head
      (if 16 ≤ 4096 - s.jr.buf.used then
        { s.jr.buf with body := s.jr.buf.body ++ fillerBytes (4096 - s.jr.buf.used) s.ret.day } else s.jr.buf)) []
    exact ⟨by simp only [kjr], khalt, kj, kday⟩

theorem sameJournal_append {s t : State} (h : s.SameJournal t) {a : Append} (ha : a.who = .nobody) :
    (s.append a).SameJournal (t.append a) := by
  have hpass := sameJournal_passBlock h
  have hfits : t.fits a = s.fits a := by simp only [State.fits, h.jr]
  have hcan : t.canAppend a = s.canAppend a := by
    simp only [State.canAppend, State.journalFull, State.journalFree, State.ringLen, State.isHalted, hfits, h.jr, h.ring, h.halted]
  simp only [State.append, hcan, h.jr]
  split
  · simp only [State.appendNow, ha, State.release, hfits]
    have hplace : ((if s.fits a then s else s.passBlock).placeEntry a).SameJournal ((if s.fits a then t else t.passBlock).placeEntry a) := by
      split
      · exact ⟨by simp only [State.placeEntry, h.jr, h.day], h.halted, h.ring, h.day⟩
      · exact ⟨by simp only [State.placeEntry, hpass.jr, hpass.day], hpass.halted, hpass.ring, hpass.day⟩
    split
    · have hcall := sameJournal_callJournal hplace
      generalize (if s.fits a then s else s.passBlock).placeEntry a = u at hplace hcall ⊢
      generalize (if s.fits a then t else t.passBlock).placeEntry a = x at hplace hcall ⊢
      simpa only [State.headRing, State.ringLen, hplace.jr, hplace.ring] using
        hcall (u.jr.head % (u.alloc.j * 4096)) (renderJournal u.jr.head u.jr.buf) a.waiters
    · exact hplace
  · exact ⟨rfl, h.halted, h.ring, h.day⟩

/-! ### The ring's length stays while segments are sealed and placed -/

theorem placeOnce_ring (serial index : Nat) (s : State) : (s.placeOnce serial index).alloc.j = s.alloc.j := by
  unfold State.placeOnce
  split
  · rfl
  · split
    next ht =>
      obtain ⟨p, z, a, -, hroom, -, rfl⟩ := tryPlace_eq_some ht
      exact (makeRoom_fields hroom).2.2
    · unfold State.joinWaiting
      split <;> rfl

theorem sealOnce_ring (w : Nat) (s : State) : (s.sealOnce w).alloc.j = s.alloc.j := by
  cases hc : s.ctx w with
  | none => simp [State.sealOnce, hc]
  | some c =>
    rw [sealOnce_eq hc]
    split
    · exact placeOnce_ring _ _ _
    · rfl

theorem proceed_ring (i : WaitItem) (s : State) : (State.proceed i s).alloc.j = s.alloc.j := by
  match i with
  | .seal w n =>
    simp only [State.proceed]
    split
    · rfl
    · split
      · rfl
      · split
        · exact sealOnce_ring w s
        · rfl
  | .place n k =>
    simp only [State.proceed]
    split
    · rfl
    · split
      · rfl
      next ht =>
        obtain ⟨p, z, a, -, hroom, -, rfl⟩ := tryPlace_eq_some ht
        exact (makeRoom_fields hroom).2.2

theorem seal_ring (w : Nat) (s : State) : (s.seal w).alloc.j = s.alloc.j :=
  passIfJoined_of_kept (K := fun t => t.alloc.j = s.alloc.j) (fun i t h => (proceed_ring i t).trans h) _ (sealOnce_ring w s)

/-! ### The windows of the contexts stay too -/

theorem placeOnce_ctxs (serial index : Nat) (s : State) : (s.placeOnce serial index).ctxs = s.ctxs := by
  rw [placeOnce_only]

theorem sealOnce_windows (w : Nat) (s : State) : (s.sealOnce w).ctxs.map (·.window) = s.ctxs.map (·.window) := by
  cases hc : s.ctx w with
  | none => simp [State.sealOnce, hc]
  | some c =>
    have hbase : (s.sealedInto w c.serial (c.sealedSeg s.sealStatus) s.alloc).ctxs.map (·.window) = s.ctxs.map (·.window) := by
      rw [State.sealedInto, List.map_map]
      refine List.map_congr_left fun x _ => ?_
      simp only [Function.comp_apply]
      split <;> rfl
    rw [sealOnce_eq hc]
    split
    · rw [placeOnce_ctxs, hbase]
    · exact hbase

theorem proceed_windows (i : WaitItem) (s : State) : (State.proceed i s).ctxs.map (·.window) = s.ctxs.map (·.window) := by
  match i with
  | .seal w n =>
    simp only [State.proceed]
    split
    · rfl
    · split
      · rfl
      · split
        · exact sealOnce_windows w s
        · rfl
  | .place n k =>
    simp only [State.proceed]
    split
    · rfl
    · split
      · rfl
      next ht => rw [leaveWaiting_ctxs, tryPlace_only ht]

theorem seal_windows (w : Nat) (s : State) : (s.seal w).ctxs.map (·.window) = s.ctxs.map (·.window) :=
  passIfJoined_of_kept (K := fun t => t.ctxs.map (·.window) = s.ctxs.map (·.window)) (fun i t h => (proceed_windows i t).trans h) _
    (sealOnce_windows w s)

theorem exists_ctx_iff {w : Nat} {s : State} : (∃ c, s.ctx w = some c) ↔ w ∈ s.ctxs.map (·.window) := by
  rw [← Option.isSome_iff_exists, State.ctx, List.find?_isSome]
  simp

/-! ### The idle timer -/

/-- What the expiry leaves once the close due has been made or held: STALLED, the timer stopped, the STALL entry, VOLUME_STALLED. -/
def State.stalledWith (w : Nat) (entry : Append) (u : State) : State :=
  (State.append entry { u with
    vols := u.vols.map fun x => if x.window = w then { x with stalled := true } else x
    ctxs := u.ctxs.map fun x => if x.window = w then { x with idle := none } else x }).setStalled

/-- The STALL entry of a volume (12.4). -/
def stallEntry (w : Nat) (v : Volume) (c : Ctx) : Append :=
  { code := 0x0005, body := be 2 w ++ be 4 v.serial ++ be 4 v.ingest ++ be 4 c.committed }

/-- A close is held on the open segment of a window (4.7). -/
def State.closeHeld (cond : CloseCond) (w : Nat) (s : State) : State :=
  { s with ctxs := s.ctxs.map fun x => if x.window = w then { x with seg := { x.seg with held := some cond } } else x }

variable {window : BitVec 12} {s : State} {v : Volume} {c : Ctx}

theorem exec_idleTimerExpiry_of_stopped (hv : s.vol window.toNat = some v) (hc : s.ctx window.toNat = some c)
    (h : v.state ≠ .opened ∨ c.idle = none) : exec (.idleTimerExpiry window) s = .next s := by
  have hno : (v.state == .opened && c.idle.isSome) = false := by
    rw [Bool.and_eq_false_iff]
    exact h.imp (fun hn => by simpa using hn) (fun hn => by simp [hn])
  simp [exec, execIdleTimerExpiry, hv, hc, hno]

theorem exec_idleTimerExpiry (hr : s.resetHeld = false) (hv : s.vol window.toNat = some v) (hc : s.ctx window.toNat = some c)
    (ho : v.state = .opened) (hi : c.idle.isSome = true) :
    exec (.idleTimerExpiry window) s
      = .next ((s.closeDue .idleTimer window.toNat).stalledWith window.toNat (stallEntry window.toNat v c)) := by
  simp only [exec, execIdleTimerExpiry, hr, hv, hc, ho, hi, Bool.and_self, State.idleExpires, State.stalledWith, stallEntry, stallBody,
    State.modVol, State.modCtx, beq_self_eq_true, if_true, Bool.false_eq_true, if_false, beq_iff_eq]

/-- The close due on the open segment: none, made, or held. -/
theorem closeDue_of_none {cond : CloseCond} {w : Nat} (hc : s.ctx w = some c) (h : c.seg.blocks = 0 ∨ c.seg.held.isSome = true) :
    s.closeDue cond w = s := by
  have hno : (c.seg.blocks == 0 || c.seg.held.isSome) = true := by
    rw [Bool.or_eq_true]; exact h.imp (fun hb => by simpa using hb) id
  simp [State.closeDue, hc, hno]

theorem closeDue_eq {cond : CloseCond} {w : Nat} (hc : s.ctx w = some c) (hb : c.seg.blocks ≠ 0) (hh : c.seg.held = none) :
    s.closeDue cond w = if s.canClose c then s.seal w
      else if s.alloc.mapFree == 0 || !s.sealPlaces c then (s.closeHeld cond w).joinWaiting (.seal w c.serial)
      else s.closeHeld cond w := by
  have hno : (c.seg.blocks == 0 || c.seg.held.isSome) = false := by simpa [hh] using hb
  simp only [State.closeDue, hc, hno, Bool.false_eq_true, if_false, State.holdClose, State.closeHeld, State.modCtx, beq_iff_eq]
  rfl

theorem joinWaiting_eq (i : WaitItem) (s : State) : ∃ l, s.joinWaiting i = { s with alloc := { s.alloc with waiting := l } } := by
  by_cases h : i ∈ s.alloc.waiting
  · exact ⟨s.alloc.waiting, joinWaiting_of_mem h⟩
  · exact ⟨_, joinWaiting_of_not_mem h⟩

/-- A close due keeps the ring's length, and the window of every context. -/
theorem closeDue_kept (cond : CloseCond) {w : Nat} (hc : s.ctx w = some c) :
    (s.closeDue cond w).alloc.j = s.alloc.j ∧ (s.closeDue cond w).ctxs.map (·.window) = s.ctxs.map (·.window) := by
  by_cases hdue : c.seg.blocks = 0 ∨ c.seg.held.isSome = true
  · rw [closeDue_of_none hc hdue]; exact ⟨rfl, rfl⟩
  · obtain ⟨hb, hh⟩ := not_or.mp hdue
    have hheld : (s.closeHeld cond w).ctxs.map (·.window) = s.ctxs.map (·.window) := by
      rw [State.closeHeld, List.map_map]
      refine List.map_congr_left fun x _ => ?_
      simp only [Function.comp_apply]
      split <;> rfl
    rw [closeDue_eq hc hb (by simpa using hh)]
    split
    · exact ⟨seal_ring w s, seal_windows w s⟩
    · split
      · obtain ⟨l, hl⟩ := joinWaiting_eq (.seal w c.serial) (s.closeHeld cond w)
        rw [hl]; exact ⟨rfl, hheld⟩
      · exact ⟨rfl, hheld⟩

/-- While three segments are pending no close due seals a segment. -/
theorem closeDue_pend_of_pending {cond : CloseCond} {w : Nat} (hc : s.ctx w = some c) (hp : 3 ≤ (s.pendOf c.serial).length) :
    (s.closeDue cond w).pend = s.pend := by
  by_cases hdue : c.seg.blocks = 0 ∨ c.seg.held.isSome = true
  · rw [closeDue_of_none hc hdue]
  · obtain ⟨hb, hh⟩ := not_or.mp hdue
    rw [closeDue_eq hc hb (by simpa using hh), canClose_of_pending hp, if_neg Bool.false_ne_true]
    split
    · rw [joinWaiting_only]; rfl
    · rfl

/-- The effects of the expiry that do not depend on the close: the latched item, the volume, the timer, the journal. -/
theorem stalledWith_fields (cond : CloseCond) {w : Nat} (hv : s.vol w = some v) (hc : s.ctx w = some c) :
    let t := (s.closeDue cond w).stalledWith w (stallEntry w v c)
    t.latched = { s.latched with volumeStalled := true } ∧ t.vol w = some { v with stalled := true }
      ∧ (∃ k, t.ctx w = some k ∧ k.idle = none) ∧ t.pend = (s.closeDue cond w).pend
      ∧ t.jr = (s.append (stallEntry w v c)).jr := by
  obtain ⟨hring, hwindows⟩ := closeDue_kept cond hc
  have honly := closeDue_only cond w s
  obtain ⟨u, hu⟩ : ∃ u : State, u = { s.closeDue cond w with
      vols := (s.closeDue cond w).vols.map fun x => if x.window = w then { x with stalled := true } else x
      ctxs := (s.closeDue cond w).ctxs.map fun x => if x.window = w then { x with idle := none } else x } := ⟨_, rfl⟩
  have happ := append_nobody (a := stallEntry w v c) rfl u
  have hvols : u.vols = (s.modVol w fun x => { x with stalled := true }).vols := by
    rw [hu, show (s.closeDue cond w).vols = s.vols from (congrArg State.vols honly).trans rfl]
    simp [State.modVol]
  have hctxs : u.ctxs = ((s.closeDue cond w).modCtx w fun x => { x with idle := none }).ctxs := by
    rw [hu]; simp [State.modCtx]
  intro t
  have ht : t = (u.append (stallEntry w v c)).setStalled := by rw [hu]; rfl
  rw [ht]
  refine ⟨?_, ?_, ?_, ?_, ?_⟩
  · show ({ (u.append (stallEntry w v c)).latched with volumeStalled := true } : Latched) = _
    rw [happ, hu, honly]
  · have hvol := vol_modVol w w (fun x => { x with stalled := true }) (fun _ => rfl) s
    rw [hv, Option.map_some, if_pos (beq_self_eq_true w)] at hvol
    rw [← hvol]
    show (u.append (stallEntry w v c)).vols.find? _ = (State.modVol w _ s).vols.find? _
    rw [happ, ← hvols]
  · obtain ⟨k, hk⟩ := exists_ctx_iff.mpr (hwindows ▸ exists_ctx_iff.mp ⟨c, hc⟩)
    have hctx := ctx_modCtx w w (fun x => { x with idle := none }) (fun _ => rfl) (s.closeDue cond w)
    rw [hk, Option.map_some, if_pos (beq_self_eq_true w)] at hctx
    refine ⟨_, Eq.trans ?_ hctx, rfl⟩
    show (u.append (stallEntry w v c)).ctxs.find? _ = (State.modCtx w _ (s.closeDue cond w)).ctxs.find? _
    rw [happ, ← hctxs]
  · show (u.append (stallEntry w v c)).pend = _
    rw [happ, hu]
  · refine (sameJournal_append (s := s) (t := u) ⟨?_, ?_, ?_, ?_⟩ rfl).jr
    · rw [hu, honly]
    · rw [hu, honly]
    · rw [hu]; exact hring
    · rw [hu, honly]

/-- Settles O46. -/
theorem idleTimerStallsItsVolume : Obligations.IdleTimerStallsItsVolume := by
  unfold Obligations.IdleTimerStallsItsVolume
  intro window s v c hr hv hc entry stalls pending written room held item h sealed
  refine ⟨exec_idleTimerExpiry_of_stopped hv hc, fun ho hi => ?_⟩
  have hroom : s.sealPlaces c = true ↔ room := sealPlaces_iff
  have hexec := exec_idleTimerExpiry hr hv hc ho hi
  have hstalls {u : State} (hu : s.closeDue .idleTimer window.toNat = u) : stalls u := by rw [← hu]; exact hexec
  refine ⟨?_, fun hdue => hstalls (closeDue_of_none hc hdue), fun hb hh => ?_⟩
  · obtain ⟨hlatched, hvol, hctx, hpend, hjr⟩ := stalledWith_fields .idleTimer hv hc
    exact ⟨_, hexec, hlatched, hvol, hctx, fun hp => hpend.trans (closeDue_pend_of_pending hc hp), hjr⟩
  have hdue := closeDue_eq (cond := .idleTimer) hc hb hh
  refine ⟨?pending, ?lacks, ?unplaced, ?placed⟩
  case pending =>
    intro hp hm hr'
    rw [canClose_of_pending hp, lacks_eq_false hm (hroom.mpr hr')] at hdue
    exact hstalls hdue
  case lacks =>
    intro hl
    obtain ⟨hclose, hlack⟩ := lacks_of (c := c) (s := s) (hl.imp_right fun hn hp => hn (hroom.mp hp))
    rw [hclose, hlack] at hdue
    exact ⟨fun hmem => hstalls (hdue.trans (joinWaiting_of_mem (s := s.closeHeld _ _) hmem)),
      fun hmem => hstalls (hdue.trans (joinWaiting_of_not_mem (s := s.closeHeld _ _) hmem))⟩
  case unplaced =>
    intro hp hm hu
    have hplaces := hroom.mpr (hu.imp_right Or.inl)
    rw [canClose_of_room hp hm hplaces, if_pos rfl,
      seal_of_unplaced hc (hu.imp_right fun hw => Bool.eq_false_iff.mpr fun ho => hw (opened_iff.mp ho))] at hdue
    exact hstalls hdue
  case placed =>
    intro hp hm hh hw hnew
    have hopened := opened_iff.mpr hw
    constructor
    · intro hr'
      rw [canClose_of_room hp hm (hroom.mpr hr'), if_pos rfl] at hdue
      obtain ⟨⟨p, hp, hhdr, -, -⟩, x, hx, hnext, hblocks, hfirst, -⟩ := (hasSealed_seal hc hh hnew).1
      obtain ⟨-, -, -, hpend, -⟩ := stalledWith_fields .idleTimer hv hc
      refine ⟨_, p, { x with idle := none }, hexec, ?_, hhdr, ?_, hnext, hblocks, hfirst⟩
      · rw [hpend, hdue]; exact List.mem_of_find?_eq_some hp
      · have hctx := ctx_modCtx window.toNat window.toNat (fun x => { x with idle := none }) (fun _ => rfl) (s.seal window.toNat)
        rw [hx, Option.map_some, if_pos (beq_self_eq_true _)] at hctx
        rw [← hctx, hdue]
        show State.ctx (State.setStalled (State.append _ _)) _ = _
        rw [append_nobody rfl]
        simp [State.ctx, State.modCtx, State.setStalled]
    · intro z hz hfit
      have hr' : room := .inr (.inr ⟨z, hz, .inl hfit⟩)
      rw [canClose_of_room hp hm (hroom.mpr hr'), if_pos rfl, seal_of_fit hc hh hopened hnew hz hfit, placedAt_sealedInto hnew] at hdue
      exact hstalls hdue

end Sys2Proof.Machine
end

section
/-! SYNC (2.8): O19. -/

namespace Sys2Proof.Machine

/-! ### Calling for the write of a journal block (9.2) -/

section
variable {ring : Nat} {content : Block} {ws : List JournalWaiter} {s : State}

theorem callJournal_of_halted (h : s.isHalted = true) : s.callJournal ring content ws = s := by simp [State.callJournal, h]

/-- With no write of the ring block outstanding it is handed over. -/
theorem callJournal_of_free (hh : s.halted = none) (hfree : ∀ w ∈ s.jr.writes, w.ring ≠ ring) :
    s.callJournal ring content ws = { s with
      jr := { s.jr with writes := s.jr.writes ++ [{ ring, content, waiters := ws }] }
      port := { s.port with queue := s.port.queue ++ [{
        cls := 1, user := .journal ring, op := .write, block := 4096 + ring, count := 1, data := [content] }] } } := by
  have hany : s.jr.writes.any (·.ring == ring) = false := by simpa using hfree
  simp only [State.callJournal, isHalted_eq_false hh, hany, Bool.false_eq_true, if_false, State.enqueue, journalReq]

/-- Behind an outstanding write of the ring block the call is gathered. -/
theorem callJournal_of_out (hh : s.halted = none) (hout : ∃ w ∈ s.jr.writes, w.ring = ring) :
    s.callJournal ring content ws = { s with jr := { s.jr with writes := s.jr.writes.map fun w => if w.ring = ring then
      { w with gathered := some (content, (match w.gathered with
        | none => []
        | some (_, l) => l) ++ ws) } else w } } := by
  have hany : s.jr.writes.any (·.ring == ring) = true := by simpa using hout
  have hmap : s.jr.writes.map (fun w => if w.ring == ring then
      { w with gathered := some (content, (match w.gathered with | some (_, old) => old | none => []) ++ ws) } else w)
    = s.jr.writes.map fun w => if w.ring = ring then
      { w with gathered := some (content, (match w.gathered with
        | none => []
        | some (_, l) => l) ++ ws) } else w :=
    List.map_congr_left fun w _ => by
      simp only [beq_iff_eq]
      cases w.gathered <;> rfl
  rw [← hmap]
  simp only [State.callJournal, isHalted_eq_false hh, hany, Bool.false_eq_true, if_false, if_true] <;> rfl

end

/-! ### The first LOST block of a map -/

theorem firstLost_of_none {m : List MapEntry} {lo hi : Nat} (h : ∀ e ∈ m, e.kind = .lost → hi ≤ e.first) : firstLost m lo hi = none := by
  induction m with
  | nil => rfl
  | cons e es ih =>
    rw [List.forall_mem_cons] at h
    have hno : (e.kind == .lost && decide (lo < e.first + e.count) && decide (e.first < hi)) = false := by
      by_cases hk : e.kind = .lost
      · simp [hk, h.1 hk]
      · simp [hk]
    rw [firstLost, hno, if_neg Bool.false_ne_true]
    exact ih h.2

theorem firstLost_of_first {pre post : List MapEntry} {m : MapEntry} {hi : Nat} (hpre : ∀ e ∈ pre, e.kind ≠ .lost)
    (hk : m.kind = .lost) (hpos : 0 < m.count) (hin : m.first < hi) : firstLost (pre ++ m :: post) 0 hi = some m.first := by
  induction pre with
  | nil => simp [firstLost, hk, hin]; omega
  | cons e es ih =>
    rw [List.forall_mem_cons] at hpre
    simpa [firstLost, hpre.1] using ih hpre.2

/-! ### The entry of a SYNC, and the SYNCs that are answered -/

section
variable {tag : Byte} {addr : BitVec 64} {s : State}

theorem exec_sync_of_passes (h : s.TakesRequests) (h31 : tag.toNat ≤ 31) (hnew : s.tag tag.toNat = none) :
    exec (.sync tag addr 0) s = .next (s.routeSync tag (addrWindow addr)) := by
  have hcheck : s.checkSync tag 0 = none := by
    simp [State.checkSync, notServing_of_started h.mapped h.started, badTag_eq_false h31 hnew]
  simp only [exec, execSync, clientLive_of_up h.up h.released, hcheck, Bool.not_true, Bool.false_eq_true, if_false]

/-- The SYNCs of a volume that `n` completes, once the entry `e` is among those asked about: `e` alone, or none. -/
theorem syncsDone_addTag {serial n : Nat} {e : TagEntry}
    (h : ∀ x ∈ s.client.tags, x.phase = .syncing → x.serial = some serial → ∀ g, x.target = some g → n < g) :
    syncsDone serial n (s.addTag e).client.tags
      = if e.phase = .syncing ∧ e.serial = some serial ∧ e.target.any (· ≤ n) = true then [e] else [] := by
  have hold : s.client.tags.filter (fun x => x.phase == .syncing && x.serial == some serial && x.target.any (· ≤ n)) = [] := by
    refine List.filter_eq_nil_iff.mpr fun x hx hdone => ?_
    simp only [Bool.and_eq_true, beq_iff_eq, Option.any_eq_true, decide_eq_true_eq] at hdone
    obtain ⟨⟨hphase, hserial⟩, g, hg, hle⟩ := hdone
    exact absurd hle (Nat.not_le.mpr (h x hx hphase hserial g hg))
  have hperm := (perm_insertBy (·.tag) e s.client.tags).filter
    (fun x => x.phase == .syncing && x.serial == some serial && x.target.any (· ≤ n))
  rw [syncsDone, addTag_client]
  by_cases he : e.phase = .syncing ∧ e.serial = some serial ∧ e.target.any (· ≤ n) = true
  · rw [List.filter_cons_of_pos (by simp [he]), hold] at hperm
    rw [if_pos he]
    exact List.perm_singleton.mp hperm
  · rw [List.filter_cons_of_neg (by simpa [and_assoc] using he), hold] at hperm
    rw [if_neg he]
    exact List.perm_nil.mp hperm

theorem answerOpenSyncs_eq {w : Nat} {v : Volume} {c : Ctx} (hv : s.vol w = some v) (ho : v.state = .opened) (hc : s.ctx w = some c) :
    s.answerOpenSyncs w = each (fun e => answerSync v (e.target.getD 0) e) (syncsDone v.serial c.committed s.client.tags) s := by
  simp [State.answerOpenSyncs, hv, hc, ho]

theorem failSync_of_kept {t : Nat} (h : s.lossFail = false) : s.failSync t = s := by simp [State.failSync, h]

theorem failSync_of_answered {t : Nat} (h : s.tag t = none) : s.failSync t = s := by simp [State.failSync, h]

theorem contiguous_of_none {serial n i : Nat} (h : s.heldAt serial i = none) : s.contiguous serial n i = i := by
  cases n <;> simp [State.contiguous, h]

/-- The open segment's context after a seal. -/
theorem ctx_sealedInto {w serial : Nat} {p : PendSeg} {a : Alloc} {c : Ctx} (hc : s.ctx w = some c) :
    (s.sealedInto w serial p a).ctx w = some { c with
      next := c.next + 1
      seg := { index := c.next + 1, first := c.seg.first + c.seg.blocks, kind := if c.framer = .raw then .raw else .coded }
      reference := zeroRecord } := by
  have hmap := ctx_modCtx w w (fun x => { x with
    next := x.next + 1
    seg := { index := x.next + 1, first := x.seg.first + x.seg.blocks, kind := if x.framer = .raw then .raw else .coded }
    reference := zeroRecord }) (fun _ => rfl) s
  rw [hc, Option.map_some, if_pos (beq_self_eq_true w)] at hmap
  rw [← hmap]
  simp [State.ctx, State.modCtx, State.sealedInto]

theorem ctx_closeHeld {w : Nat} {c : Ctx} {cond : CloseCond} (hc : s.ctx w = some c) :
    (s.closeHeld cond w).ctx w = some { c with seg := { c.seg with held := some cond } } := by
  have hmap := ctx_modCtx w w (fun x => { x with seg := { x.seg with held := some cond } }) (fun _ => rfl) s
  rw [hc, Option.map_some, if_pos (beq_self_eq_true w)] at hmap
  rw [← hmap]
  simp [State.ctx, State.modCtx, State.closeHeld]

/-- The entry of a SYNC of a volume. -/
def syncOwn (tag : Byte) (w serial target : Nat) : TagEntry :=
  { tag := tag.toNat, op := .sync, phase := .syncing, window := w, offset := 0, count := 0, serial := some serial,
    target := some target }

/-- A SYNC whose target the committed point has not reached waits. -/
theorem answerOpenSyncs_of_waiting {w n : Nat} {e : TagEntry} {u : State} {v : Volume} {c : Ctx} (hv : u.vol w = some v)
    (ho : v.state = .opened) (hc : u.ctx w = some c) (hu : u.client = (s.addTag e).client) (hcommitted : c.committed = n)
    (hself : ∀ g, e.target = some g → n < g)
    (h : ∀ x ∈ s.client.tags, x.phase = .syncing → x.serial = some v.serial → ∀ g, x.target = some g → n < g) :
    u.answerOpenSyncs w = u := by
  rw [answerOpenSyncs_eq hv ho hc, hu, hcommitted, syncsDone_addTag h, if_neg]
  · rfl
  · rintro ⟨-, -, hdone⟩
    obtain ⟨g, hg, hle⟩ := (Option.any_eq_true _ _).mp hdone
    exact absurd (hself g hg) (by simpa using hle)

/-- SYNC of window 4095 with a write owed: it calls for the write of block H and waits for it and the earlier ones. -/
theorem syncJournal_of_owed (howed : s.jr.buf.count ≠ 0 ∨ ∃ w ∈ s.jr.writes, w.ring ≠ s.headRing) :
    s.syncJournal tag = if s.lossFail then s.turnAway tag .unavailable none
      else State.callJournal s.headRing (renderJournal s.jr.head s.jr.buf) [.sync tag.toNat] { s.addTag
        { tag := tag.toNat, op := .sync, phase := .syncing, window := 4095, offset := 0, count := 0
          journalWrites := 1 + (s.jr.writes.filter (·.ring ≠ s.headRing)).length } with
        jr := { s.jr with writes := s.jr.writes.map fun w =>
          if w.ring = s.headRing then w else { w with waiters := w.waiters ++ [.sync tag.toNat] } } } := by
  have hno : (s.jr.buf.count == 0 && (s.jr.writes.filter (·.ring != s.headRing)).isEmpty) = false := by
    rw [Bool.and_eq_false_iff]
    refine howed.imp (fun hn => by simpa using hn) fun ⟨w, hw, hne⟩ => ?_
    exact List.isEmpty_eq_false_iff_exists_mem.mpr ⟨w, List.mem_filter.mpr ⟨hw, by simpa using hne⟩⟩
  have hmap : s.jr.writes.map (fun w => if w.ring != s.headRing then { w with waiters := w.waiters ++ [.sync tag.toNat] } else w)
      = s.jr.writes.map fun w => if w.ring = s.headRing then w else { w with waiters := w.waiters ++ [.sync tag.toNat] } :=
    List.map_congr_left fun w _ => by by_cases hr : w.ring = s.headRing <;> simp [hr]
  have hfilter : s.jr.writes.filter (·.ring ≠ s.headRing) = s.jr.writes.filter (·.ring != s.headRing) :=
    List.filter_congr fun w _ => by simp [bne, Bool.beq_eq_decide_eq]
  rw [State.syncJournal, hno, if_neg Bool.false_ne_true, ← hmap, hfilter]
  rfl

/-- SYNC of an OPEN volume whose target is its ingest point. -/
theorem syncOpen_of_reached {v : Volume} {w : Nat} (hw : v.window = w) (hheld : s.heldAt v.serial v.ingest = none) :
    s.syncOpen tag v = (((s.addTag (syncOwn tag w v.serial v.ingest)).closeDue .sync w).answerOpenSyncs w).failSync tag.toNat := by
  subst hw
  simp only [State.syncOpen, contiguous_of_none hheld, beq_self_eq_true, if_true]
  rfl

theorem syncOpen_of_ahead {v : Volume} {w target : Nat} (hw : v.window = w) (ht : s.contiguous v.serial 256 v.ingest = target)
    (hlt : v.ingest < target) :
    s.syncOpen tag v = ((s.addTag (syncOwn tag w v.serial target)).answerOpenSyncs w).failSync tag.toNat := by
  subst hw
  have hne : (target == v.ingest) = false := by simpa using (Nat.ne_of_gt hlt)
  simp only [State.syncOpen, ht, hne, Bool.false_eq_true, if_false]
  rfl

/-- A SYNC that nothing is left to wait for is answered, and waits no longer. -/
theorem answered_of_reached {v : Volume} {c : Ctx} {w : Nat} (hv : s.vol w = some v) (ho : v.state = .opened)
    (hc : s.ctx w = some c) (hle : v.ingest ≤ c.committed)
    (h : ∀ x ∈ s.client.tags, x.phase = .syncing → x.serial = some v.serial → ∀ g, x.target = some g → c.committed < g) :
    ((s.addTag (syncOwn tag w v.serial v.ingest)).answerOpenSyncs w).failSync tag.toNat
      = answerSync v v.ingest (syncOwn tag w v.serial v.ingest) (s.addTag (syncOwn tag w v.serial v.ingest)) := by
  have hdone : (syncOwn tag w v.serial v.ingest).phase = .syncing ∧ (syncOwn tag w v.serial v.ingest).serial = some v.serial
      ∧ (syncOwn tag w v.serial v.ingest).target.any (· ≤ c.committed) = true := ⟨rfl, rfl, by simpa [syncOwn] using hle⟩
  rw [answerOpenSyncs_eq (s := s.addTag (syncOwn tag w v.serial v.ingest)) hv ho hc, syncsDone_addTag h, if_pos hdone]
  refine failSync_of_answered ?_
  show (answerSync v v.ingest (syncOwn tag w v.serial v.ingest) (s.addTag _)).tag tag.toNat = none
  unfold answerSync
  split
  · exact (tag_complete _ _ _ _ _ _).trans (if_pos (beq_self_eq_true _))
  · exact (tag_complete _ _ _ _ _ _).trans (if_pos (beq_self_eq_true _))

end

/-- Settles O19. -/
theorem syncsAreAnsweredByWindow : Obligations.SyncsAreAnsweredByWindow := by
  unfold Obligations.SyncsAreAnsweredByWindow
  intro tag addr s h h31 hnew answered syncing
  have hexec := exec_sync_of_passes (addr := addr) h h31 hnew
  have hroute (hh : s.isHalted = false) (hw : addrWindow addr ≠ 4095) : exec (.sync tag addr 0) s = .next
      (match s.vol (addrWindow addr) with
      | none => s.turnAway tag .good none
      | some v => match v.state with
        | .opened => s.syncOpen tag v
        | .closing => s.syncClosing tag v
        | _ => s.turnAway tag .good none) := by
    have hw' : (addrWindow addr == 4095) = false := by simpa using hw
    rw [hexec, State.routeSync, hh, hw', if_neg Bool.false_ne_true, if_neg Bool.false_ne_true] <;> rfl
  have hjournal (hh : s.isHalted = false) (hw : addrWindow addr = 4095) : exec (.sync tag addr 0) s = .next (s.syncJournal tag) := by
    rw [hexec, State.routeSync, hh, hw, if_neg Bool.false_ne_true]
    rfl
  have hopened (hh : s.isHalted = false) (hw : addrWindow addr ≠ 4095) {v : Volume} (hv : s.vol (addrWindow addr) = some v)
      (ho : v.state = .opened) : exec (.sync tag addr 0) s = .next (s.syncOpen tag v) := by
    rw [hroute hh hw, hv]; simp only [ho]
  refine ⟨?halted, ?clean, ?journal, ?free, ?settled, ?ahead, ?closes, ?last⟩
  case halted =>
    intro hh
    rw [hexec, State.routeSync, hh]; rfl
  case clean =>
    intro hh hw hcount hwrites
    have hnone : s.jr.writes.filter (·.ring != s.headRing) = [] := by simpa using hwrites
    rw [hjournal hh hw, State.syncJournal, hcount, hnone]; rfl
  case journal =>
    intro hh hw howed
    refine ⟨fun hfail => by rw [hjournal hh hw, syncJournal_of_owed howed, hfail]; rfl, fun hfail => ?_⟩
    intro block earlier waits
    have hhalted : s.halted = none := by simpa [State.isHalted] using hh
    rw [hjournal hh hw, syncJournal_of_owed howed, hfail, if_neg Bool.false_ne_true]
    constructor
    · intro hfree t
      have hmap : s.jr.writes.map (fun w => if w.ring = s.headRing then w else { w with waiters := w.waiters ++ [.sync tag.toNat] })
          = s.jr.writes.map earlier := List.map_congr_left fun w hw => if_neg (hfree w hw)
      rw [hmap]
      refine congrArg _ ((callJournal_of_free (s := waits (s.jr.writes.map earlier)) hhalted ?_).trans rfl)
      intro w hw
      obtain ⟨x, hx, rfl⟩ := List.mem_map.mp hw
      exact hfree x hx
    · rintro ⟨w, hw, hring⟩
      refine congrArg _ ((callJournal_of_out (s := waits (s.jr.writes.map fun w =>
        if w.ring = s.headRing then w else { w with waiters := w.waiters ++ [.sync tag.toNat] })) hhalted
        ⟨w, List.mem_map.mpr ⟨w, hw, if_pos hring⟩, hring⟩).trans (congrArg waits ?_))
      rw [List.map_map]
      refine List.map_congr_left fun x _ => ?_
      by_cases hx : x.ring = s.headRing
      · simp only [Function.comp_apply, if_pos hx] <;> rfl
      · simp [hx, earlier]
  case free =>
    intro hh hw hv
    rw [hroute hh hw, hv]; rfl
  case settled =>
    intro hh hw v hv hstate
    rw [hroute hh hw, hv]
    rcases hstate with hs | hs | hs <;> simp only [hs] <;> rfl
  case ahead =>
    intro hh hw hfail v c target hv ho hc ht hlt hcom hothers
    rw [hopened hh hw hv ho, syncOpen_of_ahead (vol_window hv) ht hlt,
      answerOpenSyncs_of_waiting (s := s) (u := s.addTag _) hv ho hc rfl rfl (fun g hg => by simp [syncOwn] at hg; omega) hothers]
    exact congrArg _ ((failSync_of_kept (s := s.addTag _) hfail).trans rfl)
  case closes =>
    intro hh hw hfail v c k hv hstate hc hk hstage
    have hend : s.step1Ended v.window = false := by
      rw [vol_window hv]
      rcases hstage with hs | hs <;> simp [State.step1Ended, hc, hk, hs]
    rw [hroute hh hw, hv]
    simp only [hstate, State.syncClosing, hend, Bool.false_eq_true, if_false]
    refine congrArg _ ((failSync_of_kept (s := s.addTag _) hfail).trans ?_)
    rw [vol_window hv]
    rfl
  case last =>
    intro hh hw v c hv ho hc hser hheld hseg hothers own
    refine ⟨?reached, ?close⟩
    case reached =>
      intro hb hle
      have hsync : exec (.sync tag addr 0) s = .next (answerSync v v.ingest (syncOwn tag (addrWindow addr) v.serial v.ingest) own) := by
        rw [hopened hh hw hv ho, syncOpen_of_reached (vol_window hv) hheld,
          closeDue_of_none (s := s.addTag _) hc (.inl hb), answered_of_reached hv ho hc hle hothers]
        rfl
      rw [hsync]
      constructor
      · intro hlost
        rw [answerSync, firstLost_of_none hlost]
        rfl
      · rintro pre m post hmap hpre hk hpos hin
        rw [answerSync, hmap, firstLost_of_first hpre hk hpos hin]
        rfl
    case close =>
      intro hb hlt hfail
      have hdue := closeDue_eq (cond := .sync) (s := own) hc hb hseg
      have hwin := ctx_window hc
      have hsync : exec (.sync tag addr 0) s = .next (((own.closeDue .sync (addrWindow addr)).answerOpenSyncs
          (addrWindow addr)).failSync tag.toNat) := by
        rw [hopened hh hw hv ho, syncOpen_of_reached (vol_window hv) hheld]
        rfl
      have hwaits {u : State} {k : Ctx} (hu : own.closeDue .sync (addrWindow addr) = u) (hcli : u.client = own.client) (hvu : u.vols = s.vols) (hcu : u.ctx (addrWindow addr) = some k)
          (hcom : k.committed = c.committed) (hport : u.lossFail = false) :
          exec (.sync tag addr 0) s = .next u := by
        have hvol : u.vol (addrWindow addr) = some v := by rw [State.vol, hvu]; exact hv
        rw [hsync, hu, answerOpenSyncs_of_waiting (s := s) (n := c.committed) hvol ho hcu (hcli.trans rfl) hcom
          (fun g hg => by simp at hg; omega) hothers, failSync_of_kept hport]
      constructor
      · intro hp
        have hp' : 3 ≤ (own.pendOf c.serial).length := by rw [hser]; exact hp
        rw [canClose_of_pending hp', if_neg Bool.false_ne_true] at hdue
        have hctxs : (own.closeHeld .sync (addrWindow addr)).ctxs
            = s.ctxs.map fun x => if x.window = c.window then { x with seg := { x.seg with held := some .sync } } else x := by
          rw [hwin]; rfl
        have hheldCtx := ctx_closeHeld (cond := .sync) (s := own) hc
        split at hdue
        · obtain ⟨l, hl⟩ := joinWaiting_eq (.seal (addrWindow addr) c.serial) (own.closeHeld .sync (addrWindow addr))
          rw [hl] at hdue
          exact ⟨_, hwaits hdue rfl rfl hheldCtx rfl hfail, rfl, rfl, hctxs⟩
        · exact ⟨_, hwaits hdue rfl rfl hheldCtx rfl hfail, rfl, rfl, hctxs⟩
      · intro hp hm hcat hset hfresh z hz hfit
        have hopen : c.opened = true := opened_iff.mpr ⟨hcat, hset⟩
        have hhalted : s.halted = none := by simpa [State.isHalted] using hh
        have hroom : own.sealPlaces c = true := sealPlaces_iff.mpr (.inr (.inr ⟨z, hz, .inl hfit⟩))
        have hp' : (own.pendOf c.serial).length < 3 := by rw [hser]; exact hp
        have hfresh' : ∀ x ∈ own.pend, ¬(x.hdr.serial = c.serial ∧ x.hdr.index = c.next) := by rw [hser]; exact hfresh
        rw [canClose_of_room hp' hm hroom, if_pos rfl, seal_of_fit (s := own) hc hhalted hopen hfresh' hz hfit, placedAt_sealedInto (s := own) hfresh'] at hdue
        have hctx := ctx_sealedInto (s := own) (serial := c.serial) (p := c.placedSeg z.zone z.fill s.alloc.stamp) (a := s.alloc) hc
        exact ⟨_, c.placedSeg z.zone z.fill s.alloc.stamp, hwaits hdue rfl rfl hctx rfl hfail, rfl, rfl, hser, rfl, rfl, rfl, rfl, rfl,
          _, hctx, rfl, rfl, rfl⟩

end Sys2Proof.Machine
end

section
/-! CLOSE and the end of the framer's taking (1.9, 1.6, 2.6): O32. -/

namespace Sys2Proof.Machine

/-! ### Several requests completed one after the other -/

theorem dropTags_sent (es : List TagEntry) (l : List Msg) (s : State) :
    State.dropTags es { s with sent := l } = { s.dropTags es with sent := l } := by
  induction es generalizing s with
  | nil => rfl
  | cons e es ih => exact ih (s.dropTag e.tag)

/-- Each of a list of entries is completed: the entries go, and the completions are sent in order. -/
theorem eachComplete_eq (st : TagEntry → Status) (r : TagEntry → Option Reason) (n : TagEntry → Nat) (es : List TagEntry) (s : State) :
    each (fun (e : TagEntry) (x : State) => x.complete e.tag (st e) (r e) (n e)) es s = { s.dropTags es with
      sent := s.sent ++ es.map fun e => .completion e.tag (st e) (r e) (n e) } := by
  induction es generalizing s with
  | nil => simp [each, State.dropTags]
  | cons e es ih =>
    have hstep : s.complete e.tag (st e) (r e) (n e) = { s.dropTag e.tag with
        sent := s.sent ++ [.completion e.tag (st e) (r e) (n e)] } := rfl
    rw [each, ih, hstep, dropTags_sent]
    simp only [List.map_cons, List.append_assoc, List.singleton_append]
    rfl

/-- The answer to a SYNC of a volume: the first lost block below `hi`, or GOOD. -/
def Volume.syncStatus (v : Volume) (hi : Nat) : Status := if (firstLost v.map 0 hi).isSome then .storeError else .good

theorem answerSync_eq (v : Volume) (hi : Nat) (e : TagEntry) (s : State) :
    answerSync v hi e s = s.complete e.tag (v.syncStatus hi) none ((firstLost v.map 0 hi).getD 0) := by
  unfold answerSync Volume.syncStatus
  cases firstLost v.map 0 hi <;> rfl

/-- An entry of a table with its tag there once is the one that its tag finds. -/
theorem find?_tag_of_nodup {l : List TagEntry} (hl : (l.map (·.tag)).Nodup) {e : TagEntry} (he : e ∈ l) :
    l.find? (·.tag == e.tag) = some e := by
  induction l with
  | nil => cases he
  | cons x xs ih =>
    rw [List.map_cons, List.nodup_cons] at hl
    rcases List.mem_cons.mp he with rfl | hx
    · simp
    · have hne : x.tag ≠ e.tag := fun h => hl.1 (h ▸ List.mem_map_of_mem hx)
      rw [List.find?_cons, beq_eq_false_iff_ne.mpr hne]
      exact ih hl.2 hx

theorem eq_of_tag_eq {l : List TagEntry} (hl : (l.map (·.tag)).Nodup) {e x : TagEntry} (he : e ∈ l) (hx : x ∈ l)
    (h : x.tag = e.tag) : x = e := by
  have hfind := find?_tag_of_nodup hl hx
  rw [h, find?_tag_of_nodup hl he] at hfind
  exact (Option.some.inj hfind).symm

/-- The tags of a table whose entries of a list have ended. -/
def endedTags (es tags : List TagEntry) : List TagEntry := tags.filter fun x => ¬∃ e ∈ es, e.tag = x.tag

theorem find?_endedTags_of_mem {es tags : List TagEntry} {e : TagEntry} (he : e ∈ es) :
    (endedTags es tags).find? (·.tag == e.tag) = none := by
  simp only [endedTags, List.find?_eq_none, List.mem_filter, decide_eq_true_eq, beq_iff_eq, and_imp]
  exact fun x _ hx h => hx ⟨e, he, h.symm⟩

theorem find?_endedTags_of_not_mem {es tags : List TagEntry} (hes : ∀ x ∈ es, x ∈ tags) (ht : (tags.map (·.tag)).Nodup) {e : TagEntry}
    (he : e ∈ tags) (hne : e ∉ es) : (endedTags es tags).find? (·.tag == e.tag) = some e := by
  refine find?_filter_of_kept (find?_tag_of_nodup ht he) ?_
  simp only [decide_eq_true_eq, not_exists, not_and]
  rintro x hx h
  exact hne (eq_of_tag_eq ht he (hes x hx) h ▸ hx)

theorem dropTags_tags (es : List TagEntry) (s : State) : (s.dropTags es).client.tags = endedTags es s.client.tags :=
  (congrArg (fun u => u.client.tags) (dropTags_eq es s)).trans rfl

/-- The fields that the end of requests leaves as they are. -/
@[simp] theorem dropTags_vols (es : List TagEntry) (s : State) : (s.dropTags es).vols = s.vols :=
  (congrArg State.vols (dropTags_eq es s)).trans rfl
@[simp] theorem dropTags_ctxs (es : List TagEntry) (s : State) : (s.dropTags es).ctxs = s.ctxs :=
  (congrArg State.ctxs (dropTags_eq es s)).trans rfl
@[simp] theorem dropTags_pend (es : List TagEntry) (s : State) : (s.dropTags es).pend = s.pend :=
  (congrArg State.pend (dropTags_eq es s)).trans rfl
@[simp] theorem dropTags_alloc (es : List TagEntry) (s : State) : (s.dropTags es).alloc = s.alloc :=
  (congrArg State.alloc (dropTags_eq es s)).trans rfl
@[simp] theorem dropTags_audit (es : List TagEntry) (s : State) : (s.dropTags es).audit = s.audit :=
  (congrArg State.audit (dropTags_eq es s)).trans rfl
@[simp] theorem dropTags_halted (es : List TagEntry) (s : State) : (s.dropTags es).halted = s.halted :=
  (congrArg State.halted (dropTags_eq es s)).trans rfl

theorem dropTags_slots (es : List TagEntry) (s : State) :
    (s.dropTags es).client.slots = s.client.slots.filter fun x => ¬(x.data = none ∧ ∃ e ∈ es, e.tag = x.tag) :=
  congrArg (fun u => u.client.slots) (dropTags_eq es s)

/-! ### The writes that a close refuses -/

/-- The offsets of the blocks HELD for a serial. -/
def State.heldOffsets (serial : Nat) (s : State) : List Nat :=
  ((s.client.slots.filter (·.serial == serial)).filter (·.data.isSome)).map (·.offset)

/-- The writes that the close of a volume refuses (2.6). -/
def State.refusedWrites (serial : Nat) (s : State) : List TagEntry :=
  s.client.tags.filter (closingRefuses serial (s.heldOffsets serial))

theorem mem_heldOffsets {serial i : Nat} {s : State} :
    i ∈ s.heldOffsets serial ↔ ∃ x ∈ s.client.slots, x.serial = serial ∧ x.offset = i ∧ x.data.isSome = true := by
  simp only [State.heldOffsets, List.mem_map, List.mem_filter, beq_iff_eq]
  constructor
  · rintro ⟨x, ⟨⟨hx, hs⟩, hd⟩, ho⟩
    exact ⟨x, hx, hs, ho, hd⟩
  · rintro ⟨x, hx, hs, ho, hd⟩
    exact ⟨x, ⟨⟨hx, hs⟩, hd⟩, ho⟩

theorem mem_refusedWrites {serial : Nat} {s : State} {e : TagEntry} :
    e ∈ s.refusedWrites serial ↔ e ∈ s.client.tags ∧ e.serial = some serial ∧ (e.phase = .receiving ∨ (e.phase = .waitingCommit
      ∧ ∃ i, (∃ x ∈ s.client.slots, x.serial = serial ∧ x.offset = i ∧ x.data.isSome = true) ∧ e.offset ≤ i
        ∧ i < e.offset + e.count)) := by
  simp only [State.refusedWrites, List.mem_filter, closingRefuses, Bool.and_eq_true, Bool.or_eq_true, beq_iff_eq, List.any_eq_true,
    decide_eq_true_eq, mem_heldOffsets]

/-! ### The framer's stop -/

variable {w : Nat} {s : State} {v : Volume} {c : Ctx} {k : Closing}

theorem ctx_modCtx_self {f : Ctx → Ctx} (hf : ∀ x, (f x).window = x.window) (hc : s.ctx w = some c) :
    (s.modCtx w f).ctx w = some (f c) := by
  rw [ctx_modCtx w w f hf, hc, Option.map_some, if_pos (beq_self_eq_true w)]

/-- A seal leaves the other contexts as they are. -/
theorem ctx_sealedInto_other {x serial : Nat} {p : PendSeg} {a : Alloc} (hne : x ≠ w) : (s.sealedInto x serial p a).ctx w = s.ctx w := by
  have hmap := ctx_modCtx x w (fun y => { y with
    next := y.next + 1
    seg := { index := y.next + 1, first := y.seg.first + y.seg.blocks, kind := if y.framer = .raw then .raw else .coded }
    reference := zeroRecord }) (fun _ => rfl) s
  rw [beq_eq_false_iff_ne.mpr hne.symm] at hmap
  simp only [Bool.false_eq_true, if_false, Option.map_id'] at hmap
  rw [← hmap]
  simp [State.ctx, State.modCtx, State.sealedInto]

/-- The close with the discarded blocks counted. -/
def State.countedClose (serial : Nat) (k : Closing) (s : State) : Closing :=
  { k with discarded := k.discarded + (s.client.slots.filter fun x => x.serial = serial ∧ x.data.isSome = true).length }

/-- The state in which the framer has stopped and the slots have been dealt with: step 1 of the close begins (1.6, 2.6). -/
def State.stopped (w : Nat) (s : State) : State :=
  (s.closingDiscard w).modCtx w fun c => { c with close := c.close.map fun k => { k with stage := .segments } }

theorem framerStop_eq : s.framerStop w = ((s.stopped w).closeDue .volumeClose w).endStep1 w := rfl

/-- What the framer's stop leaves, before the open segment is closed. -/
structure State.StoppedAs (w : Nat) (c : Ctx) (k : Closing) (s u : State) : Prop where
  vols : u.vols = s.vols
  pend : u.pend = s.pend
  alloc : u.alloc = s.alloc
  audit : u.audit = s.audit
  halted : u.halted = s.halted
  ctx : u.ctx w = some { c with close := some { s.countedClose c.serial k with stage := .segments } }
  tags : u.client.tags = endedTags (s.refusedWrites c.serial) s.client.tags
  slots : u.client.slots = (s.client.slots.filter (·.serial != c.serial)).filter fun x =>
    ¬(x.data = none ∧ ∃ e ∈ s.refusedWrites c.serial, e.tag = x.tag)
  sent : u.sent = s.sent ++ (s.refusedWrites c.serial).map fun e => .completion e.tag .refused (some .volumeClosed) 0

/-- The slots of a volume have become FREE and their blocks are counted. -/
def State.slotsFreed (w serial : Nat) (s : State) : State :=
  State.modCtx w (fun x => { x with close := x.close.map fun k =>
    { k with discarded := k.discarded + (s.heldOffsets serial).length } })
    { s with client := { s.client with slots := s.client.slots.filter (·.serial != serial) } }

theorem closingDiscard_eq (hc : s.ctx w = some c) :
    s.closingDiscard w = { (s.slotsFreed w c.serial).dropTags (s.refusedWrites c.serial) with
      sent := s.sent ++ (s.refusedWrites c.serial).map fun e => .completion e.tag .refused (some .volumeClosed) 0 } := by
  have hshape : s.closingDiscard w = each (fun (e : TagEntry) (x : State) => x.complete e.tag .refused (some .volumeClosed) 0)
      (s.refusedWrites c.serial) (s.slotsFreed w c.serial) := by
    simp only [State.closingDiscard, hc]
    rfl
  rw [hshape]
  exact eachComplete_eq (fun _ => .refused) (fun _ => some .volumeClosed) (fun _ => 0) _ _

theorem length_heldOffsets (serial : Nat) (s : State) :
    (s.heldOffsets serial).length = (s.client.slots.filter fun x => x.serial = serial ∧ x.data.isSome = true).length := by
  rw [State.heldOffsets, List.length_map, List.filter_filter]
  refine congrArg _ (List.filter_congr fun x _ => ?_)
  by_cases hx : x.serial = serial <;> simp [hx]

theorem stoppedAs_stopped (hc : s.ctx w = some c) (hk : c.close = some k) : State.StoppedAs w c k s (s.stopped w) := by
  have heq : s.stopped w = State.modCtx w (fun c => { c with close := c.close.map fun k => { k with stage := .segments } })
      { (s.slotsFreed w c.serial).dropTags (s.refusedWrites c.serial) with
        sent := s.sent ++ (s.refusedWrites c.serial).map fun e => .completion e.tag .refused (some .volumeClosed) 0 } := by
    rw [State.stopped, closingDiscard_eq hc]
  rw [heq]
  refine ⟨dropTags_vols _ _, dropTags_pend _ _, dropTags_alloc _ _, dropTags_audit _ _, dropTags_halted _ _, ?_, dropTags_tags _ _,
    dropTags_slots _ _, rfl⟩
  have hfreed : (s.slotsFreed w c.serial).ctx w = some { c with close := some (s.countedClose c.serial k) } := by
    refine (ctx_modCtx_self (by intro; rfl) (s := { s with client := { s.client with
      slots := s.client.slots.filter (·.serial != c.serial) } }) hc).trans ?_
    rw [hk, length_heldOffsets]
    rfl
  refine ctx_modCtx_self (by intro; rfl) (c := { c with close := some (s.countedClose c.serial k) }) ?_
  show List.find? _ ((s.slotsFreed w c.serial).dropTags (s.refusedWrites c.serial)).ctxs = _
  rw [dropTags_ctxs]
  exact hfreed

/-! ### The end of step 1 -/

/-- Step 1 has ended: the close joins those that wait for their verdict, and the volume's SYNCs are answered. -/
theorem endStep1_of_done {u : State} (hv : u.vol w = some v) (hc : u.ctx w = some c) (hk : c.close = some k)
    (hs : k.stage = .segments) (hp : u.pendOf c.serial = []) (hb : c.seg.blocks = 0) :
    u.endStep1 w = { State.dropTags (syncsOf v.serial u.client.tags)
        { u.modCtx w fun c => { c with close := some { k with stage := .verdict } } with
          audit := { u.audit with closes := u.audit.closes ++ [w] } } with
      sent := u.sent ++ (syncsOf v.serial u.client.tags).map fun e =>
        .completion e.tag (v.syncStatus 16777216) none ((firstLost v.map 0 16777216).getD 0) } := by
  simp only [State.endStep1, hv, hc, hk, hs, hp, hb, beq_self_eq_true, List.isEmpty_nil, Bool.and_self, if_true,
    funext fun e => funext (answerSync_eq v 16777216 e)]
  exact eachComplete_eq (fun _ => v.syncStatus 16777216) (fun _ => none) (fun _ => (firstLost v.map 0 16777216).getD 0) _ _

theorem endStep1_of_segments_left {u : State} (hc : u.ctx w = some c) (h : u.pendOf c.serial ≠ [] ∨ c.seg.blocks ≠ 0) :
    u.endStep1 w = u := by
  unfold State.endStep1
  split
  next v x hv hx =>
    obtain rfl : x = c := Option.some.inj (hx.symm.trans hc)
    split
    · rfl
    · refine if_neg fun hall => ?_
      simp only [Bool.and_eq_true, List.isEmpty_iff, beq_iff_eq] at hall
      exact h.elim (fun hp => hp hall.1.2) (fun hb => hb hall.2)
  · rfl

/-! ### The close of the open segment keeps the volume's close, and leaves a segment or an open one -/

/-- The context of a window stands with its close, and its volume has a pending segment. -/
def State.HasClose (w serial : Nat) (k : Option Closing) (u : State) : Prop :=
  (∃ x, u.ctx w = some x ∧ x.serial = serial ∧ x.close = k) ∧ u.pendOf serial ≠ []

theorem pendOf_ne_nil_iff {serial : Nat} {u : State} : u.pendOf serial ≠ [] ↔ ∃ p ∈ u.pend, p.hdr.serial = serial := by
  simp [State.pendOf]

theorem hasClose_tryPlace {serial : Nat} {ko : Option Closing} {n i : Nat} {u t : State} (ht : u.tryPlace n i = some t)
    (h : u.HasClose w serial ko) : t.HasClose w serial ko := by
  obtain ⟨p, z, a, hp, -, -, rfl⟩ := tryPlace_eq_some ht
  refine ⟨h.1, pendOf_ne_nil_iff.mpr ?_⟩
  obtain ⟨q, hq, hserial⟩ := pendOf_ne_nil_iff.mp h.2
  refine ⟨_, List.mem_map_of_mem hq, ?_⟩
  split
  next hkey =>
    have hpkey : p.hdr.serial = n ∧ p.hdr.index = i := by simpa using List.find?_some hp
    exact (hpkey.1.trans hkey.1.symm).trans hserial
  · exact hserial

theorem hasClose_placeOnce {serial : Nat} {ko : Option Closing} {n i : Nat} {u : State} (h : u.HasClose w serial ko) :
    (u.placeOnce n i).HasClose w serial ko := by
  unfold State.placeOnce
  split
  · exact h
  · split
    next ht => exact hasClose_tryPlace ht h
    · obtain ⟨l, hl⟩ := joinWaiting_eq (.place n i) u
      rw [hl]; exact h

theorem hasClose_sealOnce {serial : Nat} {ko : Option Closing} {x : Nat} {u : State} (h : u.HasClose w serial ko) :
    (u.sealOnce x).HasClose w serial ko := by
  cases hd : u.ctx x with
  | none => simpa [State.sealOnce, hd] using h
  | some d =>
    have hbase : (u.sealedInto x d.serial (d.sealedSeg u.sealStatus) u.alloc).HasClose w serial ko := by
      obtain ⟨⟨y, hy, hserial, hclose⟩, hp⟩ := h
      constructor
      · by_cases hxw : x = w
        · subst hxw
          obtain rfl : y = d := Option.some.inj (hy.symm.trans hd)
          exact ⟨_, ctx_sealedInto hy, hserial, hclose⟩
        · exact ⟨y, (ctx_sealedInto_other hxw).trans hy, hserial, hclose⟩
      · obtain ⟨q, hq, hqs⟩ := pendOf_ne_nil_iff.mp hp
        exact pendOf_ne_nil_iff.mpr ⟨q, List.mem_append_left _ hq, hqs⟩
    rw [sealOnce_eq hd]
    split
    · exact hasClose_placeOnce hbase
    · exact hbase

theorem hasClose_proceed {serial : Nat} {ko : Option Closing} (i : WaitItem) {u : State} (h : u.HasClose w serial ko) :
    (State.proceed i u).HasClose w serial ko := by
  match i with
  | .seal x n =>
    simp only [State.proceed]
    split
    · exact h
    · split
      · exact h
      · split
        · exact hasClose_sealOnce h
        · exact h
  | .place n j =>
    simp only [State.proceed]
    split
    · exact h
    · split
      · exact h
      next t ht =>
        obtain ⟨hctx, hpend⟩ := hasClose_tryPlace ht h
        exact ⟨hctx, hpend⟩

/-- A close due on the segment of a volume that has segments left keeps its close, and leaves segments. -/
theorem closeDue_of_segments_left {cond : CloseCond} {u : State} (hc : u.ctx w = some c)
    (h : u.pendOf c.serial ≠ [] ∨ c.seg.blocks ≠ 0) :
    ∃ x, (u.closeDue cond w).ctx w = some x ∧ x.close = c.close ∧ x.serial = c.serial
      ∧ ((u.closeDue cond w).pendOf x.serial ≠ [] ∨ x.seg.blocks ≠ 0) := by
  by_cases hdue : c.seg.blocks = 0 ∨ c.seg.held.isSome = true
  · rw [closeDue_of_none hc hdue]
    exact ⟨c, hc, rfl, rfl, h⟩
  · obtain ⟨hb, hh⟩ := not_or.mp hdue
    rw [closeDue_eq hc hb (by simpa using hh)]
    have hheld := ctx_closeHeld (cond := cond) hc
    split
    · have hbase : (u.sealedInto w c.serial (c.sealedSeg u.sealStatus) u.alloc).HasClose w c.serial c.close :=
        ⟨⟨_, ctx_sealedInto hc, rfl, rfl⟩, pendOf_ne_nil_iff.mpr ⟨c.sealedSeg u.sealStatus, List.mem_append_right _ (List.mem_singleton.mpr rfl), rfl⟩⟩
      have hseal : (u.seal w).HasClose w c.serial c.close := by
        rw [State.seal, sealOnce_eq hc]
        refine passIfJoined_of_kept (fun i t h => hasClose_proceed i h) _ ?_
        split
        · exact hasClose_placeOnce hbase
        · exact hbase
      obtain ⟨⟨x, hx, hserial, hclose⟩, hp⟩ := hseal
      exact ⟨x, hx, hclose, hserial, .inl (hserial ▸ hp)⟩
    · split
      · obtain ⟨l, hl⟩ := joinWaiting_eq (.seal w c.serial) (u.closeHeld cond w)
        rw [hl]
        exact ⟨_, hheld, rfl, rfl, .inr hb⟩
      · exact ⟨_, hheld, rfl, rfl, .inr hb⟩

/-- The fields that a close due leaves as they are. -/
@[simp] theorem closeDue_client (cond : CloseCond) (w : Nat) (s : State) : (s.closeDue cond w).client = s.client :=
  (congrArg State.client (closeDue_only cond w s)).trans rfl
@[simp] theorem closeDue_vols (cond : CloseCond) (w : Nat) (s : State) : (s.closeDue cond w).vols = s.vols :=
  (congrArg State.vols (closeDue_only cond w s)).trans rfl
@[simp] theorem closeDue_audit (cond : CloseCond) (w : Nat) (s : State) : (s.closeDue cond w).audit = s.audit :=
  (congrArg State.audit (closeDue_only cond w s)).trans rfl
@[simp] theorem closeDue_sent (cond : CloseCond) (w : Nat) (s : State) : (s.closeDue cond w).sent = s.sent :=
  (congrArg State.sent (closeDue_only cond w s)).trans rfl

/-! ### The end of the taking -/

theorem endTaking_of_held {u : State} (h : ∀ x, u.vol w = some x → (u.heldAt x.serial x.ingest).isSome = true) :
    u.endTaking w = u := by
  unfold State.endTaking
  split
  next x d hx hd =>
    have hno : (u.heldAt x.serial x.ingest).isNone = false := by simpa [Option.isSome_iff_ne_none] using h x hx
    simp [hno]
  · rfl

theorem takeUp_slots (tag : Byte) (c : Instr) (s : State) : (s.takeUp tag c).2.client.slots = s.client.slots := by
  unfold State.takeUp
  dsimp only
  split
  · rfl
  · split <;> rfl

theorem heldAt_answer {serial off : Nat} {o : Option Nat} {st : Status} {r : Option Reason}
    (h : (s.heldAt serial off).isSome = true) : ((s.answer o st r).heldAt serial off).isSome = true := by
  obtain ⟨b, hb⟩ := Option.isSome_iff_exists.mp h
  unfold State.answer
  cases o with
  | none => exact h
  | some t =>
    dsimp only
    split
    · exact Option.isSome_iff_exists.mpr ⟨b, (dataFrame_complete t st r 0 s).held _ _ b hb⟩
    · exact h

theorem find?_filter_of_none {α : Type} {p q : α → Bool} {l : List α} (h : l.find? p = none) : (l.filter q).find? p = none := by
  rw [List.find?_eq_none] at h ⊢
  exact fun x hx => h x (List.mem_of_mem_filter hx)

theorem nodup_endedTags {es tags : List TagEntry} (h : (tags.map (·.tag)).Nodup) : ((endedTags es tags).map (·.tag)).Nodup :=
  h.sublist (List.filter_sublist.map _)

theorem endedTags_nil (tags : List TagEntry) : endedTags [] tags = tags := by simp [endedTags]

/-- Settles O32. -/
theorem closeBeginsTheClose : Obligations.CloseBeginsTheClose := by
  unfold Obligations.CloseBeginsTheClose
  refine ⟨?directive, ?stop⟩
  case directive =>
    intro tag ref window serial s v ht hv cmd o u a entered
    have hexec : exec cmd s = .next (match v.state with
        | .opened => (State.enterClosing v.window .taking (some ref.toNat) (u.answer o .good none)).endTaking v.window
        | .suspended => u.closeSuspended v.window ref o
        | _ => u.deny o .wrongState) := congrArg _ (own_named_of_names ht hv tag cmd _)
    have hentered : State.enterClosing v.window .taking (some ref.toNat) (u.answer o .good none) = entered := enterClosing_eq _ _ _ _
    rw [hentered] at hexec
    refine ⟨fun h => ?_, fun h hheld => ?_, fun h => ?_⟩
    · rw [hexec, h]
    · rw [hexec, h]
      refine congrArg _ (endTaking_of_held fun x hx => ?_)
      have hanswer := answer_only o .good none u
      have hvols : entered.vols = (s.modVol v.window fun x => { x with state := .closing, stalled := false }).vols := by
        refine (congrArg State.vols (callCatalogue_only _ _ _)).trans ?_
        rw [modVol_eq, show a.vols = s.vols from (congrArg State.vols hanswer).trans (takeUp_vols ..)]
      have hslots : entered.client.slots = a.client.slots :=
        congrArg (fun y => y.client.slots) (callCatalogue_only _ _ _)
      have hx' : x = { v with state := .closing, stalled := false } := by
        rw [State.vol, hvols] at hx
        have hmod := (vol_modVol v.window v.window (fun x => { x with state := .closing, stalled := false }) (fun _ => rfl) s).symm.trans hx
        rw [vol_window hv.found, hv.found, ← vol_window hv.found] at hmod
        simpa using hmod.symm
      have hheldU : (u.heldAt v.serial v.ingest).isSome = true := by
        rw [State.heldAt, State.slot, takeUp_slots]; exact hheld
      rw [hx']
      show (Option.bind (entered.client.slots.find? _) _).isSome = true
      rw [hslots]
      exact heldAt_answer hheldU
    · rw [hexec]
      rcases h with h | h | h <;> rw [h] <;> rfl
  case stop =>
    intro w s v c k hv hc hserial hk
    have htaking : s.endTaking w = if k.stage = .taking ∧ s.heldAt v.serial v.ingest = none then s.framerStop w else s := by
      simp [State.endTaking, hv, hc, hk]
    refine ⟨fun h => endTaking_of_held fun x hx => Option.some.inj (hv.symm.trans hx) ▸ h, fun hstage => ?_, fun hstage hheld => ?_, ?_⟩
    · rw [htaking, if_neg fun h => hstage h.1]
    · rw [htaking, if_pos ⟨hstage, hheld⟩]
    intro hnodup t gone refused counted done
    obtain ⟨u, hu⟩ : ∃ u : State, u = s.stopped w := ⟨_, rfl⟩
    have hstop : State.StoppedAs w c k s u := hu ▸ stoppedAs_stopped hc hk
    have ht : t = (u.closeDue .volumeClose w).endStep1 w := by rw [hu]; rfl
    obtain ⟨hvols, hpend, halloc, haudit, hhalted, hctx, htags, hslots, hsent⟩ := hstop
    have hcount : s.countedClose c.serial k = counted := by rw [hserial]; rfl
    rw [hcount] at hctx
    rw [hserial] at htags hslots hsent
    have hvu : u.vol w = some v := by rw [State.vol, hvols]; exact hv
    have hpendOf : u.pendOf v.serial = s.pendOf v.serial := by rw [State.pendOf, hpend]; rfl
    have hrefused (e : TagEntry) : e ∈ s.refusedWrites v.serial ↔ e ∈ s.client.tags ∧ refused e := mem_refusedWrites
    have hkept {e : TagEntry} (he : e ∈ s.client.tags) (hno : ¬refused e) : u.client.tags.find? (·.tag == e.tag) = some e := by
      rw [htags]
      exact find?_endedTags_of_not_mem (fun x hx => ((hrefused x).mp hx).1) hnodup he fun hmem => hno ((hrefused e).mp hmem).2
    have hunodup : (u.client.tags.map (·.tag)).Nodup := htags ▸ nodup_endedTags hnodup
    obtain ⟨d, hd⟩ : ∃ d : Ctx, d = { c with close := some { counted with stage := .segments } } := ⟨_, rfl⟩
    have hcounted : u.ctx w = some d := hd ▸ hctx
    have hdserial : d.serial = v.serial := by rw [hd]; exact hserial
    have hdseg : d.seg = c.seg := by rw [hd]
    obtain ⟨y, hy⟩ : ∃ y : State, y = { u.modCtx w fun c => { c with close := some { counted with stage := .verdict } } with
        audit := { u.audit with closes := u.audit.closes ++ [w] } } := ⟨_, rfl⟩
    have hdone (h : done) : t = { y.dropTags (syncsOf v.serial u.client.tags) with
        sent := u.sent ++ (syncsOf v.serial u.client.tags).map fun e =>
          .completion e.tag (v.syncStatus 16777216) none ((firstLost v.map 0 16777216).getD 0) } := by
      rw [ht, closeDue_of_none hcounted (.inl (hdseg ▸ h.1)),
        endStep1_of_done (k := { counted with stage := .segments }) hvu hcounted (by rw [hd]) rfl
          (by rw [hdserial, hpendOf]; exact h.2) (hdseg ▸ h.1), hy]
    have hleft (h : ¬done) : t = u.closeDue .volumeClose w ∧ ∃ x, t.ctx w = some x ∧ x.close = some { counted with stage := .segments } := by
      have hsegs : u.pendOf d.serial ≠ [] ∨ d.seg.blocks ≠ 0 := by
        rw [hdserial, hpendOf, hdseg]
        exact (not_and_or.mp h).symm
      obtain ⟨x, hx, hclose, -, hrest⟩ := closeDue_of_segments_left (cond := .volumeClose) hcounted hsegs
      have hsame : t = u.closeDue .volumeClose w := by rw [ht, endStep1_of_segments_left hx hrest]
      exact ⟨hsame, x, hsame ▸ hx, by rw [hclose, hd]⟩
    have hcommon : ∃ (L : List TagEntry) (l : List Msg), (∀ e ∈ L, e.phase = .syncing ∧ e.serial = some v.serial ∧ e ∈ u.client.tags)
        ∧ t.vols = u.vols ∧ t.client.tags = endedTags L u.client.tags
        ∧ t.client.slots = u.client.slots.filter (fun x => ¬(x.data = none ∧ ∃ e ∈ L, e.tag = x.tag)) ∧ t.sent = u.sent ++ l := by
      by_cases h : done
      · rw [hdone h]
        refine ⟨syncsOf v.serial u.client.tags, _, fun e he => ?_, (dropTags_vols _ y).trans (by rw [hy]; rfl),
          (dropTags_tags _ y).trans (by rw [hy]; rfl), (dropTags_slots _ y).trans (by rw [hy]; rfl), rfl⟩
        have he' : e ∈ u.client.tags ∧ e.phase = .syncing ∧ e.serial = some v.serial := by simpa [syncsOf] using he
        exact ⟨he'.2.1, he'.2.2, he'.1⟩
      · have hcli : t.client = u.client := by rw [(hleft h).1, closeDue_client]
        refine ⟨[], [], fun _ hx => absurd hx List.not_mem_nil, ?_, ?_, ?_, ?_⟩
        · rw [(hleft h).1, closeDue_vols]
        · rw [hcli, endedTags_nil]
        · rw [hcli]; simp
        · rw [(hleft h).1, List.append_nil, closeDue_sent]
    obtain ⟨L, l, hL, htvols, httags, htslots, htsent⟩ := hcommon
    refine ⟨htvols.trans hvols, ?slots, ?blocks, ?refused, ?kept, ?ended, ?left, ?segment⟩
    case slots =>
      intro x hx
      rw [htslots, hslots] at hx
      have hmem := List.mem_filter.mp (List.mem_of_mem_filter (List.mem_of_mem_filter hx))
      exact ⟨by simpa using hmem.2, hmem.1⟩
    case blocks =>
      intro x hx hne hdata
      have hdata' : x.data ≠ none := Option.isSome_iff_ne_none.mp hdata
      rw [htslots, hslots]
      simp only [List.mem_filter, hx, hdata', false_and, not_false_eq_true, decide_true, and_true, true_and]
      simpa using hne
    case refused =>
      intro e he hr
      have hmem : e ∈ s.refusedWrites v.serial := (hrefused e).mpr ⟨he, hr⟩
      constructor
      · rw [State.tag, httags]
        exact find?_filter_of_none (by rw [htags]; exact find?_endedTags_of_mem hmem)
      · rw [htsent, hsent]
        exact List.mem_append_left _ (List.mem_append_right _ (List.mem_map.mpr ⟨e, hmem, rfl⟩))
    case kept =>
      intro e he hr hsync
      have hfind := hkept he hr
      rw [State.tag, httags]
      exact find?_endedTags_of_not_mem (fun x hx => (hL x hx).2.2) hunodup (List.mem_of_find?_eq_some hfind)
        fun hmem => hsync ⟨(hL e hmem).1, (hL e hmem).2.1⟩
    case ended =>
      intro h
      have hverdict := ctx_modCtx_self (f := fun c => { c with close := some { counted with stage := .verdict } }) (fun _ => rfl) hcounted
      have heq := hdone h
      refine ⟨?_, ?_, ?_, ?_, fun e he hphase hser => ?_⟩
      · rw [heq]
        show List.find? _ (y.dropTags _).ctxs = _
        rw [dropTags_ctxs, hy]
        rw [hd] at hverdict
        exact hverdict
      · rw [heq]
        refine (dropTags_audit _ y).trans ?_
        rw [hy, ← haudit]
      · rw [heq]
        refine (dropTags_pend _ y).trans ?_
        rw [hy]; exact hpend
      · rw [heq]
        refine (dropTags_alloc _ y).trans ?_
        rw [hy]; exact halloc
      · have hr : ¬refused e := by
          rintro ⟨-, hp | ⟨hp, -⟩⟩ <;> rw [hphase] at hp <;> cases hp
        have hmem : e ∈ syncsOf v.serial u.client.tags := by
          simpa [syncsOf, hphase, hser] using List.mem_of_find?_eq_some (hkept he hr)
        have hanswer (st : Status) (n : Nat) (hst : v.syncStatus 16777216 = st) (hn : (firstLost v.map 0 16777216).getD 0 = n) :
            .completion e.tag st none n ∈ t.sent := by
          rw [heq, ← hst, ← hn]
          exact List.mem_append_right _ (List.mem_map.mpr ⟨e, hmem, rfl⟩)
        refine ⟨?_, fun hlost => ?_, fun pre m post hmap hpre hk hpos hin => ?_⟩
        · rw [heq]
          show List.find? _ (y.dropTags _).client.tags = none
          rw [dropTags_tags]
          exact find?_endedTags_of_mem hmem
        · have hnone := firstLost_of_none (lo := 0) (hi := 16777216) fun m hm hk => absurd hk (hlost m hm)
          exact hanswer .good 0 (by rw [Volume.syncStatus, hnone]; rfl) (by rw [hnone]; rfl)
        · have hfirst := firstLost_of_first (post := post) hpre hk hpos hin
          rw [← hmap] at hfirst
          exact hanswer .storeError m.first (by rw [Volume.syncStatus, hfirst]; rfl) (by rw [hfirst]; rfl)
    case left =>
      intro h
      obtain ⟨hsame, x, hx, hclose⟩ := hleft h
      refine ⟨?_, ⟨x, hx, hclose⟩, fun e he hphase hser => ?_⟩
      · rw [hsame, closeDue_audit, haudit]
      · have hr : ¬refused e := by
          rintro ⟨-, hp | ⟨hp, -⟩⟩ <;> rw [hphase] at hp <;> cases hp
        rw [hsame, State.tag, closeDue_client]
        exact hkept he hr
    case segment =>
      intro hb hheld
      obtain ⟨hsame, -⟩ := hleft fun h => hb h.1
      have hclose := closeDue_eq (cond := .volumeClose) hcounted (by rw [hdseg]; exact hb) (by rw [hdseg]; exact hheld)
      have hlen : (u.pendOf d.serial).length = (s.pendOf v.serial).length := by rw [hdserial, hpendOf]
      constructor
      · intro hp
        rw [canClose_of_pending (by rw [hlen]; exact hp), if_neg Bool.false_ne_true] at hclose
        have hctxHeld := ctx_closeHeld (cond := .volumeClose) hcounted
        rw [hsame, hclose]
        split
        · obtain ⟨j, hj⟩ := joinWaiting_eq (.seal w d.serial) (u.closeHeld .volumeClose w)
          rw [hj]
          exact ⟨hpend, _, hctxHeld, by rw [hdseg]⟩
        · exact ⟨hpend, _, hctxHeld, by rw [hdseg]⟩
      · intro hp hm hh hcat hset hfresh z hz hfit
        have hopen : d.opened = true := by rw [hd]; exact opened_iff.mpr ⟨hcat, hset⟩
        have hlenD : d.sealLen = c.sealLen := by rw [hd]; rfl
        have hzU : u.alloc.filling = some z := by rw [halloc]; exact hz
        have hfitD : z.fill + d.sealLen ≤ 4096 := by rw [hlenD]; exact hfit
        have hnext : d.next = c.next := by rw [hd]
        have hfreshU : ∀ x ∈ u.pend, ¬(x.hdr.serial = d.serial ∧ x.hdr.index = d.next) := by
          rw [hpend, hdserial, hnext]; exact hfresh
        rw [canClose_of_room (by rw [hlen]; exact hp) (by rw [halloc]; exact hm) (sealPlaces_iff.mpr (.inr (.inr ⟨z, hzU, .inl hfitD⟩))),
          if_pos rfl, seal_of_fit hcounted (hhalted.trans hh) hopen hfreshU hzU hfitD, placedAt_sealedInto hfreshU] at hclose
        rw [hsame, hclose]
        refine ⟨d.placedSeg z.zone z.fill u.alloc.stamp, ?_, hdserial, hnext, ?_, ?_, rfl⟩
        · show u.pend ++ _ = _
          rw [hpend]
        · show d.seg.first = _
          rw [hdseg]
        · show d.seg.blocks = _
          rw [hdseg]

end Sys2Proof.Machine
end

section
/-! The journal unit (9.2, 9.3, 9.4): O55. -/

namespace Sys2Proof.Machine

variable {a : Append} {s : State}

/-! ### Whether an entry fits, and whether it can be appended -/

theorem fits_iff : s.fits a = true ↔ s.jr.buf.complete = false ∧ 32 + s.jr.buf.body.length + entryLen a.body ≤ 4096 := by
  rw [State.fits, Bool.and_eq_true, Bool.not_eq_true']
  exact and_congr_right fun _ => decide_eq_true_iff

theorem canAppend_iff : s.canAppend a = true ↔ s.journalFull = false ∧ (s.isHalted = true → s.jr.buf.complete = true ∨ s.fits a = true) := by
  simp only [State.canAppend, Bool.and_eq_true, Bool.not_eq_true', Bool.or_eq_true, or_assoc]
  refine and_congr_right fun _ => ?_
  cases s.isHalted <;> simp

theorem append_of_waits (h : s.jr.waitList ≠ [] ∨ s.canAppend a = false) :
    s.append a = { s with jr := { s.jr with waitList := s.jr.waitList ++ [a] } } := by
  have hno : (s.jr.waitList.isEmpty && s.canAppend a) = false := by
    rw [Bool.and_eq_false_iff]
    exact h.imp_left fun hn => by simpa using hn
  simp [State.append, hno]

theorem append_of_can (hw : s.jr.waitList = []) (h : s.canAppend a = true) : s.append a = s.appendNow a := by
  simp [State.append, hw, h]

/-! ### The release of the appender -/

theorem release_eq (who : Appender) (s : State) : s.release who = match who with
    | .nobody => s
    | .purge => s
    | .supersede _ _ => s
    | .close w _ => { s with
        vols := s.vols.map fun x => if x.window = w then { x with state := .closed } else x
        ctxs := s.ctxs.filter (·.window ≠ w) }
    | .sweep => { s with ret := { s.ret with
        sweep := s.ret.sweepNext.map (fun r => { day := r.1, ref := r.2 }), sweepNext := none } }
    | .patrol => { s with audit := { s.audit with patrol := { s.audit.patrol with entryWaits := false } } }
    | .verification => { s with
        audit := { s.audit with current := none }
        vols := s.vols.map fun x => if (∃ c, s.audit.current = some c ∧ c.window = x.window ∧ c.serial = x.serial) then
          { x with verifying := false } else x } := by
  cases who with
  | nobody => rfl
  | purge => rfl
  | supersede _ _ => rfl
  | patrol => rfl
  | close w n =>
    have hctxs : s.ctxs.filter (·.window ≠ w) = s.ctxs.filter (·.window != w) :=
      List.filter_congr fun x _ => by simp [bne, Bool.beq_eq_decide_eq]
    show (s.modVol w fun v => { v with state := .closed }).dropCtx w = _
    rw [modVol_eq]
    simp only [State.dropCtx, hctxs]
  | sweep =>
    simp only [State.release, State.endSweep]
    cases s.ret.sweepNext <;> rfl
  | verification =>
    simp only [State.release]
    cases hc : s.audit.current with
    | none => simp
    | some c =>
      simp only [State.modVol, Option.some.injEq, exists_eq_left', State.mk.injEq, true_and, and_true]
      refine List.map_congr_left fun x _ => ?_
      by_cases hw : x.window = c.window
      · by_cases hn : x.serial = c.serial
        · simp [hw, hn]
        · simp [hw, hn, Ne.symm hn]
      · simp [hw, Ne.symm hw]

/-! ### An entry appended at once -/

/-- The buffer with an entry more. -/
def JournalBuffer.placed (a : Append) (seq day : Nat) (b : JournalBuffer) : JournalBuffer :=
  { b with count := b.count + 1, body := b.body ++ entryBytes a.code seq day a.body }

theorem appendNow_of_fits (h : s.fits a = true) : s.appendNow a = State.release a.who (if a.forced then
    State.callJournal s.headRing (renderJournal s.jr.head (s.jr.buf.placed a s.jr.nextSeq s.ret.day)) a.waiters (s.placeEntry a)
    else s.placeEntry a) := by
  simp only [State.appendNow, h, if_true]
  rfl

theorem appendNow_of_full_block (h : s.fits a = false) : s.appendNow a = State.release a.who (if a.forced then
    State.callJournal (s.passBlock.placeEntry a).headRing
      (renderJournal (s.passBlock.placeEntry a).jr.head (s.passBlock.placeEntry a).jr.buf) a.waiters (s.passBlock.placeEntry a)
    else s.passBlock.placeEntry a) := by
  simp only [State.appendNow, h, Bool.false_eq_true, if_false]

/-- A fresh block in the buffer. -/
def State.freshBlock (s : State) : State :=
  { s with jr := { s.jr with head := s.jr.head + 1, buf := { firstSeq := s.jr.nextSeq } } }

/-- The buffer with the FILLER that closes it, where 16 bytes or more remain. -/
def JournalBuffer.filled (day : Nat) (b : JournalBuffer) : JournalBuffer :=
  if 16 ≤ 4096 - b.used then { b with body := b.body ++ fillerBytes (4096 - b.used) day } else b

theorem passBlock_eq (s : State) : s.passBlock = State.freshBlock (if s.jr.buf.complete then s
    else s.callJournal s.headRing (renderJournal s.jr.head (s.jr.buf.filled s.ret.day)) []) := rfl

theorem passBlock_of_complete (h : s.jr.buf.complete = true) :
    s.passBlock = { s with jr := { s.jr with head := s.jr.head + 1, buf := { firstSeq := s.jr.nextSeq } } } := by
  simp only [State.passBlock, h, if_true]

theorem passBlock_of_open (h : s.jr.buf.complete = false) (hh : s.halted = none) (hfree : ∀ w ∈ s.jr.writes, w.ring ≠ s.headRing) :
    s.passBlock = { s with
      jr := { s.jr with
        head := s.jr.head + 1, buf := { firstSeq := s.jr.nextSeq }
        writes := s.jr.writes ++ [{ ring := s.headRing, content := renderJournal s.jr.head (s.jr.buf.filled s.ret.day), waiters := [] }] }
      port := { s.port with queue := s.port.queue ++ [{
        cls := 1, user := .journal s.headRing, op := .write, block := 4096 + s.headRing, count := 1
        data := [renderJournal s.jr.head (s.jr.buf.filled s.ret.day)] }] } } := by
  have hcall := callJournal_of_free (content := renderJournal s.jr.head (s.jr.buf.filled s.ret.day)) (ws := []) hh hfree
  rw [passBlock_eq, h, if_neg Bool.false_ne_true, hcall]
  rfl

/-! ### The wait list -/

theorem callJournal_waitList (ring : Nat) (b : Block) (ws : List JournalWaiter) (l : List Append) (s : State) :
    State.callJournal ring b ws { s with jr := { s.jr with waitList := l } }
      = { s.callJournal ring b ws with jr := { (s.callJournal ring b ws).jr with waitList := l } } := by
  simp only [State.callJournal, State.isHalted]
  split
  · rfl
  · split <;> rfl

theorem passBlock_waitList (l : List Append) (s : State) :
    State.passBlock { s with jr := { s.jr with waitList := l } } = { s.passBlock with jr := { s.passBlock.jr with waitList := l } } := by
  simp only [State.passBlock]
  split
  · rfl
  · exact congrArg (fun u : State => { u with jr := { u.jr with head := u.jr.head + 1, buf := { firstSeq := u.jr.nextSeq } } })
      (callJournal_waitList _ _ _ l s)

theorem release_waitList (who : Appender) (l : List Append) (s : State) :
    State.release who { s with jr := { s.jr with waitList := l } } = { s.release who with jr := { (s.release who).jr with waitList := l } } := by
  rw [release_eq, release_eq]
  cases who <;> rfl

/-- An append does not look at the entries that wait, and leaves them. -/
theorem appendNow_waitList (a : Append) (l : List Append) (s : State) :
    State.appendNow a { s with jr := { s.jr with waitList := l } } = { s.appendNow a with jr := { (s.appendNow a).jr with waitList := l } } := by
  have hplace : State.placeEntry a (if State.fits a { s with jr := { s.jr with waitList := l } } then { s with jr := { s.jr with waitList := l } }
        else State.passBlock { s with jr := { s.jr with waitList := l } })
      = { State.placeEntry a (if s.fits a then s else s.passBlock) with
          jr := { (State.placeEntry a (if s.fits a then s else s.passBlock)).jr with waitList := l } } := by
    rw [passBlock_waitList]
    show State.placeEntry a (if s.fits a then _ else _) = _
    split <;> rfl
  simp only [State.appendNow]
  rw [hplace]
  generalize State.placeEntry a (if s.fits a then s else s.passBlock) = u
  split
  · rw [show State.headRing { u with jr := { u.jr with waitList := l } } = u.headRing from rfl, callJournal_waitList, release_waitList]
  · exact release_waitList _ _ _

theorem drain_of_nil (h : s.jr.waitList = []) : s.drain = s := by simp [State.drain, h, State.drainList]

theorem drain_of_stuck {x : Append} {rest : List Append} (h : s.jr.waitList = x :: rest) (hno : s.canAppend x = false) : s.drain = s := by
  rw [State.drain, h, State.drainList, hno, if_neg Bool.false_ne_true, ← h]

/-- The head of the wait list is appended, and the rest is worked. -/
theorem drain_of_can {x : Append} {rest : List Append} (h : s.jr.waitList = x :: rest) (hcan : s.canAppend x = true) :
    s.drain = State.drain { State.append x { s with jr := { s.jr with waitList := [] } } with
      jr := { (State.append x { s with jr := { s.jr with waitList := [] } }).jr with waitList := rest } } := by
  have happend : State.append x { s with jr := { s.jr with waitList := [] } }
      = { s.appendNow x with jr := { (s.appendNow x).jr with waitList := [] } } :=
    (append_of_can (s := { s with jr := { s.jr with waitList := [] } }) rfl hcan).trans (appendNow_waitList x [] s)
  rw [happend, State.drain, h, State.drainList, hcan, if_pos rfl, appendNow_waitList]
  rfl

theorem canAppend_of_full (h : s.journalFull = true) : s.canAppend a = false := by simp [State.canAppend, h]

theorem advancePointer_eq (ring : Nat) (s : State) :
    s.advancePointer ring = if s.jr.readPtr ≤ s.jr.head ∧ s.jr.readPtr % s.ringLen = ring then
      State.drain { s with jr := { s.jr with readPtr := s.jr.readPtr + 1 } } else s := by
  simp only [State.advancePointer, Bool.and_eq_true, decide_eq_true_eq, beq_iff_eq]

/-- The ring position of the block after the head's. -/
theorem next_ne_head {n h : Nat} (hn : 2 ≤ n) : (h + 1) % n ≠ h % n := by
  intro heq
  have hmod : (h + 1) % n = (h % n + 1) % n := by rw [Nat.add_mod, Nat.mod_eq_of_lt (show 1 < n by omega)]
  have hlt := Nat.mod_lt h (show 0 < n by omega)
  rw [hmod] at heq
  by_cases hlast : h % n + 1 = n
  · rw [hlast, Nat.mod_self] at heq; omega
  · rw [Nat.mod_eq_of_lt (by omega)] at heq; omega

/-- Settles O55. -/
theorem entriesJoinTheJournal : Obligations.EntriesJoinTheJournal := by
  unfold Obligations.EntriesJoinTheJournal
  intro a s entry buf used fitsIn fits noWrite placed fresh next ws writes released here passed last
  have hfits (x : Append) : s.fits x = true ↔ fitsIn x := fits_iff
  have hwaiters : a.waiters = ws := by simp [Append.waiters, ws]
  have hrel (u : State) : u.release a.who = released u := release_eq a.who u
  have hcannot {x : Append} (hh : s.isHalted = true) (hno : ¬noWrite x) : s.canAppend x = false := by
    refine Bool.eq_false_iff.mpr fun hc => hno ?_
    exact ((canAppend_iff.mp hc).2 hh).imp_right (hfits x).mp
  have hcan {x : Append} (hj : s.journalFull = false) (h : s.halted = none ∨ noWrite x) : s.canAppend x = true := by
    refine canAppend_iff.mpr ⟨hj, fun hh => ?_⟩
    rcases h with h | h
    · rw [isHalted_eq_false h] at hh; cases hh
    · exact h.imp_right (hfits x).mpr
  have hfull (h : buf.complete = true) : ¬fits := fun hf => by rw [hf.1] at h; cases h
  have hnofit (h : ¬fits) : s.fits a = false := Bool.eq_false_iff.mpr fun hf => h ((hfits a).mp hf)
  refine ⟨fun h => ?waits, fun hw hj => ⟨fun hf hff => ?here, fun hf hff hh hfree => ?hereForced, fun hf hff hh hout => ?hereGathered,
    fun hc hff => ?passed, fun hc hff hh hfree => ?passedForced, fun hh hf hc hfree => ?written⟩, fun h => ?still,
    fun x rest hx hj => ⟨fun hh hno => drain_of_stuck hx (hcannot hh hno), fun h => drain_of_can hx (hcan hj h)⟩, fun ring => ?pointer⟩
  case waits =>
    refine append_of_waits (h.imp_right fun h => ?_)
    exact h.elim canAppend_of_full fun ⟨hh, hno⟩ => hcannot hh hno
  case here =>
    rw [append_of_can hw (hcan hj (.inr (.inr hf))), appendNow_of_fits ((hfits a).mpr hf), hrel]
    refine congrArg released ?_
    rcases hff with hff | hh
    · rw [hff]; rfl
    · split
      · exact callJournal_of_halted (s := here) hh
      · rfl
  case hereForced =>
    rw [append_of_can hw (hcan hj (.inr (.inr hf))), appendNow_of_fits ((hfits a).mpr hf), hrel, hff, if_pos rfl, hwaiters]
    exact congrArg released (callJournal_of_free (s := here) hh hfree)
  case hereGathered =>
    rw [append_of_can hw (hcan hj (.inr (.inr hf))), appendNow_of_fits ((hfits a).mpr hf), hrel, hff, if_pos rfl, hwaiters]
    refine congrArg released ((callJournal_of_out (s := here) hh hout).trans ?_)
    refine congrArg (fun l => { here with jr := { here.jr with writes := l } }) (List.map_congr_left fun w _ => ?_)
    cases w.gathered <;> rfl
  case passed =>
    rw [append_of_can hw (hcan hj (.inr (.inl hc))), appendNow_of_full_block (hnofit (hfull hc)), hrel, passBlock_of_complete hc]
    refine congrArg released ?_
    rcases hff with hff | hh
    · rw [hff]; rfl
    · split
      · exact callJournal_of_halted (s := passed) hh
      · rfl
  case passedForced =>
    rw [append_of_can hw (hcan hj (.inr (.inl hc))), appendNow_of_full_block (hnofit (hfull hc)), hrel, passBlock_of_complete hc, hff,
      if_pos rfl, hwaiters]
    exact congrArg released (callJournal_of_free (s := passed) hh hfree)
  case written =>
    rw [append_of_can hw (hcan hj (.inl hh)), appendNow_of_full_block (hnofit hf), hrel,
      passBlock_of_open hc hh fun w hw => (hfree w hw).1]
    refine ⟨fun hff => by rw [hff]; rfl, fun hff hring => ?_⟩
    rw [hff, if_pos rfl, hwaiters]
    refine congrArg released (callJournal_of_free (s := writes s.headRing (renderJournal s.jr.head last) [] passed) hh fun w hw => ?_)
    rcases List.mem_append.mp hw with hw | hw
    · exact (hfree w hw).2
    · rw [List.mem_singleton.mp hw]
      exact (next_ne_head hring).symm
  case still =>
    rcases hx : s.jr.waitList with _ | ⟨x, rest⟩
    · exact drain_of_nil hx
    · exact drain_of_stuck hx (canAppend_of_full (h.resolve_left (by rw [hx]; exact List.cons_ne_nil _ _)))
  case pointer =>
    exact ⟨fun h => (advancePointer_eq ring s).trans (if_pos h), fun h => (advancePointer_eq ring s).trans (if_neg h)⟩

end Sys2Proof.Machine
end

section
/-! REPORT and INQUIRE (10.5): O30. -/

namespace Sys2Proof.Machine

/-! ### The values of a SNAPSHOT -/

/-- The eleven settings, one value each (12.4). -/
theorem settingsBytes_eq (x : Settings) : settingsBytes x = ([if x.mode = .posted then 0 else 1,
      match x.policy with
        | .abandon => 0
        | .resume => 1
        | .preserve => 2
        | .byClass => 3] : List Byte)
    ++ be 1 x.idleLimit ++ [if x.idleUnit = .seconds then 0 else 1] ++ be 1 x.storeTimeout
    ++ [if x.linkLoss = .hold then 0 else 1] ++ be 2 x.spaceLow ++ be 1 x.journalHigh ++ be 1 x.maskLevel
    ++ be 1 x.patrolRate ++ [if x.readAhead then 1 else 0] := by
  have hmode : be 1 x.mode.code = [if x.mode = .posted then 0 else 1] := by cases x.mode <;> rfl
  have hpolicy : be 1 x.policy.code = [match x.policy with
        | .abandon => 0
        | .resume => 1
        | .preserve => 2
        | .byClass => 3] := by cases x.policy <;> rfl
  have hunit : be 1 x.idleUnit.code = [if x.idleUnit = .seconds then 0 else 1] := by cases x.idleUnit <;> rfl
  have hloss : be 1 x.linkLoss.code = [if x.linkLoss = .hold then 0 else 1] := by cases x.linkLoss <;> rfl
  have hahead : be 1 (bit x.readAhead) = [if x.readAhead then 1 else 0] := by cases x.readAhead <;> rfl
  simp only [settingsBytes, hmode, hpolicy, hunit, hloss, hahead, List.cons_append, List.nil_append]

theorem length_snapshotBody (ref : BitVec 32) (s : State) : (s.snapshotBody ref).length = 74 := by
  simp [State.snapshotBody]

/-- The buffer's pass changes the values of a SNAPSHOT by the journal head alone. -/
theorem snapshotBody_passBlock (ref : BitVec 32) (s : State) :
    s.passBlock.snapshotBody ref = State.snapshotBody ref { s with jr := { s.jr with head := s.jr.head + 1 } } := by
  rw [passBlock_eq]
  split
  · rfl
  · unfold State.callJournal
    split
    · rfl
    · split <;> rfl

theorem snapshotBody_takeUp (ref : BitVec 32) (tag : Byte) (c : Instr) (s : State) :
    (s.takeUp tag c).2.snapshotBody ref = s.snapshotBody ref := by
  rw [takeUp_dispatched]
  rfl

/-! ### Appending a SNAPSHOT -/

variable {ref : BitVec 32} {s : State}

/-- The SNAPSHOT entry with a given body. -/
def snapshotEntry (body : List Byte) : Append := { code := 0x000F, body }

theorem appendSnapshot_of_waits (h : s.jr.waitList ≠ []) :
    s.appendSnapshot ref = s.append (snapshotEntry (s.snapshotBody ref)) := by
  have hno : s.jr.waitList.isEmpty = false := by simpa using h
  simp only [State.appendSnapshot, hno, Bool.false_and, Bool.false_eq_true, if_false]
  rfl

theorem appendSnapshot_of_can (hw : s.jr.waitList = []) (h : s.canAppend (snapshotEntry (s.snapshotBody ref)) = true) :
    s.appendSnapshot ref = (if s.fits (snapshotEntry (s.snapshotBody ref)) then s else s.passBlock).appendNow
      (snapshotEntry ((if s.fits (snapshotEntry (s.snapshotBody ref)) then s else s.passBlock).snapshotBody ref)) := by
  have hyes : (s.jr.waitList.isEmpty && s.canAppend (snapshotEntry (s.snapshotBody ref))) = true := by rw [hw, h]; rfl
  exact if_pos hyes

theorem appendSnapshot_of_fits (hw : s.jr.waitList = []) (h : s.canAppend (snapshotEntry (s.snapshotBody ref)) = true)
    (hf : s.fits (snapshotEntry (s.snapshotBody ref)) = true) :
    s.appendSnapshot ref = s.append (snapshotEntry (s.snapshotBody ref)) := by
  rw [appendSnapshot_of_can hw h, if_pos hf, append_of_can hw h]

theorem entryLen_snapshot (ref : BitVec 32) (s : State) : entryLen (s.snapshotBody ref) = 96 := by
  rw [entryLen, length_snapshotBody]; rfl

/-- A SNAPSHOT that does not fit has the values that stand once the buffer has passed on. -/
theorem appendSnapshot_of_passes (hw : s.jr.waitList = []) (hh : s.halted = none) (hj : s.journalFull = false)
    (hf : s.fits (snapshotEntry (s.snapshotBody ref)) = false) :
    s.appendSnapshot ref = s.append (snapshotEntry (State.snapshotBody ref { s with jr := { s.jr with head := s.jr.head + 1 } })) := by
  have hcan (a : Append) : s.canAppend a = true :=
    canAppend_iff.mpr ⟨hj, fun h => by rw [isHalted_eq_false hh] at h; cases h⟩
  obtain ⟨body, hbody⟩ : ∃ body, body = State.snapshotBody ref { s with jr := { s.jr with head := s.jr.head + 1 } } := ⟨_, rfl⟩
  have hlen : entryLen body = 96 := hbody ▸ entryLen_snapshot ref _
  have hnofit : s.fits (snapshotEntry body) = false := by
    rw [← hf]
    show (_ && decide (_ + entryLen body ≤ 4096)) = (_ && decide (_ + entryLen (s.snapshotBody ref) ≤ 4096))
    rw [hlen, entryLen_snapshot]
  have hfresh : s.passBlock.fits (snapshotEntry body) = true := by
    refine fits_iff.mpr ⟨rfl, ?_⟩
    show 32 + 0 + entryLen body ≤ 4096
    omega
  rw [appendSnapshot_of_can hw (hcan _), hf, if_neg Bool.false_ne_true, snapshotBody_passBlock, ← hbody, append_of_can hw (hcan _),
    appendNow_of_fits hfresh, appendNow_of_full_block hnofit]
  rfl

/-! ### The VOLUME entry -/

theorem listEntries_eq (i : Nat) (es : List MapEntry) :
    listEntries i es = (es.zipIdx i).flatMap fun p => be 4 p.2 ++ be 4 p.1.first ++ be 2 p.1.count ++ be 1 p.1.kind.code := by
  induction es generalizing i with
  | nil => rfl
  | cons e es ih => rw [List.zipIdx_cons, List.flatMap_cons, ← ih]; rfl

theorem zipIdx_listed (es : List MapEntry) (first : Nat) :
    ((es.drop first).take 16).zipIdx first = (es.zipIdx.drop first).take 16 := by
  refine List.ext_getElem? fun i => ?_
  by_cases hi : i < 16
  · simp [hi, List.getElem?_zipIdx]
  · simp [hi]

/-- The flags byte of a VOLUME entry (12.4). -/
theorem flagsByte_eq (v : Volume) : bit v.stalled + 2 * bit v.verifyQueued + 4 * bit v.verifying + 8 * bit v.reclaimBegun
    = (if v.stalled then 1 else 0) + (if v.verifyQueued then 2 else 0) + (if v.verifying then 4 else 0)
      + (if v.reclaimBegun then 8 else 0) := by
  have hbit (n : Nat) (b : Bool) : n * bit b = if b then n else 0 := by cases b <;> simp [bit]
  simp only [hbit]
  rfl

theorem trailerBytes_eq : trailerBytes = fun t => be 4 t.count ++ be 6 t.duration ++ be 6 t.units ++ be 6 t.volume
    ++ [if t.crcGood then 1 else 0] := rfl

theorem inquireBody_of_vol {w first : Nat} {v : Volume} (hv : s.vol w = some v) :
    s.inquireBody ref w first = volumeBody ref.toNat v (match s.ctx w with
        | none => v.counts
        | some c => c.counts)
      ((s.ctx w).map fun c => (c.framer, c.carry.length, c.committed, (s.pendOf c.serial).length)) first := by
  rw [State.inquireBody, hv]
  cases s.ctx w <;> rfl

theorem length_listed (es : List MapEntry) (first : Nat) :
    ((es.drop first).take 16).length = ((es.zipIdx.drop first).take 16).length := by
  rw [← zipIdx_listed, List.length_zipIdx]

theorem linkBytes_eq : linkBytes = fun l => be 8 l.index ++ be 8 l.value.toNat := rfl

/-- The VOLUME entry of a window that is not FREE, spelled out (12.4). -/
theorem inquireBody_eq {w first : Nat} {v : Volume} (hv : s.vol w = some v) :
    s.inquireBody ref w first =
      be 4 ref.toNat ++ be 2 v.window ++ be 1 v.state.code ++ be 4 v.serial ++ (be 2 v.source ++ be 2 v.day ++ be 1 v.gen)
        ++ be 1 v.cls ++ be 2 v.openedOn ++ be 1 v.bank ++ be 1 v.audit.code
        ++ optBytes 2 (v.flags.map fun f => be 2 f.code)
        ++ optBytes 23 (v.trailer.map fun t => be 4 t.count ++ be 6 t.duration ++ be 6 t.units ++ be 6 t.volume
          ++ [if t.crcGood then 1 else 0])
        ++ (fun k : Counts => be 4 k.calls ++ be 4 k.gaps ++ be 4 k.disorder ++ be 4 k.bad ++ be 4 k.unrated
          ++ be 6 k.duration ++ be 6 k.units ++ be 6 k.volume) (match s.ctx w with
          | none => v.counts
          | some c => c.counts)
        ++ be 4 v.ingest ++ be 4 v.segments ++ optBytes 8 (v.digest.map fun d => be 8 d.toNat)
        ++ optBytes 16 (v.chain.map fun l => be 8 l.index ++ be 8 l.value.toNat) ++ optBytes 2 (v.supersededOn.map (be 2))
        ++ optBytes 3 (v.expiry.map (be 3))
        ++ be 1 ((if v.stalled then 1 else 0) + (if v.verifyQueued then 2 else 0) + (if v.verifying then 4 else 0)
          + (if v.reclaimBegun then 8 else 0))
        ++ optBytes 7 ((s.ctx w).map fun c =>
          be 1 c.framer.code ++ be 1 c.carry.length ++ be 4 c.committed ++ be 1 (s.pendOf c.serial).length)
        ++ be 4 v.map.length ++ be 1 ((v.map.zipIdx.drop first).take 16).length
        ++ ((v.map.zipIdx.drop first).take 16).flatMap fun p =>
          be 4 p.2 ++ be 4 p.1.first ++ be 2 p.1.count ++ be 1 p.1.kind.code := by
  refine (inquireBody_of_vol hv).trans ?_
  unfold volumeBody
  dsimp only
  rw [flagsByte_eq, listEntries_eq, zipIdx_listed, length_listed, Option.map_map, identityBytes, countsBytes, trailerBytes_eq,
    linkBytes_eq] <;> rfl

/-- Settles O30. -/
theorem reportsAreAppended : Obligations.ReportsAreAppended := by
  unfold Obligations.ReportsAreAppended
  intro tag ref window first s ht rep inq answered appends fill work settings snapshot fits passed counts volume
  have hrep : exec rep s = .next ((s.takeUp tag rep).2.ifJournal (s.takeUp tag rep).1 fun x =>
      (x.appendSnapshot ref).answer (s.takeUp tag rep).1 .good none) := congrArg _ (own_of_takes ht tag rep _)
  have hinq : exec inq s = .next (if 4095 ≤ window.toNat then (s.takeUp tag inq).2.deny (s.takeUp tag inq).1 .badField
      else (s.takeUp tag inq).2.ifJournal (s.takeUp tag inq).1 fun x =>
        (x.append { code := 0x0010, body := x.inquireBody ref window.toNat first.toNat }).answer (s.takeUp tag inq).1 .good none) :=
    congrArg _ (own_of_takes ht tag inq _)
  have hsnapshot : s.snapshotBody ref = snapshot s := by
    rw [State.snapshotBody, settingsBytes_eq]
    rfl
  have hpassed : State.snapshotBody ref passed = snapshot passed := by
    rw [State.snapshotBody, settingsBytes_eq]
    rfl
  obtain ⟨u, hu⟩ : ∃ u : State, u = (s.takeUp tag rep).2 := ⟨_, rfl⟩
  have hsnapU : u.snapshotBody ref = snapshot s := hu ▸ (snapshotBody_takeUp ref tag rep s).trans hsnapshot
  have hjrU : u.jr = s.jr := hu ▸ takeUp_jr tag rep s
  have hfullU : u.journalFull = s.journalFull := hu ▸ takeUp_journalFull tag rep s
  have hhU : u.halted = none := by rw [hu, takeUp_only]; exact ht.alive
  have hfitsU : u.fits (snapshotEntry (u.snapshotBody ref)) = true ↔ fits := by rw [fits_iff, hjrU, hsnapU]; rfl
  have hcanU (hj : s.journalFull = false) (a : Append) : u.canAppend a = true :=
    canAppend_iff.mpr ⟨hfullU.trans hj, fun h => by rw [isHalted_eq_false hhU] at h; cases h⟩
  have hfree (hj : s.journalFull = false) : exec rep s = .next ((u.appendSnapshot ref).answer (s.takeUp tag rep).1 .good none) := by
    rw [hrep, ← hu, ifJournal_of_free _ (hfullU.trans hj)]
  have hvolume (hj : s.journalFull = false) (hw : window.toNat < 4095) :
      appends inq 0x0010 (s.inquireBody ref window.toNat first.toNat) := by
    have hbody : (s.takeUp tag inq).2.inquireBody ref window.toNat first.toNat = s.inquireBody ref window.toNat first.toNat := by
      rw [takeUp_dispatched]; rfl
    rw [if_neg (Nat.not_le.mpr hw), ifJournal_of_free _ ((takeUp_journalFull ..).trans hj), hbody] at hinq
    exact hinq
  refine ⟨fun hw => ?field, fun hj => ⟨?full, fun hw => ?fullInquire⟩, fun hj h => ?stands, fun hj hw hf => ?passes,
    fun hj hw hv => ?free, fun hj hw v hv => ?volume⟩
  case field => exact hinq.trans (congrArg _ (if_pos hw))
  case full => exact hrep.trans (congrArg _ (ifJournal_of_full _ ((takeUp_journalFull ..).trans hj)))
  case fullInquire =>
    exact hinq.trans (congrArg _ ((if_neg (Nat.not_le.mpr hw)).trans (ifJournal_of_full _ ((takeUp_journalFull ..).trans hj))))
  case stands =>
    have happend : u.appendSnapshot ref = u.append (snapshotEntry (snapshot s)) := by
      rw [← hsnapU]
      by_cases hw : u.jr.waitList = []
      · exact appendSnapshot_of_fits hw (hcanU hj _) (hfitsU.mpr (h.resolve_left fun hn => hn (by rw [← hjrU]; exact hw)))
      · exact appendSnapshot_of_waits hw
    rw [happend, hu] at hfree
    exact hfree hj
  case passes =>
    have happend : u.appendSnapshot ref = u.append (snapshotEntry (snapshot passed)) := by
      have hpass := appendSnapshot_of_passes (ref := ref) (by rw [hjrU]; exact hw) hhU (hfullU.trans hj)
        (Bool.eq_false_iff.mpr fun h => hf (hfitsU.mp h))
      rw [hpass, ← hpassed, hu, takeUp_dispatched]
      rfl
    rw [happend, hu] at hfree
    exact hfree hj
  case free =>
    have hbody : s.inquireBody ref window.toNat first.toNat = be 4 ref.toNat ++ be 2 window.toNat ++ [0] := by
      rw [State.inquireBody, hv]; rfl
    rw [hbody] at hvolume
    exact hvolume hj hw
  case volume =>
    have happends := hvolume hj hw
    rw [inquireBody_eq hv] at happends
    exact happends

end Sys2Proof.Machine
end

section
/-! GOOD completions of the fixed-place writes, and the calls for them (1.8, 9.2, 10.6): O49. -/

namespace Sys2Proof.Machine

theorem each_eq_foldl {α : Type} (f : α → State → State) (xs : List α) (s : State) : each f xs s = xs.foldl (fun u x => f x u) s := by
  induction xs generalizing s with
  | nil => rfl
  | cons x xs ih => exact ih (f x s)

section
variable {tag : Byte} {field : BitVec 64} {s : State} {e : StoreEntry}

/-- A GOOD completion of a settings write reaches the settings unit, its tag free. -/
theorem exec_settingsGood (ha : s.Awaits tag e) (hop : e.req.op = .write) (hu : e.req.user = .settings) :
    exec (.settingsWriteCompletion tag 0 field) s = .next ((s.dropEntry tag.toNat).settingsEnds (.ok [])) := by
  refine congrArg _ ((completeFor_awaited ha (by rw [hu]; rfl) field).trans ?_)
  rw [outcome_good_write field.toNat e (by rw [hop]; decide), hu]
  rfl

theorem exec_catalogueGood {b : Nat} (ha : s.Awaits tag e) (hop : e.req.op = .write) (hu : e.req.user = .catalogue b) :
    exec (.catalogueWriteCompletion tag 0 field) s = .next ((s.dropEntry tag.toNat).catalogueEnds b (.ok [])) := by
  refine congrArg _ ((completeFor_awaited ha (by rw [hu]; rfl) field).trans ?_)
  rw [outcome_good_write field.toNat e (by rw [hop]; decide), hu]
  rfl

theorem exec_journalGood {ring : Nat} (ha : s.Awaits tag e) (hop : e.req.op = .write) (hu : e.req.user = .journal ring) :
    exec (.journalWriteCompletion tag 0 field) s = .next ((s.dropEntry tag.toNat).journalEnds ring (.ok [])) := by
  refine congrArg _ ((completeFor_awaited ha (by rw [hu]; rfl) field).trans ?_)
  rw [outcome_good_write field.toNat e (by rw [hop]; decide), hu]
  rfl

end

/-! ### The settings block -/

/-- The state after a GOOD settings write, before what waited on it goes on: its values in force, the gathered write handed over. -/
def State.settingsDone (w : SettingsWrite) (s : State) : State :=
  { s with
    set := { s.set with
      work := w.settings, workMarker := w.marker, gathered := none
      write := s.set.gathered.map fun ws =>
        { settings := s.set.image, marker := s.set.imageMarker, day := s.ret.day, bytes := storedBlock s.stored, waiters := ws } }
    ctxs := if w.settings.idleLimit = 0 then s.ctxs.map fun c => { c with idle := none } else s.ctxs
    audit := { s.audit with patrol := { s.audit.patrol with timer :=
      if w.settings.patrolRate = 0 then false
      else if s.set.work.patrolRate = 0 ∧ s.startup = none then true else s.audit.patrol.timer } }
    port := { s.port with queue := s.port.queue ++ if s.set.gathered = none then [] else
      [{ cls := 1, user := .settings, op := .write, block := 0, count := 1, data := [storedBlock s.stored] }] } }

variable {s : State}

/-- What a write's values do to the timers as they come into force (1.5, 8.7). -/
theorem inForce_eq (w : SettingsWrite) (s : State) : s.inForce w = { s with
    set := { s.set with work := w.settings, workMarker := w.marker }
    ctxs := if w.settings.idleLimit = 0 then s.ctxs.map fun c => { c with idle := none } else s.ctxs
    audit := { s.audit with patrol := { s.audit.patrol with timer :=
      if w.settings.patrolRate = 0 then false
      else if s.set.work.patrolRate = 0 ∧ s.startup = none then true else s.audit.patrol.timer } } } := by
  have hidle : State.stopIdle { s with set := { s.set with work := w.settings, workMarker := w.marker } } = { s with
      set := { s.set with work := w.settings, workMarker := w.marker }
      ctxs := if w.settings.idleLimit = 0 then s.ctxs.map fun c => { c with idle := none } else s.ctxs } := by
    simp only [State.stopIdle, beq_iff_eq]
    split <;> rfl
  have hload : (s.set.work.patrolRate == 0 && !s.starting) = true ↔ s.set.work.patrolRate = 0 ∧ s.startup = none := by
    simp [State.starting]
  simp only [State.inForce, hidle, State.patrolRate, State.modPatrol]
  by_cases hrate : w.settings.patrolRate = 0
  · simp only [hrate, beq_self_eq_true, if_true]
  · have hrate' : (w.settings.patrolRate == 0) = false := by simpa using hrate
    simp only [hrate, hrate', Bool.false_eq_true, if_false]
    by_cases hold : s.set.work.patrolRate = 0 ∧ s.startup = none
    · rw [if_pos hold]
      exact if_pos (hload.mpr hold)
    · rw [if_neg hold]
      exact if_neg fun h => hold (hload.mp h)

theorem settingsEnds_good {w : SettingsWrite} (hw : s.set.write = some w) (hh : s.halted = none) :
    s.settingsEnds (.ok []) = State.formatDone (w.waiters.foldl (fun u x => settingsWaiter w.day x u) (s.settingsDone w)) := by
  have hdone : (match (State.inForce w { s with set := { s.set with write := none } }).set.gathered with
      | none => State.inForce w { s with set := { s.set with write := none } }
      | some ws => (State.inForce w { s with set := { s.set with write := none } }).handSettings ws) = s.settingsDone w := by
    rw [inForce_eq]
    cases hg : s.set.gathered with
    | none => simp only [State.settingsDone, hg, Option.map_none, if_true, List.append_nil]
    | some ws =>
      simp only [State.settingsDone, hg, Option.map_some, reduceCtorEq, if_false]
      rfl
  simp only [State.settingsEnds, hw, State.settingsGood, isHalted_eq_false (s := { s with set := { s.set with write := none } }) hh,
    Bool.false_eq_true, if_false, ← each_eq_foldl]
  rw [← hdone] <;> rfl

theorem answers_startup (os : List (Option Nat)) (s : State) :
    (os.foldl (fun (u : State) o => u.answer o .good none) s).startup = s.startup := by
  induction os generalizing s with
  | nil => rfl
  | cons o os ih => exact (ih _).trans ((congrArg State.startup (answer_only o .good none s)).trans rfl)

/-! ### A catalogue block -/

/-- The state after a GOOD write of a catalogue block, before what waited on it goes on. -/
def State.catalogueDone (b : Nat) (w : CatWrite) (s : State) : State :=
  { s with
    set := { s.set with catWrites := s.set.catWrites.filter (·.block ≠ b) ++ match w.gathered with
      | none => []
      | some ws => [{ block := b, bytes := s.catBlock b, waiters := ws }] }
    port := { s.port with queue := s.port.queue ++ if w.gathered = none then [] else
      [{ cls := 1, user := .catalogue b, op := .write, block := b, count := 1, data := [s.catBlock b] }] } }

theorem catalogueEnds_good {b : Nat} {w : CatWrite} (hw : s.catWrite b = some w) :
    s.catalogueEnds b (.ok []) = State.formatDone (w.waiters.foldl (fun u x => catalogueWaiter x u) (s.catalogueDone b w)) := by
  have hblock : w.block = b := by simpa using List.find?_some hw
  have hfilter : s.set.catWrites.filter (·.block != b) = s.set.catWrites.filter (·.block ≠ b) :=
    List.filter_congr fun x _ => by simp [bne, Bool.beq_eq_decide_eq]
  have hdone : (match w.gathered with
      | none => { s with set := { s.set with catWrites := s.set.catWrites.filter (·.block != b) } }
      | some ws => State.handCatalogue b ws { s with set := { s.set with catWrites := s.set.catWrites.filter (·.block != b) } })
        = s.catalogueDone b w := by
    cases hg : w.gathered with
    | none => simp only [State.catalogueDone, hg, hfilter, if_true, List.append_nil]
    | some ws =>
      simp only [State.catalogueDone, hg, reduceCtorEq, if_false, State.handCatalogue, hfilter] <;> rfl
  simp only [State.catalogueEnds, hw, State.catalogueGood, hblock, ← each_eq_foldl]
  rw [← hdone] <;> rfl

/-! ### A journal block -/

theorem journalEnds_good {ring : Nat} {w : JournalWrite} (hw : s.jr.writes.find? (fun x => x.ring == ring) = some w)
    (hh : s.halted = none) :
    s.journalEnds ring (.ok []) =
      let readers := (s.client.tags.filter fun x => x.wait = .journalWrite ring).map (·.tag)
      let told := w.waiters.foldl (fun u x => journalWaiter x u) (readers.foldl (fun u t => wakeRead t u)
        { s with jr := { s.jr with writes := s.jr.writes.filter (·.ring ≠ ring) } })
      match w.gathered with
      | none => told
      | some (content, ws) => if told.isHalted then told else told.handGathered ring content ws := by
  have hring : w.ring = ring := by simpa using List.find?_some hw
  have hfilter : s.jr.writes.filter (·.ring != ring) = s.jr.writes.filter (·.ring ≠ ring) :=
    List.filter_congr fun x _ => by simp [bne, Bool.beq_eq_decide_eq]
  have hreaders : s.ringReaders ring = (s.client.tags.filter fun x => x.wait = .journalWrite ring).map (·.tag) := by
    rw [State.ringReaders]
    exact congrArg _ (List.filter_congr fun x _ => by rw [Bool.beq_eq_decide_eq])
  simp only [State.journalEnds, hw, State.journalGood, hring, isHalted_eq_false hh, Bool.false_eq_true, if_false, hfilter, hreaders,
    each_eq_foldl] <;> rfl

theorem syncWritten_of_last {t : Nat} {x : TagEntry} (ht : s.tag t = some x) (h : x.journalWrites ≤ 1) :
    s.syncWritten t = s.complete t .good none 0 := by
  simp only [State.syncWritten, ht, h, if_true, State.finish]

theorem syncWritten_of_more {t : Nat} {x : TagEntry} (ht : s.tag t = some x) (h : 1 < x.journalWrites) :
    s.syncWritten t = { s with client := { s.client with tags := s.client.tags.map fun y =>
      if y.tag = t then { y with journalWrites := y.journalWrites - 1 } else y } } := by
  simp only [State.syncWritten, ht, Nat.not_le.mpr h, if_false, State.modTag, beq_iff_eq]

/-! ### The open's writes -/

/-- The OPEN entry of a volume (12.4). -/
def openEntry (v : Volume) : Append :=
  { code := 0x0002
    body := be 2 v.window ++ be 4 v.serial ++ (be 2 v.source ++ be 2 v.day ++ be 1 v.gen) ++ be 1 v.cls ++ be 1 v.bank
      ++ be 2 v.openedOn }

theorem foldl_congr_mem {α : Type} {f g : State → α → State} {l : List α} (h : ∀ x ∈ l, ∀ s, f s x = g s x) (s : State) :
    l.foldl f s = l.foldl g s := by
  induction l generalizing s with
  | nil => rfl
  | cons x l ih =>
    rw [List.foldl_cons, List.foldl_cons, h x (by simp), ih fun y hy => h y (List.mem_cons_of_mem x hy)]

theorem placeSealed_eq (n : Nat) (s : State) : s.placeSealed n
    = ((s.pendOf n).filter fun p => p.place = none ∧ p.status = .writing).foldl (fun x p => x.placeOrWait n p.hdr.index) s := by
  have hfilter : ((s.pendOf n).filter fun p => p.place.isNone && p.status == .writing)
      = (s.pendOf n).filter fun p => p.place = none ∧ p.status = .writing :=
    List.filter_congr fun p _ => by rw [Bool.eq_iff_iff]; simp
  rw [State.placeSealed, each_eq_foldl, hfilter]
  refine foldl_congr_mem (fun p hp x => ?_) s
  have hserial : p.hdr.serial = n := by simpa using (List.mem_filter.mp (List.mem_of_mem_filter hp)).2
  rw [hserial]

/-- The state with a context replaced. -/
def State.putCtx (w : Nat) (k : Ctx) (s : State) : State := { s with ctxs := s.ctxs.map fun x => if x.window = w then k else x }

theorem openWritten_of_ctx {n : Nat} {v : Volume} {c : Ctx} {catalogue : Bool} (hv : s.volOf n = some v)
    (hc : s.ctx v.window = some c) :
    let k := if catalogue then { c with openCatalogue := true } else { c with openSettings := true }
    s.openWritten catalogue n = if k.opened then State.append (openEntry v) (((s.pendOf n).filter fun p =>
        p.place = none ∧ p.status = .writing).foldl (fun x p => x.placeOrWait n p.hdr.index) (s.putCtx v.window k))
      else s.putCtx v.window k := by
  intro k
  have hput : s.modCtx v.window (fun _ => k) = s.putCtx v.window k := by simp only [State.modCtx, State.putCtx, beq_iff_eq]
  simp only [State.openWritten, hv, hc, hput, placeSealed_eq, k] <;> rfl

/-! ### A placement -/

theorem passIfJoined_of_nil {old : Alloc} (h : s.alloc.waiting = []) : s.passIfJoined old = s := by
  unfold State.passIfJoined
  split
  · exact passWaiting_of_nil h
  · rfl

variable {serial index n : Nat} {p : PendSeg} {z : Zone} {rest : List Nat}

theorem idle_eq_false (h : z.live ≠ 0 ∨ z.list ≠ []) : z.idle = false := by
  rcases h with h | h <;> simp [Zone.idle, h]

theorem makeRoom_of_fifo (hz : s.alloc.filling = some z) (hfull : 4096 < z.fill + p.hdr.len) (hfifo : s.alloc.fifo = n :: rest)
    (hidle : z.live ≠ 0 ∨ z.list ≠ []) : s.alloc.makeRoom p.hdr.len = some { s.alloc with
      fifo := rest
      zones := insertBy (·.zone) { zone := n, filling := true }
        (s.alloc.zones.map fun x => if x.zone = z.zone then { x with filling := false } else x) } := by
  have hno := idle_eq_false hidle
  simp only [Alloc.makeRoom, hz, Nat.not_le.mpr hfull, if_false, hfifo, hno, Bool.false_eq_true, Alloc.modZone, beq_iff_eq]

theorem makeRoom_of_fifo_idle (hz : s.alloc.filling = some z) (hfull : 4096 < z.fill + p.hdr.len) (hfifo : s.alloc.fifo = n :: rest)
    (hlive : z.live = 0) (hlist : z.list = []) : s.alloc.makeRoom p.hdr.len = some { s.alloc with
      fifo := rest ++ [z.zone]
      zones := insertBy (·.zone) { zone := n, filling := true } (s.alloc.zones.filter (·.zone ≠ z.zone)) } := by
  have hyes : z.idle = true := by simp [Zone.idle, hlive, hlist]
  have hfilter : s.alloc.zones.filter (·.zone != z.zone) = s.alloc.zones.filter (·.zone ≠ z.zone) :=
    List.filter_congr fun x _ => by simp [bne, Bool.beq_eq_decide_eq]
  simp only [Alloc.makeRoom, hz, Nat.not_le.mpr hfull, if_false, hfifo, hyes, if_true, Alloc.freeZone, hfilter]

theorem makeRoom_of_idle (hz : s.alloc.filling = some z) (hfull : 4096 < z.fill + p.hdr.len) (hfifo : s.alloc.fifo = [])
    (hlive : z.live = 0) (hlist : z.list = []) : s.alloc.makeRoom p.hdr.len = some { s.alloc with
      zones := s.alloc.zones.map fun x => if x.zone = z.zone then { x with fill := 0 } else x } := by
  have hyes : z.idle = true := by simp [Zone.idle, hlive, hlist]
  simp only [Alloc.makeRoom, hz, Nat.not_le.mpr hfull, if_false, hfifo, hyes, if_true, Alloc.modZone, beq_iff_eq]

theorem makeRoom_of_none (hz : s.alloc.filling = some z) (hfull : 4096 < z.fill + p.hdr.len) (hfifo : s.alloc.fifo = [])
    (hidle : z.live ≠ 0 ∨ z.list ≠ []) : s.alloc.makeRoom p.hdr.len = none := by
  have hno := idle_eq_false hidle
  simp only [Alloc.makeRoom, hz, Nat.not_le.mpr hfull, if_false, hfifo, hno, Bool.false_eq_true]

/-! ### The call for a catalogue block -/

theorem length_catRecord (w : Nat) (o : Option Volume) : (if w == 4095 then zeros 256 else catRecordBytes o).length = 256 := by
  split
  · exact length_zeros 256
  · cases o with
    | none =>
      rw [show catRecordBytes none = padTo 252 [] ++ be 4 (crc32 (padTo 252 [])).toNat from rfl, List.length_append, length_be,
        length_padTo 252 [] (Nat.zero_le _)]
    | some v => exact length_catRecordBytes v

/-- The record of a window in its catalogue block. -/
theorem slice_catRecords (k i w : Nat) (h : i < k) (s : State) :
    slice (s.catRecords k w) (256 * i) 256 = if w + i == 4095 then zeros 256 else catRecordBytes (s.catImage (w + i)) := by
  induction k generalizing i w with
  | zero => omega
  | succ k ih =>
    rw [State.catRecords]
    cases i with
    | zero => exact slice_here (length_catRecord w _)
    | succ i =>
      rw [slice_skip (by rw [length_catRecord]; omega), length_catRecord, show 256 * (i + 1) - 256 = 256 * i by omega,
        ih i (w + 1) (by omega), Nat.add_right_comm w 1 i, Nat.add_assoc w i 1]

theorem slice_catBlock (w : Nat) (s : State) : slice (s.catBlock (1 + w / 16)) (256 * (w % 16)) 256
    = if w == 4095 then zeros 256 else catRecordBytes (s.catImage w) := by
  have hw : 16 * (1 + w / 16 - 1) + w % 16 = w := by omega
  have hslice := slice_catRecords 16 (w % 16) (16 * (1 + w / 16 - 1)) (Nat.mod_lt w (by decide)) s
  rwa [hw] at hslice

theorem catImage_of_none {w : Nat} (hv : s.vol w = none) : s.catImage w = none := by simp [State.catImage, hv]

/-- The conditions under which a catalogue record is FREE, or CLOSED, before the volume table has it so. -/
theorem catImage_of_vol {w : Nat} {v : Volume} (hv : s.vol w = some v) :
    let freed : Prop := ∃ r, s.ret.reclaim = some r ∧ r.window = w ∧ r.freeIssued = true
    let closed : Prop := ∃ c k, s.ctx w = some c ∧ c.close = some k ∧ (k.stage = .writing ∨ k.stage = .journal)
    (freed → s.catImage w = none)
      ∧ (¬freed → closed → s.catImage w = some { v with state := .closed })
      ∧ (¬freed → ¬closed → s.catImage w = if v.state = .closing then some (unclosedImage v) else some v) := by
  intro freed closed
  have hfreed : s.ret.reclaim.any (fun r => r.window == w && r.freeIssued) = true ↔ freed := by simp [freed, Option.any_eq_true]
  have hclosed : (s.ctx w).any (fun c => c.close.any fun k => k.stage == .writing || k.stage == .journal) = true ↔ closed := by
    simp [closed, Option.any_eq_true]
  have himage : s.catImage w = if s.ret.reclaim.any (fun r => r.window == w && r.freeIssued) then none
      else if (s.ctx w).any (fun c => c.close.any fun k => k.stage == .writing || k.stage == .journal) then
        some { v with state := .closed }
      else if v.state = .closing then some (unclosedImage v) else some v := by
    simp only [State.catImage, hv, beq_iff_eq]
  rw [himage]
  exact ⟨fun h => if_pos (hfreed.mpr h), fun h hc => (if_neg fun hf => h (hfreed.mp hf)).trans (if_pos (hclosed.mpr hc)),
    fun h hc => (if_neg fun hf => h (hfreed.mp hf)).trans (if_neg fun hf => hc (hclosed.mp hf))⟩

/-- Settles O49. -/
theorem fixedPlaceWritesComplete : Obligations.FixedPlaceWritesComplete := by
  unfold Obligations.FixedPlaceWritesComplete
  refine ⟨?completions, ?waiters, ?openings, ?placements, ?formats, ?settingsCalls, ?catalogueCalls⟩
  case completions =>
    intro tag field s e ha hop hh freed
    have hfreed : s.dropEntry tag.toNat = freed := dropEntry_eq tag.toNat s
    refine ⟨?settings, ?catalogue, ?journal, ?readers⟩
    case settings =>
      intro hu w hw bytes after
      have hexec : exec (.settingsWriteCompletion tag 0 field) s
          = .next (State.formatDone (w.waiters.foldl (fun u x => settingsWaiter w.day x u) after)) := by
        rw [exec_settingsGood ha hop hu, hfreed, settingsEnds_good (s := freed) hw hh]
        rfl
      refine ⟨hexec, fun hst os hos => ?_, fun hst o ref hos => ?_⟩
      · rw [hexec, hos, List.foldl_map]
        exact congrArg _ (formatDone_started ((answers_startup os after).trans hst))
      · have honly := answer_only o .good none after
        have hret : (after.answer o .good none).ret = s.ret := (congrArg State.ret honly).trans rfl
        have hstart : ((after.answer o .good none).requestSweep w.day ref).startup = none := by
          unfold State.requestSweep State.beginSweep
          split <;> exact (congrArg State.startup honly).trans hst
        rw [hexec, hos]
        refine congrArg _ ((formatDone_started hstart).trans ?_)
        rw [State.requestSweep, hret]
        cases hs : s.ret.sweep with
        | none => simp only [State.beginSweep, hret, if_true]
        | some x => simp only [reduceCtorEq, if_false]
    case catalogue =>
      intro b hu w hw after
      have hexec : exec (.catalogueWriteCompletion tag 0 field) s
          = .next (State.formatDone (w.waiters.foldl (fun u x => catalogueWaiter x u) after)) := by
        rw [exec_catalogueGood ha hop hu, hfreed, catalogueEnds_good (s := freed) hw]
        rfl
      refine ⟨hexec, fun hst os hos => ?_, fun hst x n hos => ?_⟩
      · rw [hexec, hos, List.foldl_map]
        exact congrArg _ (formatDone_started ((answers_startup os after).trans hst))
      · rw [hexec, hos]
        refine congrArg _ ((formatDone_started (s := after.expiringWritten x n) hst).trans ?_)
        simp only [State.expiringWritten, Bool.and_eq_true, beq_iff_eq] <;> rfl
    case journal =>
      intro ring hu w hw hg hno done
      have hnone : (s.client.tags.filter fun x => x.wait = .journalWrite ring) = [] := by simpa using hno
      have hexec : exec (.journalWriteCompletion tag 0 field) s = .next (w.waiters.foldl (fun u x => journalWaiter x u) done) := by
        rw [exec_journalGood ha hop hu, hfreed, journalEnds_good (s := freed) hw hh]
        simp only [hg]
        rw [show freed.client.tags.filter (fun x => x.wait = .journalWrite ring) = [] from hnone]
        rfl
      refine ⟨fun hws => by rw [hexec, hws]; rfl, fun t x hws ht hx => ?_⟩
      rw [hexec, hws]
      exact congrArg _ (syncWritten_of_last (s := done) ht hx)
    case readers =>
      intro ring hu w hw done readers told
      have hexec : exec (.journalWriteCompletion tag 0 field) s = .next (match w.gathered with
          | none => told
          | some (content, ws) => if told.isHalted then told else told.handGathered ring content ws) := by
        rw [exec_journalGood ha hop hu, hfreed, journalEnds_good (s := freed) hw hh]
      refine ⟨fun hg => by rw [hexec, hg], ?_⟩
      intro content ws hg htold now
      have hhand : exec (.journalWriteCompletion tag 0 field) s = .next (told.callJournal ring now ws) := by
        rw [hexec, hg]
        simp only [isHalted_eq_false htold, Bool.false_eq_true, if_false, State.handGathered, beq_iff_eq] <;> rfl
      exact ⟨fun hfree => hhand.trans (congrArg _ (callJournal_of_free htold hfree)),
        fun hout => hhand.trans (congrArg _ (callJournal_of_out htold hout))⟩
  case waiters =>
    intro t x u ht idle
    have hidle : u.setWait t.toNat .idle = idle := by simp only [State.setWait, State.modTag, beq_iff_eq, idle]
    refine ⟨fun hr => ?_, fun h => syncWritten_of_last ht h, fun h => syncWritten_of_more ht h⟩
    rw [wakeRead, hidle]
    exact congrArg _ (if_neg (by rw [show idle.resetHeld = false from hr]; decide))
  case openings =>
    intro day n u catalogue settings entry
    refine ⟨fun o => ⟨rfl, rfl⟩, rfl, rfl, fun hv => ?_, fun v hv => ⟨fun hc => ?_, ?_⟩⟩
    · constructor <;> simp only [catalogue, settings, catalogueWaiter, settingsWaiter, State.openWritten, hv]
    · constructor
      · simp only [catalogue, catalogueWaiter, State.openWritten, hv, hc, if_true]
      · simp only [settings, settingsWaiter, State.openWritten, hv, hc, Bool.false_eq_true, if_false]
        rfl
    · intro c hc put sealed opened
      have hcat := openWritten_of_ctx (catalogue := true) hv hc
      have hset := openWritten_of_ctx (catalogue := false) hv hc
      refine ⟨fun h => hcat.trans (if_neg ?_), fun h => hcat.trans (if_pos ?_), fun h => hset.trans (if_neg ?_),
        fun h => hset.trans (if_pos ?_)⟩ <;> simp [Ctx.opened, h]
  case placements =>
    intro serial index p z u hh hp hz h placed
    refine ⟨fun hfit => ?fits, fun n rest hfull hfifo hzones => ⟨fun hbusy => ?next, fun hlive hlist hwait => ?freed⟩,
      fun hfull hfifo hlive hlist => ?reset, fun hfull hfifo hbusy hnot => ?waits⟩
    case fits =>
      rw [State.placeOrWait, placeOnce_of_fit hh hp hz hfit]
      exact passIfJoined_of_subset fun _ hn => hn
    case next =>
      have hfilling := find?_insertBy_pos (key := Zone.zone) (x := { zone := n, filling := true }) (q := (·.filling))
        (l := u.alloc.zones.map fun x => if x.zone = z.zone then { x with filling := false } else x) rfl (by
          intro y hy
          obtain ⟨x, hx, rfl⟩ := List.mem_map.mp hy
          split
          · rfl
          next hne => exact Bool.eq_false_iff.mpr fun hf => hne ((hzones x hx).2 hf))
      rw [State.placeOrWait, placeOnce_of_room hh hp (makeRoom_of_fifo hz hfull hfifo hbusy) hfilling]
      exact passIfJoined_of_subset fun m hm => hfifo ▸ List.mem_cons_of_mem n hm
    case freed =>
      have hfilling := find?_insertBy_pos (key := Zone.zone) (x := { zone := n, filling := true }) (q := (·.filling))
        (l := u.alloc.zones.filter (·.zone ≠ z.zone)) rfl (by
          intro y hy
          obtain ⟨hmem, hne⟩ := List.mem_filter.mp hy
          exact Bool.eq_false_iff.mpr fun hf => absurd ((hzones y hmem).2 hf) (by simpa using hne))
      rw [State.placeOrWait, placeOnce_of_room hh hp (makeRoom_of_fifo_idle hz hfull hfifo hlive hlist) hfilling]
      exact passIfJoined_of_nil hwait
    case reset =>
      have hfilling : (u.alloc.zones.map fun x => if x.zone = z.zone then { x with fill := 0 } else x).find? (·.filling)
          = some { z with fill := 0 } := by
        rw [List.find?_map, show ((fun x : Zone => x.filling) ∘ fun x => if x.zone = z.zone then { x with fill := 0 } else x)
          = fun x => x.filling from funext fun x => by simp only [Function.comp_apply]; split <;> rfl]
        rw [show u.alloc.zones.find? (fun x => x.filling) = some z from hz, Option.map_some, if_pos rfl]
      rw [State.placeOrWait, placeOnce_of_room hh hp (makeRoom_of_idle hz hfull hfifo hlive hlist) hfilling]
      exact passIfJoined_of_subset fun _ hn => hn
    case waits =>
      rw [State.placeOrWait, placeOnce_of_no_room hh hp (makeRoom_of_none hz hfull hfifo hbusy), joinWaiting_of_not_mem hnot]
      exact passIfJoined_of_subset fun _ hn => hn
  case formats =>
    refine fun s => ⟨formatDone_started, ?_⟩
    intro u hu last
    have hlast : (u.phase == .format && s.set.write.isNone && s.set.gathered.isNone && s.set.catWrites.isEmpty) = true ↔ last := by
      simp [last, and_assoc]
    have heq : s.formatDone = if last then s.startRead { u with phase := .catalogue, pos := 0, second := false } else s := by
      simp only [State.formatDone, hu, hlast]
    exact ⟨fun h => heq.trans (if_neg h), fun h => heq.trans ((if_pos h).trans rfl)⟩
  case settingsCalls =>
    intro w s block
    refine ⟨fun hw hh => ?_, fun h => ?_⟩
    · have hno : (s.set.write.isSome || s.isHalted) = false := by simp [hw, isHalted_eq_false hh]
      rw [State.callSettings, hno, if_neg Bool.false_ne_true]
      rfl
    · have hyes : (s.set.write.isSome || s.isHalted) = true := by
        rw [Bool.or_eq_true]; exact h.imp_left Option.isSome_iff_ne_none.mpr
      exact if_pos hyes
  case catalogueCalls =>
    intro w ws s hw block record
    have hrecord := slice_catBlock w s
    refine ⟨fun hfree => ?_, fun hout => ?_, fun h => ?_, fun h hv => ?_, ?_⟩
    · have hany : s.set.catWrites.any (·.block == block) = false := by simpa using hfree
      rw [State.callCatalogue, show catBlockOf w = block from rfl, hany, if_neg Bool.false_ne_true]
      rfl
    · have hany : s.set.catWrites.any (·.block == block) = true := by simpa using hout
      simp only [State.callCatalogue, show catBlockOf w = block from rfl, hany, if_true, beq_iff_eq]
    · exact hrecord.trans (if_pos (by simpa using h))
    · exact hrecord.trans ((if_neg (by simpa using h)).trans (by rw [catImage_of_none hv]))
    · intro h v hv freed closed
      have himage : record = catRecordBytes (s.catImage w) := hrecord.trans (if_neg (by simpa using h))
      obtain ⟨hfree, hclose, helse⟩ := catImage_of_vol hv
      rw [himage]
      exact ⟨fun hf => congrArg _ (hfree hf), fun hf hc => congrArg _ (hclose hf hc),
        fun hf hc hs => congrArg _ ((helse hf hc).trans (if_pos hs)), fun hf hc hs => congrArg _ ((helse hf hc).trans (if_neg hs))⟩

end Sys2Proof.Machine
end

section
/-! Failures of the fixed-place writes and the double fault (5.9, 11.2): O50. -/

namespace Sys2Proof.Machine

variable {s : State} {cls : FaultClass} {kind : WriteKind} {block ring : Nat}

/-! ### The answers of a halt (R37) -/

theorem haltAnswers_iff {e : TagEntry} : s.haltAnswers e = true ↔ e.phase ≠ .serving ∨ ∃ n v, e.serial = some n ∧ s.volOf n = some v
    ∧ (v.state = .opened ∨ v.state = .suspended ∨ v.state = .closing) := by
  unfold State.haltAnswers
  cases hp : e.phase with
  | serving =>
    cases hn : e.serial with
    | none => simp
    | some n => simp [Option.any_eq_true, or_assoc]
  | _ => simp

theorem haltAnswers_complete (e x : TagEntry) (st : Status) (r : Option Reason) (n : Nat) :
    (s.complete x.tag st r n).haltAnswers e = s.haltAnswers e := by
  unfold State.haltAnswers State.volOf
  rw [congrArg State.vols (complete_only x.tag st r n s)]

/-- The entries of a list that the halt answers. -/
def State.haltEnds (es : List TagEntry) (s : State) : List TagEntry := es.filter fun e => s.haltAnswers e

theorem each_haltEntry (es : List TagEntry) (s : State) : each haltEntry es s = { s.dropTags (s.haltEnds es) with
    sent := s.sent ++ (s.haltEnds es).map fun e => .completion e.tag .halted none 0 } := by
  rw [← eachComplete_eq (fun _ => .halted) (fun _ => none) (fun _ => 0)]
  induction es generalizing s with
  | nil => rfl
  | cons e es ih =>
    rw [each, ih, haltEntry]
    cases he : s.haltAnswers e with
    | false => simp [State.haltEnds, he]
    | true =>
      have hsame : State.haltEnds es (s.complete e.tag .halted none 0) = s.haltEnds es :=
        List.filter_congr fun x _ => haltAnswers_complete x e _ _ _
      simp only [State.finish, if_true, hsame]
      simp [State.haltEnds, he, each]

/-! ### The halt -/

/-- An entry that waits for a write which the halt holds back waits no longer. -/
def State.unwaited (s : State) (e : TagEntry) : TagEntry :=
  match e.wait with
  | .journalWrite ring => if s.heldBack ring then { e with wait := .idle } else e
  | _ => e

theorem unwaited_eq (s : State) (e : TagEntry) : ∃ w, s.unwaited e = { e with wait := w } := by
  unfold State.unwaited
  split
  · split
    · exact ⟨_, rfl⟩
    · exact ⟨e.wait, rfl⟩
  · exact ⟨e.wait, rfl⟩

theorem unwaited_wait {e : TagEntry} (h : (s.unwaited e).wait = .journalWrite ring) : e.wait = .journalWrite ring := by
  unfold State.unwaited at h
  split at h
  · split at h
    · cases h
    · exact h
  · exact h

/-- The halted part before it answers its requests. -/
def State.haltBegun (cls : FaultClass) (s : State) : State :=
  { s with
    halted := some cls
    haltedEarly := s.startup.any fun (u : Startup) => u.phase.early
    startup := none
    set := { s.set with image := s.set.work, imageMarker := s.set.workMarker }
    ret := { s.ret with sweep := none, sweepNext := none }
    jr := { s.jr with waitList := s.jr.waitList.filter fun a => !stopsAtHalt s.jr.waitList a }
    client := { s.client with tags := s.client.tags.map (State.unwaited { s with halted := some cls }) } }

/-- The entries that the halt answers. -/
def State.haltedTags (cls : FaultClass) (s : State) : List TagEntry := (s.haltBegun cls).haltEnds (s.haltBegun cls).client.tags

theorem enterHalted_eq (cls : FaultClass) (s : State) : s.enterHalted cls = State.muteDirectives
    { (s.haltBegun cls).dropTags (s.haltedTags cls) with
      sent := s.sent ++ (s.haltedTags cls).map fun e => .completion e.tag .halted none 0 } :=
  congrArg State.muteDirectives (each_haltEntry (s.haltBegun cls).client.tags (s.haltBegun cls))

/-! ### The journal of a HALTED part (R146, R148) -/

/-- In a HALTED part an entry that can be appended changes the journal's buffer and no write; then its appender is released. -/
theorem appendNow_of_halted {a : Append} (h : s.halted = some cls) (hcan : s.canAppend a = true) :
    ∃ j : JournalUnit, s.appendNow a = State.release a.who { s with jr := j } ∧ j.writes = s.jr.writes ∧ j.waitList = s.jr.waitList := by
  have hhalt : s.isHalted = true := by rw [State.isHalted, h]; rfl
  have hcall (ring : Nat) (b : Block) (ws : List JournalWaiter) (j : JournalUnit) :
      State.callJournal ring b ws { s with jr := j } = { s with jr := j } := callJournal_of_halted (s := { s with jr := j }) hhalt
  have hpass : ∃ j : JournalUnit, (if s.fits a then s else s.passBlock) = { s with jr := j } ∧ j.writes = s.jr.writes
      ∧ j.waitList = s.jr.waitList := by
    split
    next => exact ⟨s.jr, rfl, rfl, rfl⟩
    next hno =>
      have hfull := ((canAppend_iff.mp hcan).2 hhalt).resolve_right hno
      exact ⟨_, passBlock_of_complete hfull, rfl, rfl⟩
  obtain ⟨j, hj, hwrites, hlist⟩ := hpass
  simp only [State.appendNow, hj, State.placeEntry, hcall, ite_self]
  exact ⟨_, rfl, hwrites, hlist⟩

theorem append_of_halted {a : Append} (h : s.halted = some cls) (ha : a.who = .nobody) :
    ∃ j : JournalUnit, s.append a = { s with jr := j } ∧ j.writes = s.jr.writes
      ∧ (j.waitList = s.jr.waitList ∨ j.waitList = s.jr.waitList ++ [a]) := by
  unfold State.append
  split
  next hcan =>
    obtain ⟨j, hj, hwrites, hlist⟩ := appendNow_of_halted h (Bool.and_eq_true _ _ ▸ hcan).2
    exact ⟨j, by rw [hj, ha]; rfl, hwrites, .inl hlist⟩
  next => exact ⟨_, rfl, rfl, .inr rfl⟩

/-! ### What the end of requests leaves of the journal and of the queue -/

/-- A journal write without its waiters. -/
def JournalWrite.key (w : JournalWrite) : Nat × Bool × Block × Option Block := (w.ring, w.failed, w.content, w.gathered.map (·.1))

theorem key_without (t : Nat) (w : JournalWrite) : (w.without t).key = w.key := by
  simp only [JournalWrite.key, JournalWrite.without, Option.map_map]
  rfl

theorem dropTag_jr (t : Nat) (s : State) : ((s.dropTag t).jr.writes.map (·.key)) = s.jr.writes.map (·.key)
    ∧ (s.dropTag t).jr = { s.jr with writes := (s.dropTag t).jr.writes } := by
  refine ⟨?_, rfl⟩
  show (s.jr.writes.map (JournalWrite.without t)).map (·.key) = _
  rw [List.map_map]
  exact List.map_congr_left fun w _ => key_without t w

theorem dropTag_queue {t : Nat} {r : StoreReq} (h : r ∈ (s.dropTag t).port.queue) : r ∈ s.port.queue := (List.mem_filter.mp h).1

theorem dropTags_jr (es : List TagEntry) (s : State) : ((s.dropTags es).jr.writes.map (·.key)) = s.jr.writes.map (·.key)
    ∧ (s.dropTags es).jr = { s.jr with writes := (s.dropTags es).jr.writes } := by
  induction es generalizing s with
  | nil => exact ⟨rfl, rfl⟩
  | cons e es ih =>
    obtain ⟨hkeys, hjr⟩ := ih (s.dropTag e.tag)
    have hstep : s.dropTags (e :: es) = (s.dropTag e.tag).dropTags es := rfl
    rw [hstep]
    exact ⟨hkeys.trans (dropTag_jr e.tag s).1, hjr⟩

theorem dropTags_queue {es : List TagEntry} {r : StoreReq} (h : r ∈ (s.dropTags es).port.queue) : r ∈ s.port.queue := by
  induction es generalizing s with
  | nil => exact h
  | cons e es ih => exact dropTag_queue (ih h)

theorem dropTags_fields (es : List TagEntry) (s : State) : (s.dropTags es).set = s.set ∧ (s.dropTags es).ret = s.ret
    ∧ (s.dropTags es).startup = s.startup := by
  have h := dropTags_eq es s
  exact ⟨(congrArg State.set h).trans rfl, (congrArg State.ret h).trans rfl, (congrArg State.startup h).trans rfl⟩

/-! ### The halt's fields -/

theorem enterHalted_jr (cls : FaultClass) (s : State) : (s.enterHalted cls).jr.writes.map (·.key) = s.jr.writes.map (·.key)
    ∧ (s.enterHalted cls).jr = { s.jr with
      waitList := s.jr.waitList.filter fun a => !stopsAtHalt s.jr.waitList a
      writes := (s.enterHalted cls).jr.writes } := by
  rw [enterHalted_eq]
  exact dropTags_jr (s.haltedTags cls) (s.haltBegun cls)

theorem enterHalted_fields (cls : FaultClass) (s : State) : (s.enterHalted cls).halted = some cls ∧ (s.enterHalted cls).startup = none
    ∧ (s.enterHalted cls).alloc = s.alloc ∧ (s.enterHalted cls).ret = { s.ret with sweep := none, sweepNext := none }
    ∧ (s.enterHalted cls).set.image = s.set.work ∧ (s.enterHalted cls).set.imageMarker = s.set.workMarker := by
  obtain ⟨hset, hret, hstart⟩ := dropTags_fields (s.haltedTags cls) (s.haltBegun cls)
  rw [enterHalted_eq]
  exact ⟨dropTags_halted _ _, hstart, dropTags_alloc _ _, hret, congrArg (·.image) hset, congrArg (·.imageMarker) hset⟩

theorem enterHalted_tags (cls : FaultClass) (s : State) :
    (s.enterHalted cls).client.tags = endedTags (s.haltedTags cls) (s.haltBegun cls).client.tags := by
  rw [enterHalted_eq]
  exact dropTags_tags _ _

theorem mem_haltedTags {e : TagEntry} : e ∈ s.haltedTags cls ↔ e ∈ (s.haltBegun cls).client.tags ∧ s.haltAnswers e = true := List.mem_filter

/-- An entry that stays after a halt is a read that the halt does not answer. -/
theorem not_haltAnswers_of_mem {x : TagEntry} (h : x ∈ (s.enterHalted cls).client.tags) :
    x ∈ (s.haltBegun cls).client.tags ∧ s.haltAnswers x = false := by
  rw [enterHalted_tags] at h
  obtain ⟨hx, hkept⟩ := List.mem_filter.mp h
  refine ⟨hx, ?_⟩
  by_contra hno
  exact (of_decide_eq_true hkept) ⟨x, mem_haltedTags.mpr ⟨hx, by simpa using hno⟩, rfl⟩

theorem haltAnswers_unwaited (e : TagEntry) (y : State) : s.haltAnswers (y.unwaited e) = s.haltAnswers e := by
  obtain ⟨w, hw⟩ := unwaited_eq y e
  rw [hw]
  rfl

/-- The entry that a double fault appends. -/
def doubleEntry (cls : FaultClass) (kind : WriteKind) (block : Nat) (vol : Option (Nat × Nat)) (seg : Option (Nat × Nat × Nat)) : Append :=
  { code := 0x000C, body := faultBody { kind := .double, cls, vol, seg, write := some (kind, block) } }

theorem doubleFault_eq {vol : Option (Nat × Nat)} {seg : Option (Nat × Nat × Nat)} (h : s.halted = none) :
    s.doubleFault cls kind block vol seg = (s.enterHalted cls).append (doubleEntry cls kind block vol seg) := by
  simp only [State.doubleFault, isHalted_eq_false h, Bool.false_eq_true, if_false, doubleEntry]

/-- What a double fault leaves: the halted part, with the FAULT entry in the buffer or on the wait list. -/
theorem doubleFault_fields {vol : Option (Nat × Nat)} {seg : Option (Nat × Nat × Nat)} (h : s.halted = none) :
    ∃ j : JournalUnit, s.doubleFault cls kind block vol seg = { s.enterHalted cls with jr := j }
      ∧ j.writes = (s.enterHalted cls).jr.writes
      ∧ ∀ a ∈ j.waitList, a ∈ (s.enterHalted cls).jr.waitList ∨ a.who = .nobody := by
  obtain ⟨j, hj, hwrites, hlist⟩ := append_of_halted (a := doubleEntry cls kind block vol seg) (enterHalted_fields cls s).1 rfl
  refine ⟨j, (doubleFault_eq h).trans hj, hwrites, fun a ha => ?_⟩
  rcases hlist with hl | hl <;> rw [hl] at ha
  · exact .inl ha
  · exact (List.mem_append.mp ha).imp_right fun hm => by rw [List.mem_singleton.mp hm]; rfl

/-- Settles the second half of O50: what a double fault does. -/
theorem doubleFault_spec (cls : FaultClass) (kind : WriteKind) (block : Nat) (h : s.halted = none) :
    let t := s.doubleFault cls kind block none none
    t.halted = some cls ∧ t.startup = none ∧ (∀ x ∈ t.client.tags, x.phase = .serving)
      ∧ (∀ e ∈ s.client.tags, s.haltAnswers e = true → .completion e.tag .halted none 0 ∈ t.sent ∧ t.tag e.tag = none)
      ∧ ((s.client.tags.map (·.tag)).Nodup → ∀ e ∈ s.client.tags, s.haltAnswers e = false → ∃ w, t.tag e.tag = some { e with wait := w })
      ∧ (∀ r ∈ t.port.queue, r ∈ s.port.queue)
      ∧ t.jr = (State.append (doubleEntry cls kind block none none) { s with
          halted := some cls
          jr := { s.jr with waitList := s.jr.waitList.filter (fun a => !stopsAtHalt s.jr.waitList a), writes := t.jr.writes } }).jr
      ∧ (∀ a ∈ t.jr.waitList, (∀ w n, a.who ≠ .close w n) ∧ a.who ≠ .sweep ∧ a.who ≠ .verification ∧ a.who ≠ .purge) := by
  intro t
  obtain ⟨hhalted, hstart, halloc, hret, -, -⟩ := enterHalted_fields cls s
  obtain ⟨j, hj, hwrites, hlist⟩ := doubleFault_fields (cls := cls) (kind := kind) (block := block) (vol := none) (seg := none) h
  have htags : t.client.tags = (s.enterHalted cls).client.tags := congrArg (fun u => u.client.tags) hj
  have hbegun (e : TagEntry) (he : e ∈ s.client.tags) : State.unwaited { s with halted := some cls } e ∈ (s.haltBegun cls).client.tags :=
    List.mem_map_of_mem he
  have hsame (e : TagEntry) : ∃ w, State.unwaited { s with halted := some cls } e = { e with wait := w } := unwaited_eq _ e
  refine ⟨?_, ?_, fun x hx => ?_, fun e he hend => ⟨?_, ?_⟩, fun hnodup e he hend => ?_, fun r hr => ?_, ?_, fun a ha => ?_⟩
  · exact (congrArg State.halted hj).trans hhalted
  · exact (congrArg State.startup hj).trans hstart
  · have hno := (not_haltAnswers_of_mem (htags ▸ hx)).2
    by_contra hp
    rw [haltAnswers_iff.mpr (.inl hp)] at hno
    cases hno
  · obtain ⟨w, hw⟩ := hsame e
    have hmem : State.unwaited { s with halted := some cls } e ∈ s.haltedTags cls :=
      mem_haltedTags.mpr ⟨hbegun e he, (haltAnswers_unwaited e _).trans hend⟩
    have hsent : t.sent = s.sent ++ (s.haltedTags cls).map fun e => .completion e.tag .halted none 0 := by
      refine (congrArg State.sent hj).trans ?_
      show (s.enterHalted cls).sent = _
      rw [enterHalted_eq]
      rfl
    rw [hsent]
    refine List.mem_append_right _ (List.mem_map.mpr ⟨_, hmem, ?_⟩)
    rw [hw]
  · obtain ⟨w, hw⟩ := hsame e
    have hmem : State.unwaited { s with halted := some cls } e ∈ s.haltedTags cls :=
      mem_haltedTags.mpr ⟨hbegun e he, (haltAnswers_unwaited e _).trans hend⟩
    have hfind := find?_endedTags_of_mem (tags := (s.haltBegun cls).client.tags) hmem
    rw [hw] at hfind
    exact (congrArg (List.find? (·.tag == e.tag)) (htags.trans (enterHalted_tags cls s))).trans hfind
  · obtain ⟨w, hw⟩ := hsame e
    have hnot : State.unwaited { s with halted := some cls } e ∉ s.haltedTags cls := fun hmem => by
      have hyes := (haltAnswers_unwaited (s := s) e { s with halted := some cls }).symm.trans (mem_haltedTags.mp hmem).2
      rw [hend] at hyes
      cases hyes
    have hkeys : ((s.haltBegun cls).client.tags.map (·.tag)).Nodup := by
      have heq : (s.haltBegun cls).client.tags.map (·.tag) = s.client.tags.map (·.tag) := by
        show (s.client.tags.map _).map _ = _
        rw [List.map_map]
        refine List.map_congr_left fun x _ => ?_
        obtain ⟨w, hw⟩ := hsame x
        show (State.unwaited _ x).tag = _
        rw [hw]
      exact heq ▸ hnodup
    have hfind := find?_endedTags_of_not_mem (fun x hx => (mem_haltedTags.mp hx).1) hkeys (hbegun e he) hnot
    rw [hw] at hfind
    have hlook : t.tag e.tag = (endedTags (s.haltedTags cls) (s.haltBegun cls).client.tags).find? (·.tag == e.tag) :=
      congrArg (List.find? fun x : TagEntry => x.tag == e.tag) (htags.trans (enterHalted_tags cls s))
    exact ⟨w, hlook.trans hfind⟩
  · have hqueue : t.port.queue = (s.enterHalted cls).port.queue := congrArg (fun u => u.port.queue) hj
    rw [hqueue, enterHalted_eq] at hr
    exact dropTags_queue (s := s.haltBegun cls) hr
  · have hother : (s.enterHalted cls).SameJournal { s with
        halted := some cls
        jr := { s.jr with
          waitList := s.jr.waitList.filter (fun a => !stopsAtHalt s.jr.waitList a), writes := t.jr.writes } } := by
      have hw : t.jr.writes = (s.enterHalted cls).jr.writes := (congrArg (fun u => u.jr.writes) hj).trans hwrites
      rw [hw]
      exact ⟨(enterHalted_jr cls s).2.symm, hhalted.symm, (congrArg (·.j) halloc).symm, (congrArg (·.day) hret).symm⟩
    exact (congrArg State.jr (doubleFault_eq h)).trans (sameJournal_append hother rfl).jr.symm
  · rcases hlist a ((congrArg (fun u => u.jr.waitList) hj) ▸ ha) with hold | hnew
    · rw [(enterHalted_jr cls s).2] at hold
      have hno := (List.mem_filter.mp hold).2
      refine ⟨fun w n hw => ?_, fun hw => ?_, fun hw => ?_, fun hw => ?_⟩ <;> simp [stopsAtHalt, hw] at hno
    · simp [hnew]

/-! ### The reads that wait for a write which has failed for good (R101, R148) -/

/-- What a failed write's readers leave as it is in a HALTED part when they are served from the journal unit. -/
structure State.Calm (ring : Nat) (s t : State) : Prop where
  halted : t.halted = s.halted
  startup : t.startup = s.startup
  set : t.set = s.set
  sweep : t.ret.sweep = s.ret.sweep
  writes : t.jr.writes.map (·.key) = s.jr.writes.map (·.key)
  list : ∀ a ∈ t.jr.waitList, a ∈ s.jr.waitList
  waits : ∀ x ∈ t.client.tags, x.wait = .journalWrite ring → x ∈ s.client.tags

/-- The part is HALTED, no sweep waits, and every write of the ring block has failed. -/
structure State.Lost (ring : Nat) (s : State) : Prop where
  halted : s.isHalted = true
  list : ∀ a ∈ s.jr.waitList, a.who ≠ .sweep
  failed : ∀ w ∈ s.jr.writes, w.ring = ring → w.failed = true

theorem State.Calm.refl (ring : Nat) (s : State) : s.Calm ring s := ⟨rfl, rfl, rfl, rfl, rfl, fun _ h => h, fun _ h _ => h⟩

theorem State.Calm.trans {s t u : State} (h : s.Calm ring t) (k : t.Calm ring u) : s.Calm ring u :=
  ⟨k.halted.trans h.halted, k.startup.trans h.startup, k.set.trans h.set, k.sweep.trans h.sweep, k.writes.trans h.writes, fun a ha => h.list a (k.list a ha),
    fun x hx hw => h.waits x (k.waits x hx hw) hw⟩

theorem State.Calm.lost {s t : State} (h : s.Calm ring t) (hl : s.Lost ring) : t.Lost ring := by
  refine ⟨(congrArg Option.isSome h.halted).trans hl.halted, fun a ha => hl.list a (h.list a ha), fun w hw hr => ?_⟩
  have hkey : w.key ∈ s.jr.writes.map (·.key) := h.writes ▸ List.mem_map_of_mem hw
  obtain ⟨x, hx, hxw⟩ := List.mem_map.mp hkey
  have hring : x.ring = w.ring := congrArg Prod.fst hxw
  have hfail : x.failed = w.failed := congrArg (fun k => k.2.1) hxw
  exact hfail ▸ hl.failed x hx (hring.trans hr)

theorem State.Calm.after {s t u : State} (k : t.Calm ring u) (h : s.Calm ring t) : s.Calm ring u := h.trans k

/-- A change of the messages, the queue, the cache and the tables of reads that brings no new wait. -/
theorem State.Calm.of_same {s t : State} (hh : t.halted = s.halted) (hst : t.startup = s.startup) (hset : t.set = s.set)
    (hret : t.ret = s.ret) (hjr : t.jr = s.jr)
    (htags : ∀ x ∈ t.client.tags, x.wait = .journalWrite ring → x ∈ s.client.tags) : s.Calm ring t :=
  ⟨hh, hst, hset, hret ▸ rfl, hjr ▸ rfl, fun _ ha => hjr ▸ ha, htags⟩

theorem calm_modTag {f : TagEntry → TagEntry} (hf : ∀ e, (f e).wait ≠ .journalWrite ring) (t : Nat) (s : State) :
    s.Calm ring (s.modTag t f) := by
  refine .of_same rfl rfl rfl rfl rfl fun x hx hw => ?_
  obtain ⟨y, hy, rfl⟩ := List.mem_map.mp hx
  split at hw
  next h => exact absurd hw (hf y)
  next h => simpa only [h, Bool.false_eq_true, if_false] using hy

theorem calm_complete (t : Nat) (st : Status) (r : Option Reason) (n : Nat) (s : State) : s.Calm ring (s.complete t st r n) :=
  ⟨rfl, rfl, rfl, rfl, (dropTag_jr t s).1, fun _ h => h, fun _ h _ => (List.mem_filter.mp h).1⟩

theorem calm_setWait {w : ReadWait} (h : w ≠ .journalWrite ring) (t : Nat) (s : State) : s.Calm ring (s.setWait t w) :=
  calm_modTag (f := fun e => { e with wait := w }) (fun _ => h) t s

theorem calm_deliver (e : TagEntry) (b : Block) (s : State) : s.Calm ring (s.deliver e b) := by
  have hmod : s.Calm ring ((s.send (.clientData e.tag e.done b)).modTag e.tag fun e => { e with done := e.done + 1, wait := .idle }) :=
    .after (calm_modTag (f := fun e => { e with done := e.done + 1, wait := .idle }) (fun _ h => ReadWait.noConfusion h) _ _) (.of_same rfl rfl rfl rfl rfl fun _ h _ => h)
  unfold State.deliver
  split
  · exact hmod.trans (calm_complete _ _ _ _ _)
  · exact hmod

theorem calm_beginFetch {ahead : Bool} {w serial index : Nat} {m : MapEntry} {waiters : List Nat} {s t : State}
    (h : s.beginFetch ahead w serial index m waiters = some t) : s.Calm ring t := by
  obtain ⟨cache, -, rfl⟩ := Option.map_eq_some_iff.mp h
  exact .of_same rfl rfl rfl rfl rfl fun _ h _ => h

theorem calm_readAhead (v : Volume) (k b : Nat) (s : State) : s.Calm ring (s.readAhead v k b) := by
  unfold State.readAhead
  split
  next =>
    split
    · cases hf : s.beginFetch true v.window v.serial (k + 1) _ [] with
      | none => exact .refl _ _
      | some t => exact calm_beginFetch hf
    · exact .refl _ _
  next => exact .refl _ _

theorem calm_demand (e : TagEntry) (v : Volume) (k : Nat) (m : MapEntry) (s : State) : s.Calm ring (s.demand e v k m) := by
  unfold State.demand
  split
  · exact calm_complete _ _ _ _ _
  · split
    next t ht => exact (calm_beginFetch ht).trans (calm_setWait (fun h => ReadWait.noConfusion h) _ _)
    next => exact .after (calm_setWait (fun h => ReadWait.noConfusion h) _ _) (.of_same rfl rfl rfl rfl rfl fun _ h _ => h)

theorem calm_serveMapped (e : TagEntry) (v : Volume) (b k : Nat) (m : MapEntry) (s : State) : s.Calm ring (s.serveMapped e v b k m) := by
  unfold State.serveMapped
  split
  next c _ =>
    split
    next blocks _ =>
      have hdel : s.Calm ring ((s.touch c).deliver e (blocks.getD (b - m.first) zeroBlock)) :=
        .after (calm_deliver _ _ _) (.of_same rfl rfl rfl rfl rfl fun _ h _ => h)
      split
      · exact hdel.trans (calm_readAhead _ _ _ _)
      · exact hdel
    next ahead first ws _ =>
      have hwait : s.Calm ring ((s.setFetch v.serial k (.fetching false first (ws ++ [e.tag]))).setWait e.tag (.fetch v.serial k)) :=
        .after (calm_setWait (fun h => ReadWait.noConfusion h) _ _) (.of_same rfl rfl rfl rfl rfl fun _ h _ => h)
      split
      · exact calm_complete _ _ _ _ _
      · split
        · exact State.Calm.trans hwait (.of_same rfl rfl rfl rfl rfl fun _ h _ => h)
        · exact hwait
    next => exact .after (calm_demand _ _ _ _ _) (.of_same rfl rfl rfl rfl rfl fun _ h _ => h)
  next =>
    split
    · exact calm_complete _ _ _ _ _
    · exact calm_demand _ _ _ _ _

theorem calm_serveOpen (e : TagEntry) (v : Volume) (c : Ctx) (b : Nat) (s : State) : s.Calm ring (s.serveOpen e v c b) := by
  unfold State.serveOpen
  split
  · split
    · exact calm_serveMapped _ _ _ _ _ _
    · exact calm_deliver _ _ _
  · split
    · split
      · exact calm_complete _ _ _ _ _
      · exact calm_deliver _ _ _
    · split <;> exact calm_deliver _ _ _

theorem calm_serveClosed (e : TagEntry) (v : Volume) (b : Nat) (s : State) : s.Calm ring (s.serveClosed e v b) := by
  unfold State.serveClosed
  split
  · split
    · exact calm_serveMapped _ _ _ _ _ _
    · exact calm_complete _ _ _ _ _
  · exact calm_deliver _ _ _

theorem calm_release {who : Appender} (h : who ≠ .sweep) (s : State) : s.Calm ring (s.release who) := by
  rw [release_eq]
  cases who with
  | sweep => exact absurd rfl h
  | _ => exact .of_same rfl rfl rfl rfl rfl fun _ h _ => h

theorem release_jr (who : Appender) (s : State) : (s.release who).jr = s.jr := by
  rw [release_eq]
  cases who <;> rfl

/-- In a HALTED part the wait list is worked without a write. -/
theorem calm_drainList (l : List Append) {s : State} (hh : s.isHalted = true) (hs : s.jr.waitList = l) (hl : ∀ a ∈ l, a.who ≠ .sweep) :
    s.Calm ring (State.drainList l s) := by
  induction l generalizing s with
  | nil => exact .refl _ _
  | cons a rest ih =>
    rw [State.drainList]
    split
    next hcan =>
      obtain ⟨c, hc⟩ := Option.isSome_iff_exists.mp hh
      obtain ⟨j, hj, hwrites, hlist⟩ := appendNow_of_halted (s := { s with jr := { s.jr with waitList := rest } }) hc hcan
      replace hlist : j.waitList = rest := hlist
      have hplaced : s.Calm ring { s with jr := j } := ⟨rfl, rfl, rfl, rfl, congrArg _ hwrites,
        fun x hx => hs ▸ List.mem_cons_of_mem a (hlist ▸ hx), fun _ h _ => h⟩
      have hstep : s.Calm ring (State.appendNow a { s with jr := { s.jr with waitList := rest } }) :=
        hj ▸ hplaced.trans (calm_release (hl a List.mem_cons_self) _)
      refine hstep.trans (ih ?_ ?_ fun x hx => hl x (List.mem_cons_of_mem a hx))
      · exact (congrArg Option.isSome hstep.halted).trans hh
      · rw [hj, release_jr]
        exact hlist
    next => exact ⟨rfl, rfl, rfl, rfl, rfl, fun x hx => hs ▸ hx, fun _ h _ => h⟩

theorem calm_deliverRing (hl : s.Lost ring) (e : TagEntry) (r : Nat) (b : Block) : s.Calm ring (s.deliverRing e r b) := by
  have hdel := calm_deliver (ring := ring) e b s
  refine hdel.trans ?_
  rw [State.deliverRing, advancePointer_eq]
  split
  · have hlost := hdel.lost hl
    exact .after (calm_drainList (s := { s.deliver e b with jr := { (s.deliver e b).jr with readPtr := (s.deliver e b).jr.readPtr + 1 } }) _
      hlost.halted rfl hlost.list) ⟨rfl, rfl, rfl, rfl, rfl, fun _ h => h, fun _ h _ => h⟩
  · exact .refl _ _

/-- A read of a ring block whose write has failed waits for another ring block's write at most. -/
theorem calm_serveJournal (hl : s.Lost ring) (e : TagEntry) (r : Nat) : s.Calm ring (s.serveJournal e r) := by
  unfold State.serveJournal
  split
  · exact calm_deliver _ _ _
  · split
    · exact calm_deliverRing hl _ _ _
    · split
      next w hw =>
        split
        · exact calm_deliverRing hl _ _ _
        · next hno =>
          split
          · exact calm_complete _ _ _ _ _
          · refine calm_setWait (fun heq => hno ?_) _ _
            have hr : w.ring = r := by simpa using List.find?_some hw
            rw [hl.failed w (List.mem_of_find?_eq_some hw) (hr.trans (ReadWait.journalWrite.inj heq)), Bool.true_or]
      next =>
        split
        · exact calm_complete _ _ _ _ _
        · exact .after (calm_setWait (fun h => ReadWait.noConfusion h) _ _) (.of_same rfl rfl rfl rfl rfl fun _ h _ => h)

theorem calm_serve (hl : s.Lost ring) (e : TagEntry) : s.Calm ring (s.serve e) := by
  unfold State.serve
  split
  · split
    · exact calm_serveJournal hl _ _
    · exact calm_deliver _ _ _
  · split
    · exact calm_deliver _ _ _
    · split
      · split
        · exact calm_serveClosed _ _ _ _
        · exact calm_serveOpen _ _ _ _ _
      · exact calm_serveClosed _ _ _ _

/-- A reader that is woken waits for the ring block no longer, and no other comes to wait for it. -/
theorem calm_wakeRead (hl : s.Lost ring) (t : Nat) : s.Calm ring (wakeRead t s)
    ∧ ∀ x ∈ (wakeRead t s).client.tags, x.wait = .journalWrite ring → x.tag ≠ t := by
  have hset : s.Calm ring (s.setWait t .idle) := calm_setWait (fun h => ReadWait.noConfusion h) t s
  have hserve : (s.setWait t .idle).Calm ring (wakeRead t s) := by
    unfold wakeRead State.serveTag
    split
    · exact .refl _ _
    · split
      · exact calm_serve (hset.lost hl) _
      · exact .refl _ _
  refine ⟨hset.trans hserve, fun x hx hw ht => ?_⟩
  obtain ⟨y, -, rfl⟩ := List.mem_map.mp (hserve.waits x hx hw)
  split at hw
  · cases hw
  next hne =>
    rw [if_neg hne] at ht
    exact hne (beq_iff_eq.mpr ht)

/-- All the readers are woken. -/
theorem calm_wakeReads (ts : List Nat) {s : State} (hl : s.Lost ring) : s.Calm ring (each wakeRead ts s)
    ∧ ∀ x ∈ (each wakeRead ts s).client.tags, x.wait = .journalWrite ring → x.tag ∉ ts := by
  induction ts generalizing s with
  | nil => exact ⟨.refl _ _, fun _ _ _ => List.not_mem_nil⟩
  | cons t ts ih =>
    obtain ⟨hcalm, hnone⟩ := calm_wakeRead hl t
    obtain ⟨hrest, hout⟩ := ih (hcalm.lost hl)
    refine ⟨hcalm.trans hrest, fun x hx hw hmem => ?_⟩
    rcases List.mem_cons.mp hmem with rfl | hm
    · exact hnone x (hrest.waits x hx hw) hw rfl
    · exact hout x hx hw hm

/-- A journal block's write fails for good in a HALTED part: its content stays, and no read waits for it. -/
theorem journalLost_spec {s : State} (hh : s.isHalted = true) (hl : ∀ a ∈ s.jr.waitList, a.who ≠ .sweep) :
    (s.modJournalWrite ring fun w => { w with failed := true }).Calm ring (s.journalLost ring)
      ∧ (s.journalLost ring).Lost ring ∧ ∀ x ∈ (s.journalLost ring).client.tags, x.wait ≠ .journalWrite ring := by
  have hlost : (s.modJournalWrite ring fun w => { w with failed := true }).Lost ring := by
    refine ⟨hh, hl, fun w hw hr => ?_⟩
    obtain ⟨y, -, rfl⟩ := List.mem_map.mp hw
    split
    · rfl
    next hne => exact absurd (beq_iff_eq.mpr (by simpa [hne] using hr)) hne
  obtain ⟨hcalm, hout⟩ := calm_wakeReads (s.ringReaders ring) hlost
  refine ⟨hcalm, hcalm.lost hlost, fun x hx hw => hout x hx hw ?_⟩
  exact List.mem_map_of_mem (List.mem_filter.mpr ⟨hcalm.waits x hx hw, beq_iff_eq.mpr hw⟩)

theorem journalLost_of_none {s : State} (h : ∀ x ∈ s.client.tags, x.wait ≠ .journalWrite ring) :
    s.journalLost ring = { s with jr := { s.jr with writes := s.jr.writes.map fun x => if x.ring = ring then { x with failed := true } else x } } := by
  have hnone : s.ringReaders ring = [] := by
    rw [State.ringReaders, List.map_eq_nil_iff, List.filter_eq_nil_iff]
    exact fun x hx => by simpa using h x hx
  simp only [State.journalLost, hnone, each, State.modJournalWrite, beq_iff_eq]

/-! ### The retries -/

section
variable {tag status : Byte} {field : BitVec 64} {e : StoreEntry}

theorem exec_settingsFailed (ha : s.Awaits tag e) (hst : status ≠ 0) (hu : e.req.user = .settings) :
    exec (.settingsWriteCompletion tag status field) s = .next ((s.dropEntry tag.toNat).settingsEnds (.error .medium)) := by
  refine congrArg _ ((completeFor_awaited ha (by rw [hu]; rfl) field).trans ?_)
  rw [outcome_failed field.toNat e hst, hu]
  rfl

theorem exec_catalogueFailed (ha : s.Awaits tag e) (hst : status ≠ 0) (hu : e.req.user = .catalogue block) :
    exec (.catalogueWriteCompletion tag status field) s = .next ((s.dropEntry tag.toNat).catalogueEnds block (.error .medium)) := by
  refine congrArg _ ((completeFor_awaited ha (by rw [hu]; rfl) field).trans ?_)
  rw [outcome_failed field.toNat e hst, hu]
  rfl

theorem exec_journalFailed (ha : s.Awaits tag e) (hst : status ≠ 0) (hu : e.req.user = .journal ring) :
    exec (.journalWriteCompletion tag status field) s = .next ((s.dropEntry tag.toNat).journalEnds ring (.error .medium)) := by
  refine congrArg _ ((completeFor_awaited ha (by rw [hu]; rfl) field).trans ?_)
  rw [outcome_failed field.toNat e hst, hu]
  rfl

end

theorem settingsEnds_failed {w : SettingsWrite} (hh : s.halted = none) (hw : s.set.write = some w) :
    s.settingsEnds (.error cls) = if w.retryUsed then
        State.doubleFault cls .settings 0 none none { s with set := { s.set with write := none } }
      else State.enqueue (settingsReq w.bytes) { s with set := { s.set with write := some { w with retryUsed := true } } } := by
  simp only [State.settingsEnds, hw, isHalted_eq_false hh, Bool.false_eq_true, if_false]

theorem catalogueEnds_failed {w : CatWrite} (hh : s.halted = none) (hw : s.catWrite block = some w) :
    s.catalogueEnds block (.error cls) = if w.retryUsed then s.doubleFault cls .catalogue block none none else s.retryCatalogue w := by
  simp only [State.catalogueEnds, hw, isHalted_eq_false hh, Bool.false_eq_true, if_false]

theorem journalEnds_failed {w : JournalWrite} (hh : s.halted = none) (hw : s.jr.writes.find? (·.ring == ring) = some w) :
    s.journalEnds ring (.error cls) = if w.retryUsed then (s.doubleFault cls .journal (4096 + ring) none none).journalLost ring
      else (s.modJournalWrite ring fun w => { w with retryUsed := true }).enqueue (journalReq ring w.content) := by
  simp only [State.journalEnds, hw, isHalted_eq_false hh, Bool.false_eq_true, if_false]

/-- A double fault halts the part, the image back at the working settings and the sweep stopped. -/
theorem doubleFault_halts (cls : FaultClass) (kind : WriteKind) (block : Nat) (h : s.halted = none) :
    let t := s.doubleFault cls kind block none none
    t.halted = some cls ∧ t.set.image = s.set.work ∧ t.set.imageMarker = s.set.workMarker ∧ t.ret.sweep = none
      ∧ t.jr.writes.map (·.key) = s.jr.writes.map (·.key) ∧ (∀ a ∈ t.jr.waitList, a.who ≠ .sweep)
      ∧ ∀ x ∈ t.client.tags, ∃ y ∈ s.client.tags, x.wait = .journalWrite ring → y.wait = .journalWrite ring := by
  obtain ⟨hhalted, -, -, hret, himage, hmarker⟩ := enterHalted_fields cls s
  obtain ⟨j, hj, hwrites, -⟩ := doubleFault_fields (cls := cls) (kind := kind) (block := block) (vol := none) (seg := none) h
  obtain ⟨-, -, -, -, -, -, -, hlist⟩ := doubleFault_spec cls kind block h
  intro t
  refine ⟨?_, ?_, ?_, ?_, ?_, fun a ha => (hlist a ha).2.1, fun x hx => ?_⟩
  · exact (congrArg State.halted hj).trans hhalted
  · exact (congrArg (fun u => u.set.image) hj).trans himage
  · exact (congrArg (fun u => u.set.imageMarker) hj).trans hmarker
  · exact (congrArg (fun u => u.ret.sweep) hj).trans (congrArg (·.sweep) hret)
  · exact (congrArg (fun u => u.jr.writes.map (·.key)) hj).trans ((congrArg _ hwrites).trans (enterHalted_jr cls s).1)
  · have htags : t.client.tags = (s.enterHalted cls).client.tags := congrArg (fun u => u.client.tags) hj
    obtain ⟨y, hy, rfl⟩ := List.mem_map.mp (not_haltAnswers_of_mem (htags ▸ hx)).1
    exact ⟨y, hy, unwaited_wait⟩

/-- Settles O50. -/
theorem fixedPlaceWritesAreRetriedOnce : Obligations.FixedPlaceWritesAreRetriedOnce := by
  refine ⟨fun tag status field s e ha hh hst => ?_, fun cls kind block s hh => ?_⟩
  · intro freed asks halts newest
    have hdrop : s.dropEntry tag.toNat = freed := dropEntry_eq _ _
    have hfreed : freed.halted = none := hh
    refine ⟨fun hu w hw => ?_, fun b hu w hw => ?_, fun ring hu w hw => ?_⟩
    · have hexec := exec_settingsFailed (field := field) ha hst hu
      rw [hdrop, settingsEnds_failed hfreed hw] at hexec
      refine ⟨fun hr => ?_, fun hr => ?_⟩ <;> rw [hr] at hexec
      · exact hexec
      · obtain ⟨h1, h2, h3, h4, -⟩ := doubleFault_halts (ring := 0) .medium .settings 0
          (s := { freed with set := { s.set with write := none } }) hfreed
        exact ⟨⟨_, hexec, h1, h2, h3, h4⟩, hexec⟩
    · have hexec := exec_catalogueFailed (field := field) ha hst hu
      rw [hdrop, catalogueEnds_failed hfreed hw] at hexec
      refine ⟨fun hr => ?_, fun hr => ?_⟩ <;> rw [hr] at hexec
      · have hblock : w.block = b := by simpa using List.find?_some hw
        subst hblock
        refine hexec.trans ?_
        simp only [Bool.false_eq_true, if_false, State.retryCatalogue, beq_iff_eq]
        rfl
      · obtain ⟨h1, h2, h3, h4, -⟩ := doubleFault_halts (ring := 0) .medium .catalogue b hfreed
        exact ⟨⟨_, hexec, h1, h2, h3, h4⟩, hexec⟩
    · have hexec := exec_journalFailed (field := field) ha hst hu
      rw [hdrop, journalEnds_failed hfreed hw] at hexec
      refine ⟨fun hr => ?_, fun hr => ?_⟩ <;> rw [hr] at hexec
      · refine hexec.trans ?_
        simp only [Bool.false_eq_true, if_false, State.modJournalWrite, beq_iff_eq]
        rfl
      · rw [if_pos rfl] at hexec
        obtain ⟨h1, h2, h3, h4, hkeys, hsweep, htags⟩ := doubleFault_halts (ring := ring) .medium .journal (4096 + ring) hfreed
        obtain ⟨hcalm, hlost, hnone⟩ := journalLost_spec (ring := ring) (s := freed.doubleFault .medium .journal (4096 + ring) none none)
          (congrArg Option.isSome h1) hsweep
        refine ⟨⟨_, hexec, hcalm.halted.trans h1, (congrArg (·.image) hcalm.set).trans h2, (congrArg (·.imageMarker) hcalm.set).trans h3,
          hcalm.sweep.trans h4⟩, ⟨_, hexec, ?_, hlost.failed, hnone⟩, fun hno => ?_⟩
        · have hpair (l : List JournalWrite) : l.map newest = (l.map (·.key)).map fun k => (k.1, k.2.2) := by
            rw [List.map_map]
            rfl
          have hmod (l : List JournalWrite) : (l.map fun x => if x.ring == ring then { x with failed := true } else x).map newest
              = l.map newest := by
            rw [List.map_map]
            refine List.map_congr_left fun x _ => ?_
            show newest (if x.ring == ring then _ else _) = _
            split <;> rfl
          rw [hpair, hcalm.writes, ← hpair]
          refine (hmod _).trans ?_
          rw [hpair, hkeys, ← hpair]
        · refine hexec.trans (congrArg _ (journalLost_of_none fun x hx hw => ?_))
          obtain ⟨y, hy, hyw⟩ := htags x hx
          exact hno y hy (hyw hw)
  · intro t write entry stops ends
    have hstops : (fun a => !stopsAtHalt s.jr.waitList a) = fun a => !stops a := by
      funext a
      simp only [stopsAtHalt, stops] <;> cases a.who <;> rfl
    have hentry : doubleEntry cls kind block none none = entry := by cases kind <;> rfl
    have hyes (e : TagEntry) : s.haltAnswers e = true ↔ ends e := haltAnswers_iff
    have hno (e : TagEntry) : s.haltAnswers e = false ↔ ¬ends e := by rw [← hyes, Bool.not_eq_true]
    have hspec := doubleFault_spec cls kind block hh
    simp only [hstops, hentry, hyes, hno] at hspec
    exact hspec

end Sys2Proof.Machine
end

section
/-! The reclaim (7.6, 7.7): O58. -/

namespace Sys2Proof.Machine

variable {s : State}

/-! ### Any append goes by the journal unit, the archive day, the ring and the halt alone -/

theorem sameJournal_release {s t : State} (h : s.SameJournal t) (who : Appender) : (s.release who).SameJournal (t.release who) := by
  obtain ⟨hjr, hhalt, hj, hday⟩ := h
  rw [release_eq, release_eq]
  cases who <;> exact ⟨hjr, hhalt, hj, hday⟩

theorem sameJournal_append_any {s t : State} (h : s.SameJournal t) (a : Append) : (s.append a).SameJournal (t.append a) := by
  have hpass := sameJournal_passBlock h
  have hfits : t.fits a = s.fits a := by simp only [State.fits, h.jr]
  have hcan : t.canAppend a = s.canAppend a := by
    simp only [State.canAppend, State.journalFull, State.journalFree, State.ringLen, State.isHalted, hfits, h.jr, h.ring, h.halted]
  simp only [State.append, hcan, h.jr]
  split
  · simp only [State.appendNow, hfits]
    have hplace : ((if s.fits a then s else s.passBlock).placeEntry a).SameJournal ((if s.fits a then t else t.passBlock).placeEntry a) := by
      split
      · exact ⟨by simp only [State.placeEntry, h.jr, h.day], h.halted, h.ring, h.day⟩
      · exact ⟨by simp only [State.placeEntry, hpass.jr, hpass.day], hpass.halted, hpass.ring, hpass.day⟩
    refine sameJournal_release ?_ _
    split
    · have hcall := sameJournal_callJournal hplace
      generalize (if s.fits a then s else s.passBlock).placeEntry a = u at hplace hcall ⊢
      generalize (if s.fits a then t else t.passBlock).placeEntry a = x at hplace hcall ⊢
      simpa only [State.headRing, State.ringLen, hplace.jr, hplace.ring] using
        hcall (u.jr.head % (u.alloc.j * 4096)) (renderJournal u.jr.head u.jr.buf) a.waiters
    · exact hplace
  · exact ⟨rfl, h.halted, h.ring, h.day⟩

/-! ### What an entry with nothing to release leaves -/

/-- The journal unit and the queue have changed, the read pointer has not, and the queue has at most journal writes more. -/
def State.Journalled (s t : State) : Prop :=
  ∃ (j : JournalUnit) (q : List StoreReq), t = { s with jr := j, port := { s.port with queue := s.port.queue ++ q } }
    ∧ j.readPtr = s.jr.readPtr ∧ ∀ r ∈ q, ∃ ring, r.user = .journal ring

theorem journalled_of_jr {j : JournalUnit} (h : j.readPtr = s.jr.readPtr) : s.Journalled { s with jr := j } :=
  ⟨j, [], by simp, h, fun _ hr => absurd hr List.not_mem_nil⟩

theorem State.Journalled.trans {s t u : State} (h : s.Journalled t) (k : t.Journalled u) : s.Journalled u := by
  obtain ⟨j, q, rfl, hptr, hq⟩ := h
  obtain ⟨j', q', rfl, hptr', hq'⟩ := k
  exact ⟨j', q ++ q', by simp only [List.append_assoc], hptr'.trans hptr, fun r hr => (List.mem_append.mp hr).elim (hq r) (hq' r)⟩

theorem journalled_callJournal (ring : Nat) (b : Block) (ws : List JournalWaiter) (s : State) : s.Journalled (s.callJournal ring b ws) := by
  unfold State.callJournal
  split
  · exact journalled_of_jr rfl
  · split
    · exact journalled_of_jr rfl
    · exact ⟨_, [journalReq ring b], rfl, rfl, fun r hr => ⟨ring, by rw [List.mem_singleton.mp hr]; rfl⟩⟩

theorem journalled_passBlock (s : State) : s.Journalled s.passBlock := by
  rw [passBlock_eq]
  split
  · exact journalled_of_jr rfl
  · exact (journalled_callJournal _ _ _ _).trans (journalled_of_jr rfl)

theorem journalled_append {a : Append} (h : ∀ u : State, u.release a.who = u) (s : State) : s.Journalled (s.append a) := by
  unfold State.append
  split
  · have hplace : s.Journalled ((if s.fits a then s else s.passBlock).placeEntry a) := by
      split
      · exact journalled_of_jr rfl
      · exact (journalled_passBlock s).trans (journalled_of_jr rfl)
    rw [State.appendNow, h]
    split
    · exact hplace.trans (journalled_callJournal _ _ _ _)
    · exact hplace
  · exact journalled_of_jr rfl

/-! ### The map entries' lengths leave the live counts (R87, R125) -/

/-- A map entry's length leaves its zone's live count; a FULL zone that then holds nothing becomes FREE. -/
def Alloc.released (m : MapEntry) (a : Alloc) : Alloc :=
  match (a.subLive m.zone m.len).zone m.zone with
  | none => a.subLive m.zone m.len
  | some z => if z.idle ∧ z.filling = false then (a.subLive m.zone m.len).freeZone m.zone else a.subLive m.zone m.len

theorem released_fields (m : MapEntry) (a : Alloc) : (a.released m).waiting = a.waiting ∧ (a.released m).mapFree = a.mapFree
    ∧ (a.released m).j = a.j ∧ ∀ n ∈ a.fifo, n ∈ (a.released m).fifo := by
  unfold Alloc.released
  split
  · exact ⟨rfl, rfl, rfl, fun _ h => h⟩
  · split
    · exact ⟨rfl, rfl, rfl, fun _ h => List.mem_append_left _ h⟩
    · exact ⟨rfl, rfl, rfl, fun _ h => h⟩

theorem releaseEntry_eq {m : MapEntry} (h : s.alloc.waiting = []) : releaseEntry m s = { s with alloc := s.alloc.released m } := by
  have hw : (s.alloc.subLive m.zone m.len).waiting = [] := h
  unfold releaseEntry State.zoneTest Alloc.released
  split
  next hz => simp only [hz]
  next z hz =>
    simp only [hz]
    cases hi : z.idle <;> cases hf : z.filling <;> simp [hw, passWaiting_of_nil, Alloc.freeZone]

theorem each_releaseEntry (ms : List MapEntry) {s : State} (h : s.alloc.waiting = []) :
    each releaseEntry ms s = { s with alloc := ms.foldl (fun a m => a.released m) s.alloc } := by
  induction ms generalizing s with
  | nil => rfl
  | cons m ms ih =>
    rw [each, releaseEntry_eq h, ih (s := { s with alloc := s.alloc.released m }) ((released_fields m s.alloc).1.trans h)]
    rfl

/-- What is left of a zone's live count. -/
def Zone.left (ms : List MapEntry) (x : Zone) : Nat := x.live - ((ms.filter (·.zone = x.zone)).map (·.len)).sum

theorem released_zones (m : MapEntry) (a : Alloc) : (a.released m).zones = (a.subLive m.zone m.len).zones
    ∨ (a.released m).zones = (a.subLive m.zone m.len).zones.filter (·.zone != m.zone) := by
  unfold Alloc.released
  split
  · exact .inl rfl
  · split
    · exact .inr rfl
    · exact .inl rfl

theorem subLive_names (n len : Nat) (a : Alloc) : (a.subLive n len).zones.map (·.zone) = a.zones.map (·.zone) := by
  rw [Alloc.subLive, modZone_eq, List.map_map]
  refine List.map_congr_left fun x _ => ?_
  simp only [Function.comp_apply]
  split <;> rfl

theorem released_names (m : MapEntry) (a : Alloc) : ((a.released m).zones.map (·.zone)).Sublist (a.zones.map (·.zone)) := by
  rw [← subLive_names m.zone m.len a]
  rcases released_zones m a with h | h <;> rw [h]
  exact List.filter_sublist.map _

theorem zone_of_nodup {a : Alloc} {x : Zone} (hn : (a.zones.map (·.zone)).Nodup) (hx : x ∈ a.zones) : a.zone x.zone = some x :=
  zone_of_unique hx fun _ hy h => List.inj_on_of_nodup_map hn hy hx h

theorem mem_released_other {m : MapEntry} {a : Alloc} {x : Zone} (hx : x ∈ a.zones) (hne : x.zone ≠ m.zone) : x ∈ (a.released m).zones := by
  have hsub : x ∈ (a.subLive m.zone m.len).zones := by
    rw [Alloc.subLive, modZone_eq]
    exact List.mem_map.mpr ⟨x, hx, if_neg hne⟩
  rcases released_zones m a with h | h <;> rw [h]
  · exact hsub
  · exact List.mem_filter.mpr ⟨hsub, by simpa using hne⟩

section
variable {m : MapEntry} {a : Alloc} {x : Zone}

theorem subLive_zone (hn : (a.zones.map (·.zone)).Nodup) (hx : x ∈ a.zones) (he : x.zone = m.zone) :
    (a.subLive m.zone m.len).zone m.zone = some { x with live := x.live - m.len } :=
  zone_modZone (he ▸ zone_of_nodup hn hx) fun _ => rfl

theorem mem_released_kept (hn : (a.zones.map (·.zone)).Nodup) (hx : x ∈ a.zones) (he : x.zone = m.zone)
    (hk : x.live - m.len ≠ 0 ∨ x.list ≠ [] ∨ x.filling = true) : { x with live := x.live - m.len } ∈ (a.released m).zones := by
  have hzone := subLive_zone (m := m) hn hx he
  have hno : ¬(Zone.idle { x with live := x.live - m.len } = true ∧ x.filling = false) := by
    rintro ⟨hi, hf⟩
    rw [Zone.idle, Bool.and_eq_true, beq_iff_eq, List.isEmpty_iff] at hi
    rcases hk with h | h | h
    · exact h hi.1
    · exact h hi.2
    · rw [h] at hf; cases hf
  simp only [Alloc.released, hzone, hno, if_false]
  exact List.mem_of_find?_eq_some hzone

theorem released_freed (hn : (a.zones.map (·.zone)).Nodup) (hx : x ∈ a.zones) (he : x.zone = m.zone)
    (h0 : x.live - m.len = 0) (hl : x.list = []) (hf : x.filling = false) :
    x.zone ∈ (a.released m).fifo ∧ ∀ y ∈ (a.released m).zones, y.zone ≠ x.zone := by
  have hzone := subLive_zone (m := m) hn hx he
  have hyes : Zone.idle { x with live := x.live - m.len } = true ∧ x.filling = false := by
    simp only [Zone.idle, h0, hl, hf, List.isEmpty_nil, beq_self_eq_true, Bool.and_self, and_self]
  simp only [Alloc.released, hzone]
  rw [if_pos hyes]
  refine ⟨List.mem_append_right _ (by simp [he]), fun y hy => ?_⟩
  have := (List.mem_filter.mp hy).2
  simpa [he] using this

end

theorem foldl_released_fifo (ms : List MapEntry) {a : Alloc} {n : Nat} (h : n ∈ a.fifo) :
    n ∈ (ms.foldl (fun a m => a.released m) a).fifo := by
  induction ms generalizing a with
  | nil => exact h
  | cons m ms ih => exact ih ((released_fields m a).2.2.2 n h)

theorem foldl_released_gone (ms : List MapEntry) {a : Alloc} {n : Nat} (h : ∀ y ∈ a.zones, y.zone ≠ n) :
    ∀ y ∈ (ms.foldl (fun a m => a.released m) a).zones, y.zone ≠ n := by
  induction ms generalizing a with
  | nil => exact h
  | cons m ms ih =>
    refine ih fun y hy => ?_
    obtain ⟨x, hx, hxy⟩ := List.mem_map.mp ((released_names m a).subset (List.mem_map_of_mem hy))
    exact hxy ▸ h x hx

theorem foldl_released_fields (ms : List MapEntry) (a : Alloc) :
    let b := ms.foldl (fun a m => a.released m) a
    b.waiting = a.waiting ∧ b.mapFree = a.mapFree ∧ b.j = a.j := by
  induction ms generalizing a with
  | nil => exact ⟨rfl, rfl, rfl⟩
  | cons m ms ih =>
    obtain ⟨h1, h2, h3⟩ := ih (a.released m)
    obtain ⟨k1, k2, k3, -⟩ := released_fields m a
    exact ⟨h1.trans k1, h2.trans k2, h3.trans k3⟩

/-- What stays of the zone table when all lengths of a map have left the live counts. -/
theorem foldl_released (ms : List MapEntry) {a : Alloc} {x : Zone} (hn : (a.zones.map (·.zone)).Nodup) (hx : x ∈ a.zones) :
    let b := ms.foldl (fun a m => a.released m) a
    (x.left ms ≠ 0 ∨ x.list ≠ [] ∨ x.filling = true → { x with live := x.left ms } ∈ b.zones)
    ∧ (x.left ms = 0 → x.list = [] → x.filling = false → (∃ m ∈ ms, m.zone = x.zone) →
        x.zone ∈ b.fifo ∧ ∀ y ∈ b.zones, y.zone ≠ x.zone) := by
  induction ms generalizing a x with
  | nil => exact ⟨fun _ => hx, fun _ _ _ h => by obtain ⟨m, hm, -⟩ := h; cases hm⟩
  | cons m ms ih =>
    have hn' := hn.sublist (released_names m a)
    by_cases he : x.zone = m.zone
    · have hleft : x.left (m :: ms) = Zone.left ms { x with live := x.live - m.len } := by
        simp only [Zone.left, List.filter_cons, he, decide_true, if_true, List.map_cons, List.sum_cons, Nat.sub_sub]
      by_cases hk : x.live - m.len ≠ 0 ∨ x.list ≠ [] ∨ x.filling = true
      · obtain ⟨hkept, hfreed⟩ := ih hn' (mem_released_kept hn hx he hk)
        refine ⟨fun h => hleft ▸ hkept (hleft ▸ h), fun h0 hl hf _ => hfreed (hleft ▸ h0) hl hf ?_⟩
        have hlive : x.live - m.len ≠ 0 := hk.resolve_right fun h => h.elim (fun h => h hl) fun h => by rw [hf] at h; cases h
        by_contra hnone
        have hempty : ms.filter (·.zone = x.zone) = [] := List.filter_eq_nil_iff.mpr fun y hy h =>
          hnone ⟨y, hy, of_decide_eq_true h⟩
        rw [hleft, Zone.left] at h0
        simp only [hempty, List.map_nil, List.sum_nil, Nat.sub_zero] at h0
        exact hlive h0
      · simp only [not_or, not_not, Bool.not_eq_true] at hk
        obtain ⟨h0, hl, hf⟩ := hk
        obtain ⟨hfifo, hgone⟩ := released_freed hn hx he h0 hl hf
        have hzero : x.left (m :: ms) = 0 := by rw [hleft, Zone.left, h0, Nat.zero_sub]
        refine ⟨fun h => ?_, fun _ _ _ _ => ?_⟩
        · simp [hzero, hl, hf] at h
        · exact ⟨foldl_released_fifo ms hfifo, foldl_released_gone ms hgone⟩
    · have hleft : x.left (m :: ms) = x.left ms := by
        simp only [Zone.left, List.filter_cons, Ne.symm he, decide_false, Bool.false_eq_true, if_false]
      obtain ⟨hkept, hfreed⟩ := ih hn' (mem_released_other hx he)
      rw [hleft]
      refine ⟨hkept, fun h0 hl hf hm => hfreed h0 hl hf ?_⟩
      obtain ⟨y, hy, hyz⟩ := hm
      rcases List.mem_cons.mp hy with rfl | hy
      · exact absurd hyz.symm he
      · exact ⟨y, hy, hyz⟩

/-! ### The begin of a reclaim (R124 to R126) -/

theorem stillDue_iff {v : Volume} : s.stillDue v = true
    ↔ (∀ h ∈ s.ret.holds, ¬((h.source = none ∨ h.source = some v.source) ∧ h.first ≤ v.day ∧ v.day ≤ h.last))
      ∧ (v.audit = .reconciled ∨ v.audit = .accepted) ∧ (∃ d, v.expiry = some d ∧ d ≤ s.ret.day)
      ∧ v.verifyQueued = false ∧ v.verifying = false := by
  have hheld : s.isHeld v = false
      ↔ ∀ h ∈ s.ret.holds, ¬((h.source = none ∨ h.source = some v.source) ∧ h.first ≤ v.day ∧ v.day ≤ h.last) := by
    rw [← Bool.not_eq_true, isHeld_iff]
    push Not
    rfl
  have hexp : v.expiry.any (fun d => decide (d ≤ s.ret.day)) = true ↔ ∃ d, v.expiry = some d ∧ d ≤ s.ret.day := by
    cases v.expiry <;> simp
  rw [State.stillDue]
  simp only [Bool.and_eq_true, Bool.not_eq_true', hheld, hexp, Bool.or_eq_true, beq_iff_eq, and_assoc]

theorem beingRead_eq_false_iff {n : Nat} : s.beingRead n = false ↔ ∀ e ∈ s.client.tags, ¬(e.phase = .serving ∧ e.serial = some n) := by
  simp only [State.beingRead, List.any_eq_false, Bool.and_eq_true, beq_iff_eq]

theorem mayReclaim_iff {q : Expiring} {v : Volume} (h : v.serial = q.serial) : s.mayReclaim q v = true
    ↔ q.written = true ∧ (∀ e ∈ s.client.tags, ¬(e.phase = .serving ∧ e.serial = some q.serial)) ∧ (q.cut = true ∨ s.stillDue v = true) := by
  simp only [State.mayReclaim, h, beq_self_eq_true, Bool.and_true, Bool.and_eq_true, Bool.not_eq_true', beingRead_eq_false_iff,
    Bool.or_eq_true, and_assoc]

/-- The state in which the chain floor is raised: steps 1 to 3 of the reclaim. -/
def State.mapReleased (v : Volume) (rest : List Expiring) (s : State) : State :=
  let s := { s with ret := { s.ret with queue := rest, reclaim := some { window := v.window, serial := v.serial } } }
  let s := s.modVol v.window fun v => { v with reclaimBegun := true }
  let s := (s.withdrawPatrol v.serial).releaseCache v.serial
  (each releaseEntry v.map s).releaseMap v

/-- The PURGE entry of a volume (12.4). -/
def purgeEntry (v : Volume) : Append := { code := 0x0007, body := purgeBody v, forced := true, who := .purge }

theorem beginReclaim_eq (v : Volume) (rest : List Expiring) (s : State) : s.beginReclaim v rest
    = State.append (purgeEntry v) ((s.mapReleased v rest).raiseFloor v) := rfl

/-- The queue without the volume's reads by the patrol and the cache. -/
def State.QueueWithout (n : Nat) (q : List StoreReq) : Prop := ∀ r ∈ q, ∀ i, r.user ≠ .fetch n i ∧ r.user ≠ .patrol n i

theorem withdrawPatrol_eq (n : Nat) (s : State) : ∃ (p : Patrol) (q : StorePort), s.withdrawPatrol n
      = { s with audit := { s.audit with patrol := p }, port := q } ∧ ∀ r ∈ q.queue, ∀ i, r.user ≠ .patrol n i := by
  unfold State.withdrawPatrol
  split
  next => exact ⟨_, _, rfl, fun r hr i hu => by simpa [hu, isPatrolOf] using (List.mem_filter.mp hr).2⟩
  next hno => exact ⟨s.audit.patrol, s.port, rfl, fun r hr i hu => hno (List.any_eq_true.mpr ⟨r, hr, by simp [hu, isPatrolOf]⟩)⟩

theorem releaseCache_eq (n : Nat) {s : State} (h : s.rd.roomWait = []) (hp : ∀ r ∈ s.port.queue, ∀ i, r.user ≠ .patrol n i) :
    ∃ q : StorePort, s.releaseCache n = { s with rd := { s.rd with cache := s.rd.cache.filter (·.serial ≠ n) }, port := q }
      ∧ State.QueueWithout n q.queue := by
  have hcache : s.rd.cache.filter (·.serial != n) = s.rd.cache.filter (·.serial ≠ n) :=
    List.filter_congr fun x _ => by simp [bne, Bool.beq_eq_decide_eq]
  refine ⟨(State.disown (isVolumeFetch n) (State.withdraw (isVolumeFetch n) s)).port, ?_, fun r hr i => ⟨fun hu => ?_, ?_⟩⟩
  · simp only [State.releaseCache, State.roomPass, State.disown, State.withdraw, h, each, hcache]
  · simpa [hu, isVolumeFetch] using (List.mem_filter.mp hr).2
  · exact hp r (List.mem_filter.mp hr).1 i

/-- What steps 1 to 3 leave, where nothing waits for room or places. -/
theorem mapReleased_eq (v : Volume) (rest : List Expiring) {s : State} (hroom : s.rd.roomWait = []) (hwait : s.alloc.waiting = []) :
    ∃ (p : Patrol) (q : StorePort), s.mapReleased v rest = { s with
        ret := { s.ret with queue := rest, reclaim := some { window := v.window, serial := v.serial } }
        vols := s.vols.map fun x => if x.window = v.window then { x with reclaimBegun := true, map := [] } else x
        audit := { s.audit with patrol := p }
        rd := { s.rd with cache := s.rd.cache.filter (·.serial ≠ v.serial) }
        port := q
        alloc := { v.map.foldl (fun a m => a.released m) s.alloc with mapFree := s.alloc.mapFree + v.map.length } }
      ∧ State.QueueWithout v.serial q.queue := by
  obtain ⟨p, q, hpatrol, hq⟩ := withdrawPatrol_eq v.serial (State.modVol v.window (fun v => { v with reclaimBegun := true })
    { s with ret := { s.ret with queue := rest, reclaim := some { window := v.window, serial := v.serial } } })
  obtain ⟨q', hcache, hq'⟩ := releaseCache_eq v.serial (s := State.withdrawPatrol v.serial _) (by rw [hpatrol]; exact hroom)
    (by rw [hpatrol]; exact hq)
  obtain ⟨hw, hfree, -⟩ := foldl_released_fields v.map s.alloc
  refine ⟨p, q', ?_, hq'⟩
  rw [State.mapReleased]
  dsimp only
  rw [hcache, hpatrol, each_releaseEntry v.map (by exact hwait), State.releaseMap]
  rw [passWaiting_of_nil (by exact hw.trans hwait)]
  simp only [modVol_eq, List.map_map, State.mk.injEq, Alloc.mk.injEq, true_and, and_true]
  refine ⟨List.map_congr_left fun x _ => ?_, by rw [hfree]⟩
  by_cases hx : x.window = v.window <;> simp [hx]

/-- Step 4: with a higher link the floor rises and its settings write is called for. -/
theorem raiseFloor_eq (v : Volume) (s : State) : s.raiseFloor v
    = if s.audit.floor.index < (v.chain.getD {}).index then State.callSettings .floor { s with audit := { s.audit with floor := v.chain.getD {} } }
      else { s with ret := { s.ret with reclaim := s.ret.reclaim.map fun r => { r with floorDone := true } } } := rfl

theorem callSettings_queue (w : SetWaiter) (s : State) : ∃ q, (s.callSettings w).port = { s.port with queue := s.port.queue ++ q }
    ∧ ∀ r ∈ q, r.user = .settings := by
  unfold State.callSettings
  split
  · exact ⟨[], by simp, fun _ hr => absurd hr List.not_mem_nil⟩
  · exact ⟨[settingsReq (storedBlock s.stored)], rfl, fun r hr => by rw [List.mem_singleton.mp hr]; rfl⟩

/-- What step 4 may change: the floor, the reclaim's mark, the settings unit, the queue by settings writes. -/
theorem raiseFloor_frame (v : Volume) (s : State) : ∃ (a : AuditUnit) (r : Option Reclaim) (x : SettingsUnit) (q : List StoreReq),
    s.raiseFloor v = { s with
      audit := a, ret := { s.ret with reclaim := r }, set := x, port := { s.port with queue := s.port.queue ++ q } }
    ∧ ∀ r ∈ q, r.user = .settings := by
  rw [raiseFloor_eq]
  split
  · obtain ⟨q, hport, hq⟩ := callSettings_queue .floor { s with audit := { s.audit with floor := v.chain.getD {} } }
    refine ⟨{ s.audit with floor := v.chain.getD {} }, s.ret.reclaim,
      (State.callSettings .floor { s with audit := { s.audit with floor := v.chain.getD {} } }).set, q, ?_, hq⟩
    rw [← show _ = ({ s.port with queue := s.port.queue ++ q } : StorePort) from hport]
    exact callSettings_only _ _
  · exact ⟨s.audit, s.ret.reclaim.map fun r => { r with floorDone := true }, s.set, [], by simp only [List.append_nil], fun _ hr => absurd hr List.not_mem_nil⟩

theorem callSettings_of_free {w : SetWaiter} (hh : s.halted = none) (hw : s.set.write = none) :
    s.callSettings w = s.handSettings [w] := by
  simp only [State.callSettings, hw, isHalted_eq_false hh, Option.isSome_none, Bool.or_self, Bool.false_eq_true, if_false]

theorem callSettings_of_out {w : SetWaiter} (hw : s.set.write ≠ none) :
    s.callSettings w = { s with set := { s.set with gathered := some (s.set.gathered.getD [] ++ [w]) } } := by
  simp only [State.callSettings, Option.isSome_iff_ne_none.mpr hw, Bool.true_or, if_true]

/-- Step 6 waits for what is still out, and not in a HALTED part. -/
theorem reclaimStep6_eq {r : Reclaim} (h : s.ret.reclaim = some r) : s.reclaimStep6
    = if r.purgeStored = true ∧ r.floorDone = true ∧ r.freeIssued = false ∧ s.halted = none then
        State.callCatalogue r.window [.free r.window r.serial] { s with ret := { s.ret with reclaim := some { r with freeIssued := true } } }
      else s := by
  have hiff : (r.purgeStored && r.floorDone && !r.freeIssued && !s.isHalted) = true
      ↔ r.purgeStored = true ∧ r.floorDone = true ∧ r.freeIssued = false ∧ s.halted = none := by
    simp [State.isHalted, and_assoc]
  simp only [State.reclaimStep6, h, hiff]

theorem settingsWaiter_floor_startup (day : Nat) (s : State) : (settingsWaiter day .floor s).startup = s.startup := by
  rw [settingsWaiter, State.reclaimStep6]
  split
  · rfl
  · split
    · exact (congrArg State.startup (callCatalogue_only _ _ _)).trans rfl
    · rfl

/-- Settles O58. -/
theorem reclaimsFreeTheirWindow : Obligations.ReclaimsFreeTheirWindow := by
  refine ⟨fun s q rest v hruns hrec hqueue hv hser => ?_, fun day u r hr => ?_, fun tag field s e ha hop hstart hhalt => ?_,
    fun tag field s e b w r ha hop hstart hu hw hg hrec hws => ?_⟩
  · intro due ready left
    have hrun : s.running = true := by simp [State.running, State.isHalted, State.starting, hruns.alive, hruns.started]
    have hready : s.mayReclaim q v = true ↔ ready := by
      rw [mayReclaim_iff hser, stillDue_iff]
    have hexec : exec .reclaimBegin s = .next (if s.mayReclaim q v then s.beginReclaim v rest else s) := by
      show execReclaimBegin s = _
      simp only [execReclaimBegin, hrec, hqueue, hv, hrun, hruns.released, Bool.true_and, Bool.not_false]
    refine ⟨fun hno => ?_, fun hyes hroom hwait => ?_⟩
    · exact hexec.trans (congrArg _ (if_neg fun h => hno (hready.mp h)))
    · refine ⟨_, hexec.trans (congrArg _ (if_pos (hready.mpr hyes))), ?_⟩
      rw [beginReclaim_eq]
      obtain ⟨p, port, hz, hport⟩ := mapReleased_eq v rest hroom hwait
      obtain ⟨j, jq, happ, hptr, hjq⟩ := journalled_append (a := purgeEntry v) (fun _ => rfl) ((s.mapReleased v rest).raiseFloor v)
      obtain ⟨z, hzdef⟩ : ∃ z, z = s.mapReleased v rest := ⟨_, rfl⟩
      rw [← hzdef] at hz happ hptr ⊢
      obtain ⟨t, ht⟩ : ∃ t, t = State.append (purgeEntry v) (z.raiseFloor v) := ⟨_, rfl⟩
      rw [← ht] at happ ⊢
      have hw := vol_window hv
      have hzset : z.set = s.set := by rw [hz]
      have hzfloor : z.audit.floor = s.audit.floor := by rw [hz]
      have hzhalt : z.halted = none := by rw [hz]; exact hruns.alive
      have hraise : z.raiseFloor v = if s.audit.floor.index < (v.chain.getD {}).index then
            State.callSettings .floor { z with audit := { z.audit with floor := v.chain.getD {} } }
          else { z with ret := { z.ret with reclaim := some { window := q.window, serial := q.serial, floorDone := true } } } := by
        rw [raiseFloor_eq, hzfloor, hz]
        simp only [Option.map_some, hw, hser]
      obtain ⟨a, rc, x, sq, hu, hsq⟩ := raiseFloor_frame v z
      have hqueue : t.port.queue = (z.raiseFloor v).port.queue ++ jq := by rw [happ]
      rw [hu] at happ hptr
      have hq : ∀ r ∈ t.port.queue, ∀ i, r.user ≠ .fetch v.serial i ∧ r.user ≠ .patrol v.serial i := by
        rw [happ, hz]
        intro r hr i
        rcases List.mem_append.mp hr with hr | hr
        · rcases List.mem_append.mp hr with hr | hr
          · exact hport r hr i
          · simp [hsq r hr]
        · obtain ⟨ring, hring⟩ := hjq r hr
          simp [hring]
      have hstored : t.stored = (z.raiseFloor v).stored := by
        rw [happ, hu]
        simp only [State.stored, hptr]
      have htu {α : Type} (f : State → α) (hf : ∀ (y : State) j p, f { y with jr := j, port := p } = f y) : f t = f (z.raiseFloor v) := by
        rw [happ, hu]
        exact hf _ _ _
      have htz {α : Type} (f : State → α) (hf : ∀ (y : State) a r x p j, f { y with
          audit := a, ret := { y.ret with reclaim := r }, set := x, port := p, jr := j } = f y) : f t = f z := by
        rw [happ]
        exact hf z a rc x _ j
      have hvol (w : Nat) : t.vol w = (s.vol w).map fun x => if w == v.window then { x with reclaimBegun := true, map := [] } else x := by
        have hvols : t.vols = s.vols.map fun x => if x.window == v.window then { x with reclaimBegun := true, map := [] } else x :=
          (htz State.vols fun _ _ _ _ _ _ => rfl).trans (by rw [hz]; simp only [beq_iff_eq])
        rw [State.vol, hvols]
        exact find?_map_key (fun x : Volume => x.window) v.window w (fun x => { x with reclaimBegun := true, map := [] }) (fun _ => rfl) s.vols
      refine ⟨?_, ?_, fun hlt => ⟨fun hfree => ⟨?_, ?_⟩, fun hout => ?_⟩, fun hle => ?_, ?_, fun w hne => ?_, ?_, ?_, hq, fun hn x hx => ?_, ?_, ?_⟩
      · exact (htz (fun y => y.ret.queue) fun _ _ _ _ _ _ => rfl).trans (by rw [hz])
      · refine (htu (fun y => y.ret.reclaim) fun _ _ _ => rfl).trans ?_
        rw [hraise]
        split
        next hlt =>
          refine (congrArg (fun y => y.ret.reclaim) (callSettings_only _ _)).trans ?_
          simp only [hz, hw, hser, hlt, decide_true, Bool.not_true]
        next hno => simp only [hno, decide_false, Bool.not_false]
      · refine (htu State.set fun _ _ _ => rfl).trans ?_
        have hcall := callSettings_of_free (w := .floor) (s := { z with audit := { z.audit with floor := v.chain.getD {} } }) hzhalt
          (hzset ▸ hfree)
        rw [hstored, hraise, if_pos hlt, hcall]
        have hday : z.ret.day = s.ret.day := by rw [hz]
        rw [← hzset, ← hday]
        rfl
      · have hcall := callSettings_of_free (w := .floor) (s := { z with audit := { z.audit with floor := v.chain.getD {} } }) hzhalt
          (hzset ▸ hfree)
        rw [hqueue, hstored, hraise, if_pos hlt, hcall]
        exact List.mem_append_left _ (List.mem_append_right _ (List.mem_singleton.mpr rfl))
      · refine (htu State.set fun _ _ _ => rfl).trans ?_
        rw [hraise, if_pos hlt, callSettings_of_out (by exact hzset ▸ hout)]
        rw [hzset]
      · refine (htu State.set fun _ _ _ => rfl).trans ?_
        rw [hraise, if_neg (Nat.not_lt.mpr hle)]
        exact hzset
      · rw [hvol, hv]
        exact congrArg some (if_pos (beq_iff_eq.mpr hw.symm))
      · rw [hvol, hw]
        cases s.vol w with
        | none => rfl
        | some x => exact congrArg some (if_neg (by simpa using hne))
      · exact (htz (fun y => y.alloc.mapFree) fun _ _ _ _ _ _ => rfl).trans (by rw [hz])
      · exact (htz (fun y => y.rd.cache) fun _ _ _ _ _ _ => rfl).trans (by rw [hz])
      · have halloc : t.alloc = { v.map.foldl (fun a m => a.released m) s.alloc with mapFree := s.alloc.mapFree + v.map.length } :=
          (htz State.alloc fun _ _ _ _ _ _ => rfl).trans (by rw [hz])
        rw [halloc]
        exact foldl_released v.map hn hx
      · have hsame : s.SameJournal (z.raiseFloor v) := by
          rw [hu, hz]
          exact ⟨rfl, rfl, (foldl_released_fields v.map s.alloc).2.2, rfl⟩
        rw [ht]
        exact (sameJournal_append_any hsame (purgeEntry v)).jr
      · refine (htu (fun y => y.audit.floor) fun _ _ _ => rfl).trans ?_
        rw [hraise]
        split
        · exact congrArg (fun y => y.audit.floor) (callSettings_only _ _)
        · exact hzfloor
  · intro marked frees
    have hstep (x : Reclaim) : (marked x).reclaimStep6 = if x.purgeStored = true ∧ x.floorDone = true ∧ x.freeIssued = false ∧ u.halted = none
        then frees x else marked x := reclaimStep6_eq rfl
    have hfloor : settingsWaiter day .floor u = (marked { r with floorDone := true }).reclaimStep6 := by
      simp only [settingsWaiter, hr, Option.map_some, marked]
    have hpurge : journalWaiter .purge u = (marked { r with purgeStored := true }).reclaimStep6 := by
      simp only [journalWaiter, hr, Option.map_some, marked]
    have hhalt : u.isHalted = true ↔ u.halted ≠ none := by simp [State.isHalted, Option.isSome_iff_ne_none]
    rw [hfloor, hpurge, hstep, hstep, hhalt]
    refine ⟨fun h => if_neg ?_, fun h1 h2 h3 => if_pos ⟨h1, rfl, h2, h3⟩, fun h => if_neg ?_, fun h1 h2 h3 => if_pos ⟨rfl, h1, h2, h3⟩⟩
    · rintro ⟨(h1 : r.purgeStored = true), -, (h2 : r.freeIssued = false), h3⟩
      simp [h1, h2, h3] at h
    · rintro ⟨-, (h1 : r.floorDone = true), (h2 : r.freeIssued = false), h3⟩
      simp [h1, h2, h3] at h
  · intro freed
    have hdrop : s.dropEntry tag.toNat = freed := dropEntry_eq _ _
    refine ⟨fun hu w hw hws hg hidle hrate hold => ?_, fun ring hu w hw hg hws hread => ?_⟩
    · refine (exec_settingsGood ha hop hu).trans ?_
      have hdone : freed.settingsDone w = { freed with set := { s.set with work := w.settings, workMarker := w.marker, write := none } } := by
        simp only [State.settingsDone, hidle, hrate, hold, freed, hg, if_false, false_and, Option.map_none, if_true, List.append_nil]
      rw [hdrop, settingsEnds_good (s := freed) hw hhalt, hdone, hws]
      exact congrArg _ (formatDone_started ((settingsWaiter_floor_startup w.day _).trans hstart))
    · refine (exec_journalGood ha hop hu).trans ?_
      have hnone : s.client.tags.filter (fun x => x.wait = .journalWrite ring) = [] :=
        List.filter_eq_nil_iff.mpr fun x hx => by simpa using hread x hx
      rw [hdrop, journalEnds_good (s := freed) hw hhalt]
      simp only [hg, hws, freed, hnone]
      rfl
  · refine (exec_catalogueGood ha hop hu).trans ?_
    have hdone (x : State) (hx : x.set = s.set) : x.catalogueDone b w
        = { x with set := { s.set with catWrites := s.set.catWrites.filter (·.block ≠ b) } } := by
      rw [← hx]
      simp only [State.catalogueDone, hg, if_true, List.append_nil]
    have hfree (x : State) (hx : x.ret.reclaim = some r) : x.endReclaim r.window r.serial
        = { x with vols := x.vols.filter (·.window ≠ r.window), ret := { x.ret with reclaim := none } } := by
      have hvols : x.vols.filter (·.window ≠ r.window) = x.vols.filter (·.window != r.window) :=
        List.filter_congr fun y _ => by simp [bne, Bool.beq_eq_decide_eq]
      simp only [State.endReclaim, hx, Option.any_some, beq_self_eq_true, Bool.and_self, if_true, State.dropVol, hvols]
    rw [dropEntry_eq]
    have hend := hfree { s with
      port := { s.port with table := s.port.table.filter (·.tag ≠ tag.toNat) }
      set := { s.set with catWrites := s.set.catWrites.filter (·.block ≠ b) } } hrec
    refine congrArg _ ((catalogueEnds_good (s := { s with port := { s.port with table := s.port.table.filter (·.tag ≠ tag.toNat) } }) hw).trans ?_)
    rw [hdone { s with port := { s.port with table := s.port.table.filter (·.tag ≠ tag.toNat) } } rfl, hws]
    refine Eq.trans (congrArg State.formatDone hend) (formatDone_started ?_)
    exact hstart

end Sys2Proof.Machine
end

section
/-! Steps 2 to 4 of a close (1.6, 1.7, 8.1, 8.4, 8.5): O56. -/

namespace Sys2Proof.Machine

variable {s : State} {v : Volume} {c : Ctx} {k : Closing} {w : Nat}

/-! ### The flags and the audit state of a close (R129, R130) -/

theorem reconcileFlags_spec (trailer : Option TrailerTotals) (k : Counts) (overflow : Bool) (day openedOn : Nat) :
    let f := reconcileFlags trailer k overflow day openedOn
    (f.countDiff = true ↔ ∃ t, trailer = some t ∧ t.crcGood = true ∧ t.count ≠ k.calls)
    ∧ (f.durationDiff = true ↔ ∃ t, trailer = some t ∧ t.crcGood = true ∧ t.duration ≠ k.duration)
    ∧ (f.unitsDiff = true ↔ ∃ t, trailer = some t ∧ t.crcGood = true ∧ t.units ≠ k.units)
    ∧ (f.volumeDiff = true ↔ ∃ t, trailer = some t ∧ t.crcGood = true ∧ t.volume ≠ k.volume)
    ∧ (f.seqGaps = true ↔ 0 < k.gaps ∨ 0 < k.disorder)
    ∧ (f.badRecords = true ↔ 0 < k.bad)
    ∧ (f.unrated = true ↔ 0 < k.unrated)
    ∧ (f.totalOverflow = true ↔ overflow = true)
    ∧ (f.trailerBad = true ↔ ∃ t, trailer = some t ∧ t.crcGood = false)
    ∧ (f.futureDay = true ↔ openedOn + 1 < day) := by
  cases trailer <;> simp [reconcileFlags]

theorem flags_any_iff (f : ReconcileFlags) : f.any = true ↔ f.code ≠ 0 := by
  have hbit (b : Bool) : bit b = 0 ↔ b = false := by cases b <;> simp [bit]
  have hcode : f.code = 0 ↔ f.any = false := by
    simp only [ReconcileFlags.code, ReconcileFlags.any, Nat.add_eq_zero_iff, Nat.mul_eq_zero, OfNat.ofNat_ne_zero, false_or, hbit,
      Bool.or_eq_false_iff]
  rw [Ne, hcode, Bool.not_eq_false]

theorem hasLost_iff {m : List MapEntry} : hasLost m = true ↔ ∃ e ∈ m, e.kind = .lost := by simp [hasLost]

theorem verdictOf_eq (v : Volume) (c : Ctx) (f : ReconcileFlags) : verdictOf v c f
    = if (∃ m ∈ v.map, m.kind = .lost) ∨ v.markDamaged = true then .damaged
      else if c.framer = .raw then .unparsed
      else if c.framer ≠ .afterTrailer then .unterminated
      else if f.any then .discrepant else .reconciled := by
  simp only [verdictOf, closeVerdictState, Bool.or_eq_true, hasLost_iff, beq_iff_eq, Bool.not_eq_true', beq_eq_false_iff_ne]

/-! ### The volumes of the same switch-day (R14, R15) -/

theorem vol_of_mem {u : Volume} (hn : (s.vols.map (·.window)).Nodup) (hu : u ∈ s.vols) : s.vol u.window = some u := by
  cases h : s.vol u.window with
  | none => exact absurd (List.find?_eq_none.mp h u hu) (by simp)
  | some x => rw [List.inj_on_of_nodup_map hn (List.mem_of_find?_eq_some h) hu (vol_window h)]

theorem lowerGenerations_eq (v : Volume) (vols : List Volume) : lowerGenerations v vols
    = vols.filter fun u => u.source = v.source ∧ u.day = v.day ∧ u.gen < v.gen ∧ u.supersededOn = none :=
  List.filter_congr fun u _ => by
    rw [Bool.eq_iff_iff]
    simp [sameSwitchDay, and_assoc]

theorem highestGeneration_of_none {vols : List Volume}
    (h : ∀ u ∈ vols, u.source = v.source ∧ u.day = v.day → u.gen ≤ v.gen) : highestGeneration v vols = none := by
  have hempty : (vols.filter fun u => sameSwitchDay u v && v.gen < u.gen) = [] := by
    rw [List.filter_eq_nil_iff]
    intro u hu
    simp only [sameSwitchDay, Bool.and_eq_true, beq_iff_eq, decide_eq_true_eq, not_and, Nat.not_lt]
    exact fun ht => h u hu ht
  rw [highestGeneration, hempty]
  rfl

/-- The volume of higher generation that is kept as a table is gone through. -/
def higherOf (acc : Option Volume) (u : Volume) : Option Volume :=
  match acc with
  | none => some u
  | some b => if b.gen < u.gen then some u else some b

theorem foldl_higherOf {l : List Volume} {u : Volume} (acc : Option Volume) (hacc : ∀ b, acc = some b → b ≠ u → b.gen < u.gen)
    (hu : u ∈ l ∨ acc = some u) (hl : ∀ x ∈ l, x ≠ u → x.gen < u.gen) : l.foldl higherOf acc = some u := by
  induction l generalizing acc with
  | nil => exact hu.resolve_left List.not_mem_nil
  | cons x l ih =>
    have hx := hl x List.mem_cons_self
    refine ih _ (fun b hb hne => ?_) ?_ fun y hy => hl y (List.mem_cons_of_mem x hy)
    · cases hc : acc with
      | none =>
        rw [hc] at hb
        obtain rfl : x = b := Option.some.inj hb
        exact hx hne
      | some a =>
        simp only [hc, higherOf] at hb
        split at hb <;> obtain rfl := Option.some.inj hb
        · exact hx hne
        · exact hacc _ hc hne
    · rcases hu with hu | hu
      · rcases List.mem_cons.mp hu with rfl | hu
        · refine .inr ?_
          cases hc : acc with
          | none => rfl
          | some a =>
            by_cases ha : a = u
            · simp [higherOf, ha]
            · simp [higherOf, hacc a hc ha]
        · exact .inl hu
      · refine .inr ?_
        by_cases hxu : x = u
        · simp [hu, higherOf, hxu]
        · simp [hu, higherOf, Nat.not_lt.mpr (Nat.le_of_lt (hx hxu))]

theorem highestGeneration_of_first {vols : List Volume} {u : Volume} (hu : u ∈ vols) (ht : u.source = v.source ∧ u.day = v.day)
    (hg : v.gen < u.gen) (hmax : ∀ x ∈ vols, x.source = v.source ∧ x.day = v.day → x ≠ u → x.gen < u.gen) :
    highestGeneration v vols = some u := by
  refine foldl_higherOf none (fun _ h => by cases h) (.inl (List.mem_filter.mpr ⟨hu, ?_⟩)) fun x hx hne => ?_
  · simp [sameSwitchDay, ht.1, ht.2, hg]
  · obtain ⟨hmem, hx⟩ := List.mem_filter.mp hx
    simp only [sameSwitchDay, Bool.and_eq_true, beq_iff_eq, decide_eq_true_eq] at hx
    exact hmax x hmem hx.1 hne

/-! ### The lower generations are superseded (R14) -/

/-- What the supersedes of a close may change. -/
theorem each_supersede_frame (us : List Volume) (s : State) : ∃ (vs : List Volume) (x : SettingsUnit) (p : StorePort),
    each supersedeOne us s = { s with vols := vs, set := x, port := p } := by
  induction us generalizing s with
  | nil => exact ⟨s.vols, s.set, s.port, rfl⟩
  | cons u us ih =>
    obtain ⟨vs, x, p, h⟩ := ih (supersedeOne u s)
    rw [each, h, supersedeOne, State.rewriteVol, callCatalogue_only]
    exact ⟨vs, x, p, rfl⟩

theorem supersedeOne_vol (u : Volume) (w : Nat) (s : State) : (supersedeOne u s).vol w
    = (s.vol w).map fun x => if w == u.window then supersededRecord s.ret.day (s.classEntry u.cls).grace x else x := by
  rw [← vol_modVol u.window w (supersededRecord s.ret.day (s.classEntry u.cls).grace) (fun _ => rfl)]
  exact congrArg (List.find? fun x : Volume => x.window == w) ((congrArg State.vols (callCatalogue_only u.window [] _)).trans rfl)

theorem supersedeOne_ret (u : Volume) (s : State) : (supersedeOne u s).ret = s.ret :=
  (congrArg State.ret (callCatalogue_only u.window [] _)).trans rfl

theorem each_supersede_vol_other {us : List Volume} (h : ∀ u ∈ us, u.window ≠ w) (s : State) :
    (each supersedeOne us s).vol w = s.vol w := by
  induction us generalizing s with
  | nil => rfl
  | cons u us ih =>
    rw [each, ih (fun x hx => h x (List.mem_cons_of_mem u hx)), supersedeOne_vol]
    have hne : (w == u.window) = false := beq_eq_false_iff_ne.mpr (h u List.mem_cons_self).symm
    simp only [hne, Bool.false_eq_true, if_false, Option.map_id']

theorem each_supersede_vol_mem {us : List Volume} (hn : (us.map (·.window)).Nodup) {u : Volume} (hu : u ∈ us) (s : State) :
    (each supersedeOne us s).vol u.window
      = (s.vol u.window).map (supersededRecord s.ret.day (s.classEntry u.cls).grace) := by
  induction us generalizing s with
  | nil => cases hu
  | cons x us ih =>
    rw [List.map_cons, List.nodup_cons] at hn
    rw [each]
    rcases List.mem_cons.mp hu with rfl | hu
    · rw [each_supersede_vol_other (fun y hy h => hn.1 (List.mem_map.mpr ⟨y, hy, h⟩)), supersedeOne_vol]
      simp only [beq_self_eq_true, if_true]
    · have hne : (u.window == x.window) = false :=
        beq_eq_false_iff_ne.mpr fun h => hn.1 (h ▸ List.mem_map_of_mem (f := fun x : Volume => x.window) hu)
      have hret := supersedeOne_ret x s
      rw [ih hn.2 hu, supersedeOne_vol, hret]
      simp only [hne, Bool.false_eq_true, if_false, Option.map_id', State.classEntry, hret]

/-- A record called for has a write of its block out. -/
theorem callCatalogue_out (w : Nat) (ws : List CatWaiter) (s : State) : ∃ x ∈ (s.callCatalogue w ws).set.catWrites, x.block = 1 + w / 16 := by
  unfold State.callCatalogue
  dsimp only
  split
  next h =>
    obtain ⟨x, hx, hb⟩ := List.any_eq_true.mp h
    refine ⟨_, List.mem_map.mpr ⟨x, hx, rfl⟩, ?_⟩
    rw [if_pos hb]
    exact beq_iff_eq.mp hb
  next => exact ⟨_, List.mem_append_right _ (List.mem_singleton.mpr rfl), rfl⟩

theorem callCatalogue_keeps_out (w : Nat) (ws : List CatWaiter) {s : State} {b : Nat} (h : ∃ x ∈ s.set.catWrites, x.block = b) :
    ∃ x ∈ (s.callCatalogue w ws).set.catWrites, x.block = b := by
  obtain ⟨x, hx, hb⟩ := h
  unfold State.callCatalogue
  dsimp only
  split
  next =>
    refine ⟨_, List.mem_map.mpr ⟨x, hx, rfl⟩, ?_⟩
    split <;> exact hb
  next => exact ⟨x, List.mem_append_left _ hx, hb⟩

theorem each_supersede_keeps_out (us : List Volume) {s : State} {b : Nat} (h : ∃ x ∈ s.set.catWrites, x.block = b) :
    ∃ x ∈ (each supersedeOne us s).set.catWrites, x.block = b := by
  induction us generalizing s with
  | nil => exact h
  | cons u us ih => exact ih (callCatalogue_keeps_out u.window [] h)

theorem each_supersede_out {us : List Volume} {u : Volume} (hu : u ∈ us) (s : State) :
    ∃ x ∈ (each supersedeOne us s).set.catWrites, x.block = 1 + u.window / 16 := by
  induction us generalizing s with
  | nil => cases hu
  | cons x us ih =>
    rcases List.mem_cons.mp hu with rfl | hu
    · exact each_supersede_keeps_out us (callCatalogue_out u.window [] _)
    · exact ih hu _

/-! ### The verdict (R12) -/

/-- The record of a close after its verdict, superseded where a higher generation is there. -/
def State.ownVerdict (v : Volume) (c : Ctx) (s : State) : Volume :=
  let own := verdictRecord v c (flagsOf v c) (verdictOf v c (flagsOf v c)) (nextLink s.audit.head v (~~~ c.digest))
  if (s.supersededBy v).isSome then supersededRecord s.ret.day (s.classEntry v.cls).grace own else own

/-- The bodies of the SUPERSEDE entries of a close: the lower generations', then its own (entry 37). -/
def State.supersedeBodies (v : Volume) (s : State) : List (List Byte) :=
  (lowerGenerations v s.vols).map (fun u => supersedeEntry s.ret.day (s.classEntry u.cls).grace v.serial v.gen u)
    ++ match s.supersededBy v with
      | none => []
      | some u => [supersedeEntry s.ret.day (s.classEntry v.cls).grace u.serial u.gen v]

/-- The state with the closing volume's own record, before the lower generations are superseded. -/
def State.judged (w : Nat) (v : Volume) (c : Ctx) (s : State) : State :=
  { s with
    latched := { s.latched with discrepantClose := s.latched.discrepantClose || verdictOf v c (flagsOf v c) == .discrepant }
    audit := { s.audit with head := nextLink s.audit.head v (~~~ c.digest), closes := s.audit.closes.erase w }
    vols := s.vols.map fun x => if x.window == w then
      (if (s.supersededBy v).isSome then supersededRecord s.ret.day (s.classEntry x.cls).grace
        (verdictRecord x c (flagsOf v c) (verdictOf v c (flagsOf v c)) (nextLink s.audit.head v (~~~ c.digest)))
      else verdictRecord x c (flagsOf v c) (verdictOf v c (flagsOf v c)) (nextLink s.audit.head v (~~~ c.digest))) else x }

theorem closeVerdict_eq : s.closeVerdict w v c k = State.modCtx w
    (fun c' => { c' with close := some { k with stage := .catalogue, flags := flagsOf v c, supersedes := s.supersedeBodies v } })
    (each supersedeOne (lowerGenerations v s.vols) (s.judged w v c)) := by
  simp only [State.closeVerdict, State.judged, State.supersedeBodies, State.modVol]
  cases h : verdictOf v c (flagsOf v c) == .discrepant
  · simp only [Bool.false_eq_true, if_false, Bool.or_false] <;> rfl
  · simp only [if_true, State.setDiscrepant, Bool.or_true] <;> rfl

theorem closeVerdict_spec (hn : (s.vols.map (·.window)).Nodup) (hv : s.vol w = some v) (hc : s.ctx w = some c) :
    let t := s.closeVerdict w v c k
    t.vol w = some (s.ownVerdict v c)
    ∧ t.audit = { s.audit with head := nextLink s.audit.head v (~~~ c.digest), closes := s.audit.closes.erase w }
    ∧ t.latched = { s.latched with discrepantClose := s.latched.discrepantClose || verdictOf v c (flagsOf v c) == .discrepant }
    ∧ t.ctx w = some { c with close := some { k with
        stage := .catalogue, flags := flagsOf v c, supersedes := s.supersedeBodies v } }
    ∧ (∀ u ∈ lowerGenerations v s.vols, t.vol u.window = some (supersededRecord s.ret.day (s.classEntry u.cls).grace u)
        ∧ ∃ x ∈ t.set.catWrites, x.block = 1 + u.window / 16)
    ∧ (∀ u ∈ s.vols, u.window ≠ w → u ∉ lowerGenerations v s.vols → t.vol u.window = some u) := by
  intro t
  have ht : t = _ := closeVerdict_eq
  obtain ⟨vs, x, p, hframe⟩ := each_supersede_frame (lowerGenerations v s.vols) (s.judged w v c)
  have hwin := vol_window hv
  have hnodup : ((lowerGenerations v s.vols).map (·.window)).Nodup := hn.sublist (List.filter_sublist.map _)
  have hmem : v ∈ s.vols := List.mem_of_find?_eq_some hv
  have hlower {u : Volume} (hu : u ∈ lowerGenerations v s.vols) : u ∈ s.vols ∧ u.window ≠ w := by
    rw [lowerGenerations_eq] at hu
    obtain ⟨hus, hcond⟩ := List.mem_filter.mp hu
    refine ⟨hus, fun h => ?_⟩
    obtain rfl : u = v := List.inj_on_of_nodup_map hn hus hmem (h.trans hwin.symm)
    simp at hcond
  have hvolT (y : Nat) : t.vol y = (each supersedeOne (lowerGenerations v s.vols) (s.judged w v c)).vol y := by rw [ht]; rfl
  have hjudged (y : Nat) : (s.judged w v c).vol y = (s.vol y).map fun x => if y == w then _ else x :=
    find?_map_key (fun x : Volume => x.window) w y (fun x => if (s.supersededBy v).isSome then
      supersededRecord s.ret.day (s.classEntry x.cls).grace
        (verdictRecord x c (flagsOf v c) (verdictOf v c (flagsOf v c)) (nextLink s.audit.head v (~~~ c.digest)))
      else verdictRecord x c (flagsOf v c) (verdictOf v c (flagsOf v c)) (nextLink s.audit.head v (~~~ c.digest)))
      (fun x => by split <;> rfl) s.vols
  refine ⟨?_, ?_, ?_, ?_, fun u hu => ⟨?_, ?_⟩, fun u hu hne hnot => ?_⟩
  · rw [hvolT, each_supersede_vol_other (fun u hu => (hlower hu).2), hjudged, hv]
    exact congrArg some (if_pos (beq_self_eq_true w))
  · rw [ht, hframe]
    rfl
  · rw [ht, hframe]
    rfl
  · rw [ht, hframe]
    refine (ctx_modCtx w w _ (by intro; rfl) _).trans ?_
    show (s.ctx w).map _ = _
    rw [hc]
    exact congrArg some (if_pos (beq_self_eq_true w))
  · have hne : (u.window == w) = false := beq_eq_false_iff_ne.mpr (hlower hu).2
    rw [hvolT, each_supersede_vol_mem hnodup hu, hjudged, vol_of_mem hn (hlower hu).1]
    exact congrArg (fun y => some (supersededRecord _ _ y)) (if_neg (by simp [hne]))
  · rw [ht]
    exact each_supersede_out hu _
  · have hneq : (u.window == w) = false := beq_eq_false_iff_ne.mpr hne
    have hother : ∀ x ∈ lowerGenerations v s.vols, x.window ≠ u.window := fun x hx h =>
      hnot (List.inj_on_of_nodup_map hn (hlower hx).1 hu h ▸ hx)
    rw [hvolT, each_supersede_vol_other hother, hjudged, vol_of_mem hn hu]
    exact congrArg some (if_neg (by simp [hneq]))

/-! ### Steps 3 and 4 (R12) -/

theorem earlierCloseRuns_iff : s.earlierCloseRuns v = true ↔ ∃ d ∈ s.ctxs, d.window ≠ v.window ∧ d.close.isSome = true
    ∧ ∃ u, s.vol d.window = some u ∧ ∃ l, u.chain = some l ∧ l.index + 1 = (v.chain.getD {}).index := by
  simp only [State.earlierCloseRuns, List.any_eq_true, Bool.and_eq_true, bne_iff_ne, ne_eq, Option.any_eq_true, chainOf, beq_iff_eq,
    and_assoc]

theorem exec_closeVerdict {window : BitVec 12} (hr : s.resetHeld = false) (hh : s.halted = none) (hv : s.vol window.toNat = some v)
    (hc : s.ctx window.toNat = some c) (hk : c.close = some k) (hst : k.stage = .verdict) : exec (.closeVerdict window) s
      = .next (if s.audit.closes.head? = some window.toNat then s.closeVerdict window.toNat v c k else s) := by
  show execCloseVerdict window s = _
  simp only [execCloseVerdict, hv, hc, hk, hst, hr, isHalted_eq_false hh, State.firstToClose, beq_iff_eq, beq_self_eq_true, Bool.not_false,
    Bool.true_and]

theorem exec_closeCatalogue {window : BitVec 12} (hr : s.resetHeld = false) (hh : s.halted = none) (hv : s.vol window.toNat = some v)
    (hc : s.ctx window.toNat = some c) (hk : c.close = some k) (hst : k.stage = .catalogue) : exec (.closeCatalogue window) s
      = .next (if s.earlierCloseRuns v then s else State.callCatalogue window.toNat [.closing window.toNat v.serial]
          (s.modCtx window.toNat fun c => { c with close := some { k with stage := .writing } })) := by
  show execCloseCatalogue window s = _
  simp only [execCloseCatalogue, hv, hc, hk, hst, hr, isHalted_eq_false hh, beq_self_eq_true, Bool.not_false, Bool.true_and,
    Bool.not_eq_true']
  cases s.earlierCloseRuns v <;> rfl

/-- The CLOSE entry of a volume (12.4). -/
def closeEntry (w : Nat) (v : Volume) (k : Closing) : Append :=
  { code := 0x0003, body := closeBody v k, forced := true, who := .close w v.serial }

/-- The SUPERSEDE entries that follow a CLOSE entry. -/
def State.appendSupersedes (w serial : Nat) (bodies : List (List Byte)) (s : State) : State :=
  bodies.foldl (fun u b => u.append { code := 0x0004, body := b, who := .supersede w serial }) s

theorem journalled_appendSupersedes (w serial : Nat) (bodies : List (List Byte)) (s : State) : s.Journalled (s.appendSupersedes w serial bodies) := by
  induction bodies generalizing s with
  | nil => exact journalled_of_jr rfl
  | cons b bodies ih =>
    exact (journalled_append (a := { code := 0x0004, body := b, who := .supersede w serial }) (fun _ => rfl) s).trans (ih _)

theorem closeWritten_eq (hh : s.halted = none) (hv : s.vol w = some v) (hc : s.ctx w = some c) (hk : c.close = some k)
    (hst : k.stage = .writing) : s.closeWritten w v.serial = State.appendSupersedes w v.serial k.supersedes
      (State.append (closeEntry w v k) (s.modCtx w fun c => { c with close := some { k with stage := .journal } })) := by
  simp only [State.closeWritten, hv, hc, hk, hst, isHalted_eq_false hh, beq_self_eq_true, Bool.not_false, Bool.and_self, if_true,
    State.closeEntry, each_eq_foldl]
  rfl

/-- The CLOSE entry appended at once closes the volume and releases its context. -/
theorem append_closeEntry_of_can (hw : s.jr.waitList = []) (hcan : s.canAppend (closeEntry w v k) = true) :
    ∃ u, s.Journalled u ∧ s.append (closeEntry w v k) = (u.modVol w fun v => { v with state := .closed }).dropCtx w := by
  rw [append_of_can hw hcan]
  have hplace : s.Journalled ((if s.fits (closeEntry w v k) then s else s.passBlock).placeEntry (closeEntry w v k)) := by
    split
    · exact journalled_of_jr rfl
    · exact (journalled_passBlock s).trans (journalled_of_jr rfl)
  exact ⟨_, hplace.trans (journalled_callJournal _ _ _ _), rfl⟩

theorem journalled_fields {s t : State} (h : s.Journalled t) : t.vols = s.vols ∧ t.ctxs = s.ctxs ∧ t.startup = s.startup := by
  obtain ⟨j, q, rfl, -, -⟩ := h
  exact ⟨rfl, rfl, rfl⟩

/-- Settles O56. -/
theorem closesReachTheirVerdict : Obligations.ClosesReachTheirVerdict := by
  refine ⟨fun window s hh => ?_, fun trailer k overflow day openedOn => ?_, fun window s v c k hr hh hn hv hc hk => ?_⟩
  · have hhalt : s.isHalted = true := hh
    constructor
    · show execCloseVerdict window s = _
      unfold execCloseVerdict
      refine congrArg _ ?_
      split
      · split
        · rfl
        · simp only [hhalt, Bool.not_true, Bool.and_false, Bool.false_and, Bool.false_eq_true, if_false]
      · rfl
    · show execCloseCatalogue window s = _
      unfold execCloseCatalogue
      refine congrArg _ ?_
      split
      · split
        · rfl
        · simp only [hhalt, Bool.not_true, Bool.and_false, Bool.false_and, Bool.false_eq_true, if_false]
      · rfl
  · obtain ⟨h1, h2, h3, h4, h5, h6, h7, h8, h9, h10⟩ := reconcileFlags_spec trailer k overflow day openedOn
    exact ⟨h1, h2, h3, h4, h5, h6, h7, h8, h9, h10, flags_any_iff _⟩
  · intro flags audit link twin day bound body lower closed verdict earlier stage entry
    have haudit : verdictOf v c (flagsOf v c) = audit := verdictOf_eq v c flags
    have hlower : lowerGenerations v s.vols = lower := lowerGenerations_eq v s.vols
    have hclosed : verdictRecord v c (flagsOf v c) (verdictOf v c (flagsOf v c)) (nextLink s.audit.head v (~~~ c.digest)) = closed := by
      rw [haudit]
      simp only [verdictRecord, beq_iff_eq] <;> rfl
    have hbound (u : Volume) : supersededRecord s.ret.day (s.classEntry u.cls).grace u
        = { u with supersededOn := some day, expiry := some (bound u) } := by
      simp only [supersededRecord, boundedBy, bound, day] <;> rfl
    have hbody (u : Volume) (serial gen : Nat) : supersedeEntry s.ret.day (s.classEntry u.cls).grace serial gen u = body u serial gen := by
      rw [supersedeEntry, hbound]
      rfl
    have hverdict (hst : k.stage = .verdict) (hfirst : s.audit.closes.head? = some window.toNat) :
        verdict (s.ownVerdict v c) (s.supersedeBodies v) := by
      obtain ⟨h1, h2, h3, h4, h5, h6⟩ := closeVerdict_spec (k := k) hn hv hc
      refine ⟨_, (exec_closeVerdict hr hh hv hc hk hst).trans (congrArg _ (if_pos hfirst)), h1, ?_, ?_, h4, fun u hu => ?_, fun u hu hne hnot => ?_⟩
      · rw [h2]
        obtain ⟨l, hl⟩ : ∃ l, s.audit.closes = window.toNat :: l := by
          cases hcl : s.audit.closes with
          | nil => simp [hcl] at hfirst
          | cons x l => exact ⟨l, by simpa [hcl] using hfirst⟩
        simp only [hl, List.erase_cons_head, List.tail_cons] <;> rfl
      · rw [h3, haudit]
      · obtain ⟨hvol, hout⟩ := h5 u (hlower ▸ hu)
        exact ⟨hvol.trans (congrArg some (hbound u)), hout⟩
      · exact h6 u hu hne (hlower ▸ hnot)
    have hbodies : (lowerGenerations v s.vols).map (fun u => supersedeEntry s.ret.day (s.classEntry u.cls).grace v.serial v.gen u)
        = lower.map fun u => body u v.serial v.gen := by
      rw [hlower]
      exact List.map_congr_left fun u _ => hbody u v.serial v.gen
    have hexec := exec_closeVerdict (k := k) hr hh hv hc hk
    have hearlier : s.earlierCloseRuns v = true ↔ earlier := earlierCloseRuns_iff
    have hstage (x : CloseStage) : (s.modCtx window.toNat fun c => { c with close := some { k with stage := x } })
        = { s with ctxs := stage x } := modCtx_eq _ _ s
    refine ⟨fun hst hno => (hexec hst).trans (congrArg _ (if_neg hno)), fun hst hfirst => ?_, fun hst hyes => ?_, fun hst hno => ?_,
      fun hst hstart tag field e b x ha hop hu hw hg hws => ?_⟩
    · have hv' := hverdict hst hfirst
      refine ⟨fun hnone => ?_, fun u hu hon ht hg hmax => ?_⟩
      · have hby : s.supersededBy v = none := by
          unfold State.supersededBy
          split
          · rfl
          next h => exact highestGeneration_of_none (hnone.resolve_left fun hne => h (Option.isSome_iff_ne_none.mpr hne))
        simp only [State.ownVerdict, State.supersedeBodies, hby, Option.isSome_none, Bool.false_eq_true, if_false, hclosed, hbodies,
          List.append_nil] at hv'
        exact hv'
      · have hby : s.supersededBy v = some u := by
          simp only [State.supersededBy, hon, Option.isSome_none, Bool.false_eq_true, if_false]
          exact highestGeneration_of_first hu ht hg hmax
        simp only [State.ownVerdict, State.supersedeBodies, hby, Option.isSome_some, if_true, hclosed, hbody, hlower] at hv'
        have hown : supersededRecord s.ret.day (s.classEntry v.cls).grace closed
            = { closed with supersededOn := some day, expiry := some (bound v) } := hbound closed
        rw [hown] at hv'
        exact hv'
    · exact (exec_closeCatalogue hr hh hv hc hk hst).trans (congrArg _ (if_pos (hearlier.mpr hyes)))
    · exact (exec_closeCatalogue hr hh hv hc hk hst).trans (congrArg _ ((if_neg fun h => hno (hearlier.mp h)).trans (congrArg _ (hstage _))))
    · have hentry : closeEntry window.toNat v k = entry := by
        simp only [closeEntry, closeBody, identityBytes, countsBytes, trailerBytes_eq, linkBytes_eq, digestOf, chainOf, entry,
          List.append_assoc]
      let base : State := { s with
        port := { s.port with table := s.port.table.filter (·.tag ≠ tag.toNat) }
        set := { s.set with catWrites := s.set.catWrites.filter (·.block ≠ b) } }
      let staged : State := { base with ctxs := stage .journal }
      have hdone : State.closeWritten window.toNat v.serial base
          = State.appendSupersedes window.toNat v.serial k.supersedes (State.append entry staged) := by
        rw [closeWritten_eq (s := base) hh hv hc hk hst, hentry]
        exact congrArg (fun u => State.appendSupersedes window.toNat v.serial k.supersedes (State.append entry u)) (modCtx_eq _ _ base)
      have htail := journalled_appendSupersedes window.toNat v.serial k.supersedes (State.append entry staged)
      obtain ⟨hvols, hctxs, hstart'⟩ := journalled_fields htail
      have hvolT (y : Nat) : (State.appendSupersedes window.toNat v.serial k.supersedes (State.append entry staged)).vol y
          = (State.append entry staged).vol y := congrArg (List.find? fun x : Volume => x.window == y) hvols
      have hctxT (y : Nat) : (State.appendSupersedes window.toNat v.serial k.supersedes (State.append entry staged)).ctx y
          = (State.append entry staged).ctx y := congrArg (List.find? fun x : Ctx => x.window == y) hctxs
      have hnow (hw : s.jr.waitList = []) (hf : s.journalFull = false) : ∃ u, staged.Journalled u
          ∧ State.append entry staged = (u.modVol window.toNat fun v => { v with state := .closed }).dropCtx window.toNat := by
        rw [← hentry]
        exact append_closeEntry_of_can (s := staged) hw
          (canAppend_iff.mpr ⟨hf, fun h => absurd (h.symm.trans (isHalted_eq_false (s := staged) hh)) (by decide)⟩)
      have hwait (h : s.jr.waitList ≠ [] ∨ s.journalFull = true) : State.append entry staged
          = { staged with jr := { s.jr with waitList := s.jr.waitList ++ [entry] } } :=
        append_of_waits (s := staged) (h.imp_right canAppend_of_full)
      have hstarted : (State.append entry staged).startup = none := by
        by_cases h : s.jr.waitList = [] ∧ s.journalFull = false
        · obtain ⟨u, hu, happ⟩ := hnow h.1 h.2
          rw [happ]
          exact (journalled_fields hu).2.2.trans hstart
        · rw [hwait ((Classical.not_and_iff_not_or_not.mp h).imp_right fun hf => by simpa using hf)]
          exact hstart
      have hcat (y : State) (hy : y.set = s.set) : y.catalogueDone b x
          = { y with set := { s.set with catWrites := s.set.catWrites.filter (·.block ≠ b) } } := by
        rw [← hy]
        simp only [State.catalogueDone, hg, if_true, List.append_nil]
      refine ⟨_, ?_, rfl, fun hw hf => ?_, fun h => ?_⟩
      · refine (exec_catalogueGood ha hop hu).trans (congrArg _ ?_)
        have hws' : ((s.dropEntry tag.toNat).catalogueDone b x) = base := by
          rw [dropEntry_eq]
          exact hcat { s with port := { s.port with table := s.port.table.filter (·.tag ≠ tag.toNat) } } rfl
        rw [catalogueEnds_good (s := s.dropEntry tag.toNat) hw, hws', hws]
        refine Eq.trans (congrArg State.formatDone hdone) (formatDone_started (hstart'.trans hstarted))
      · obtain ⟨u, hu, happ⟩ := hnow hw hf
        obtain ⟨huv, huc, -⟩ := journalled_fields hu
        have hvol : u.vol window.toNat = some v := (congrArg (List.find? fun x : Volume => x.window == window.toNat) huv).trans hv
        refine ⟨(hvolT _).trans ?_, (hctxT _).trans ?_⟩
        · rw [happ]
          refine (vol_modVol window.toNat window.toNat _ (by intro; rfl) u).trans ?_
          rw [hvol]
          exact congrArg some (if_pos (beq_self_eq_true _))
        · rw [happ, ctx_dropCtx, beq_self_eq_true, if_pos rfl]
      · refine ⟨(hvolT _).trans ?_, (hctxT _).trans ?_⟩
        · rw [hwait h]
          exact hv
        · rw [hwait h]
          refine (congrArg (List.find? fun x : Ctx => x.window == window.toNat) (congrArg State.ctxs (hstage .journal)).symm).trans ?_
          refine (ctx_modCtx window.toNat window.toNat _ (by intro; rfl) s).trans ?_
          rw [hc]
          exact congrArg some (if_pos (beq_self_eq_true _))

end Sys2Proof.Machine
end

section
/-! SERVE_BLOCK and the segment cache (6.1 to 6.4): O53. -/

namespace Sys2Proof.Machine

variable {s : State} {e : TagEntry} {v : Volume} {k block : Nat} {m : MapEntry}

/-! ### Room in the cache (R103) -/

/-- The cache after the least recent entry that is not FETCHING has left. -/
theorem evictOldest_append {l r : List CacheEntry} {x : CacheEntry} (hl : ∀ y ∈ l, y.isFetching = true) (hx : x.isFetching = false) :
    evictOldest (l ++ x :: r) = l ++ r := by
  induction l with
  | nil => simp [evictOldest, hx]
  | cons y l ih =>
    have hy := hl y List.mem_cons_self
    have hrest := ih fun z hz => hl z (List.mem_cons_of_mem y hz)
    simp only [List.cons_append, evictOldest, hy, if_true, hrest]

theorem makeCacheRoom_of_room {cache : List CacheEntry} (h : cache.length < 8) : makeCacheRoom cache = some cache := if_pos h

theorem makeCacheRoom_of_none {cache : List CacheEntry} (h : 8 ≤ cache.length) (hf : ∀ x ∈ cache, x.isFetching = true) :
    makeCacheRoom cache = none := by
  have hall : cache.all (·.isFetching) = true := List.all_eq_true.mpr hf
  rw [makeCacheRoom, if_neg (Nat.not_lt.mpr h), hall, if_pos rfl]

theorem makeCacheRoom_of_evict {pre post : List CacheEntry} {x : CacheEntry} (h : 8 ≤ (pre ++ x :: post).length)
    (hx : x.isFetching = false) (hpost : ∀ y ∈ post, y.isFetching = true) : makeCacheRoom (pre ++ x :: post) = some (pre ++ post) := by
  have hall : (pre ++ x :: post).all (·.isFetching) = false := by
    rw [List.all_eq_false]
    exact ⟨x, by simp, by simp [hx]⟩
  have hrev : (pre ++ x :: post).reverse = post.reverse ++ x :: pre.reverse := by simp
  rw [makeCacheRoom, if_neg (Nat.not_lt.mpr h), hall, if_neg Bool.false_ne_true, hrev,
    evictOldest_append (fun y hy => hpost y (List.mem_reverse.mp hy)) hx]
  simp

/-- A fetch that is begun with the cache that has room for it. -/
def State.fetching (ahead : Bool) (v : Volume) (k : Nat) (m : MapEntry) (ws : List Nat) (cache : List CacheEntry) (s : State) : State :=
  { s with
    rd := { s.rd with cache := { window := v.window, serial := v.serial, index := k, entry := m, st := .fetching ahead none ws } :: cache }
    port := { s.port with queue := s.port.queue ++
      [{ cls := if ahead then 4 else 2, user := .fetch v.serial k, op := .read, block := m.zone * 4096 + m.off, count := m.len }] } }

theorem beginFetch_eq (ahead : Bool) (v : Volume) (k : Nat) (m : MapEntry) (ws : List Nat) (s : State) :
    s.beginFetch ahead v.window v.serial k m ws = (makeCacheRoom s.rd.cache).map fun cache => s.fetching ahead v k m ws cache := rfl

/-! ### The read-ahead (R107) -/

theorem readAhead_of_not (hm : v.map[k]? = some m) (h : ∀ m', ¬(s.set.work.readAhead = true ∧ block + 1 = m.first + m.count
    ∧ v.map[k + 1]? = some m' ∧ m'.kind ≠ .lost ∧ s.cached v.serial (k + 1) = none)) : s.readAhead v k block = s := by
  unfold State.readAhead
  split
  next e e' he he' =>
    obtain rfl : m = e := Option.some.inj (hm.symm.trans he)
    refine if_neg fun hc => h e' ?_
    simpa [he', and_assoc] using hc
  · rfl

theorem readAhead_of_wanted {m' : MapEntry} (hm : v.map[k]? = some m) (h : s.set.work.readAhead = true ∧ block + 1 = m.first + m.count
    ∧ v.map[k + 1]? = some m' ∧ m'.kind ≠ .lost ∧ s.cached v.serial (k + 1) = none) :
    s.readAhead v k block = ((makeCacheRoom s.rd.cache).map fun cache => s.fetching true v (k + 1) m' [] cache).getD s := by
  obtain ⟨hon, hlast, hm', hkind, hnone⟩ := h
  simp only [State.readAhead, hm, hm']
  rw [if_pos (by simp [hon, hlast, hkind, hnone]), beginFetch_eq]

/-! ### What a read is given -/

theorem deliver_eq (e : TagEntry) (b : Block) (s : State) : s.deliver e b =
    if e.done + 1 = e.count then State.complete e.tag .good none 0 { s with sent := s.sent ++ [.clientData e.tag e.done b] }
    else { s with
      sent := s.sent ++ [.clientData e.tag e.done b]
      client := { s.client with tags := s.client.tags.map fun x =>
        if x.tag = e.tag then { x with done := x.done + 1, wait := .idle } else x } } := by
  unfold State.deliver
  by_cases h : e.done + 1 = e.count
  · rw [if_pos h, if_pos (beq_iff_eq.mpr h)]
    exact complete_modTag (f := fun e => { e with done := e.done + 1, wait := .idle }) (fun _ h => h) .good none 0 _
  · rw [if_neg h, if_neg (by simpa using h)]
    simp only [State.modTag, beq_iff_eq]
    rfl

theorem setWait_eq (t : Nat) (w : ReadWait) (s : State) : s.setWait t w = { s with client := { s.client with
    tags := s.client.tags.map fun x => if x.tag = t then { x with wait := w } else x } } := by
  simp only [State.setWait, State.modTag, beq_iff_eq]

theorem exec_serveBlock {tag : Byte} (hr : s.resetHeld = false) (ht : s.tag tag.toNat = some e) (hp : e.phase = .serving)
    (hw : e.wait = .idle) : exec (.serveBlock tag) s = .next (s.serve e) := by
  show execServeBlock tag s = _
  simp only [execServeBlock, State.serveTag, hr, ht, hp, hw, beq_self_eq_true, Bool.and_self, if_true, Bool.false_eq_true, if_false]

/-! ### The map region (R98, R100, R103) -/

theorem demand_of_loss (h : s.lossFail = true) : s.demand e v k m = s.complete e.tag .unavailable none 0 := by
  simp only [State.demand, h, if_true, State.finish]

theorem demand_of_room {cache : List CacheEntry} (h : s.lossFail = false) (hc : makeCacheRoom s.rd.cache = some cache) :
    s.demand e v k m = (s.fetching false v k m [e.tag] cache).setWait e.tag (.fetch v.serial k) := by
  simp only [State.demand, h, Bool.false_eq_true, if_false, beginFetch_eq, hc, Option.map_some]

theorem demand_of_none (h : s.lossFail = false) (hc : makeCacheRoom s.rd.cache = none) :
    s.demand e v k m = State.setWait e.tag .room { s with rd := { s.rd with roomWait := s.rd.roomWait ++ [e.tag] } } := by
  simp only [State.demand, h, Bool.false_eq_true, if_false, beginFetch_eq, hc, Option.map_none]

theorem uncache_eq (n i : Nat) (s : State) : s.uncache n i = { s with rd := { s.rd with
    cache := s.rd.cache.filter fun y => ¬(y.serial = n ∧ y.index = i) } } := by
  have hfilter : s.rd.cache.filter (fun y => !(y.serial == n && y.index == i)) = s.rd.cache.filter fun y => ¬(y.serial = n ∧ y.index = i) :=
    List.filter_congr fun y _ => by simp [Bool.beq_eq_decide_eq]
  simp only [State.uncache, hfilter]

section
variable {x : CacheEntry} (hx : s.cached v.serial k = some x)
include hx

theorem cached_key : x.serial = v.serial ∧ x.index = k := by
  have h := List.find?_some hx
  simpa using h

theorem serveMapped_of_ready {blocks : List Block} (hst : x.st = .ready blocks) : s.serveMapped e v block k m =
    let u : State := State.deliver e (blocks.getD (block - m.first) zeroBlock) { s with rd := { s.rd with
      cache := x :: s.rd.cache.filter fun y => ¬(y.serial = v.serial ∧ y.index = k) } }
    if e.done + 1 = e.count then u.readAhead v k block else u := by
  obtain ⟨hserial, hindex⟩ := cached_key hx
  have htouch : s.touch x = { s with rd := { s.rd with
      cache := x :: s.rd.cache.filter fun y => ¬(y.serial = v.serial ∧ y.index = k) } } := by
    rw [State.touch, uncache_eq, hserial, hindex]
  simp only [State.serveMapped, hx, hst, htouch, beq_iff_eq]

theorem serveMapped_of_fetching {ahead : Bool} {first : Option FaultClass} {ws : List Nat} (hst : x.st = .fetching ahead first ws)
    (hl : s.lossFail = false) : s.serveMapped e v block k m =
    let u := (s.setFetch v.serial k (.fetching false first (ws ++ [e.tag]))).setWait e.tag (.fetch v.serial k)
    if ahead then u.promote v.serial k else u := by
  simp only [State.serveMapped, hx, hst, hl, Bool.false_eq_true, if_false]

theorem serveMapped_of_fetching_loss {ahead : Bool} {first : Option FaultClass} {ws : List Nat} (hst : x.st = .fetching ahead first ws)
    (hl : s.lossFail = true) : s.serveMapped e v block k m = s.complete e.tag .unavailable none 0 := by
  simp only [State.serveMapped, hx, hst, hl, if_true, State.finish]

theorem serveMapped_of_failed {cls : FaultClass} (hst : x.st = .failed cls) :
    s.serveMapped e v block k m = (s.uncache v.serial k).demand e v k m := by
  simp only [State.serveMapped, hx, hst]

theorem length_uncached : (s.rd.cache.filter fun y => ¬(y.serial = v.serial ∧ y.index = k)).length < s.rd.cache.length := by
  refine List.length_filter_lt_length_iff_exists.mpr ⟨x, List.mem_of_find?_eq_some hx, ?_⟩
  simp [cached_key hx]

end

theorem serveMapped_of_none (hn : s.cached v.serial k = none) (hm : m.kind ≠ .lost) :
    s.serveMapped e v block k m = s.demand e v k m := by
  simp only [State.serveMapped, hn, beq_eq_false_iff_ne.mpr hm, Bool.false_eq_true, if_false]

theorem serveMapped_of_lost (hn : s.cached v.serial k = none) (hm : m.kind = .lost) :
    s.serveMapped e v block k m = s.complete e.tag .storeError none e.done := by
  simp only [State.serveMapped, hn, hm, beq_self_eq_true, if_true, State.readError]

theorem setFetch_eq (n i : Nat) (st : FetchState) (s : State) : s.setFetch n i st = { s with rd := { s.rd with
    cache := s.rd.cache.map fun y => if y.serial = n ∧ y.index = i then { y with st } else y } } := by
  simp only [State.setFetch, Bool.and_eq_true, beq_iff_eq]

/-! ### The regions of a volume (R98 to R100) -/

theorem serve_of_closed (hn : e.serial = some v.serial) (hv : s.volOf v.serial = some v) (hst : v.state = .closed ∨ v.state = .expiring) :
    s.serve e = s.serveClosed e v (e.offset + e.done) := by
  have hc : (v.state == .closed || v.state == .expiring) = true := by simpa using hst
  simp only [State.serve, hn, hv, hc, if_true]
  split <;> rfl

theorem serve_of_open {c : Ctx} (hn : e.serial = some v.serial) (hv : s.volOf v.serial = some v) (h1 : v.state ≠ .closed)
    (h2 : v.state ≠ .expiring) (hc : s.ctx v.window = some c) : s.serve e = s.serveOpen e v c (e.offset + e.done) := by
  have hst : (v.state == .closed || v.state == .expiring) = false := by simp [h1, h2]
  simp only [State.serve, hn, hv, hc, hst, Bool.false_eq_true, if_false]

theorem findEntry_none {block k : Nat} {l : List MapEntry} (h : ∀ m ∈ l, ¬(m.first ≤ block ∧ block < m.first + m.count)) :
    findEntry block k l = none := by
  induction l generalizing k with
  | nil => rfl
  | cons m l ih =>
    have hm := h m List.mem_cons_self
    rw [findEntry, if_neg (by simpa using hm), ih fun x hx => h x (List.mem_cons_of_mem m hx)]

theorem deliverRing_eq (e : TagEntry) (ring : Nat) (b : Block) (s : State) : s.deliverRing e ring b =
    (s.deliver e b).advancePointer ring := rfl

/-- The journal's head, read pointer and ring are as they were after a block is sent. -/
theorem deliver_jr (e : TagEntry) (b : Block) (s : State) : (s.deliver e b).jr.readPtr = s.jr.readPtr
    ∧ (s.deliver e b).jr.head = s.jr.head ∧ (s.deliver e b).ringLen = s.ringLen := by
  rw [deliver_eq]
  split <;> exact ⟨rfl, rfl, rfl⟩

theorem deliverRing_of_other {ring : Nat} (b : Block) (h : s.jr.readPtr % s.ringLen ≠ ring) : s.deliverRing e ring b = s.deliver e b := by
  obtain ⟨hptr, -, hring⟩ := deliver_jr e b s
  rw [deliverRing_eq, advancePointer_eq, hptr, hring, if_neg fun hc => h hc.2]

theorem deliverRing_of_pointer {ring : Nat} (b : Block) (hle : s.jr.readPtr ≤ s.jr.head) (h : s.jr.readPtr % s.ringLen = ring) :
    s.deliverRing e ring b
      = State.drain { s.deliver e b with jr := { (s.deliver e b).jr with readPtr := s.jr.readPtr + 1 } } := by
  obtain ⟨hptr, hhead, hring⟩ := deliver_jr e b s
  rw [deliverRing_eq, advancePointer_eq, hptr, hring, hhead, if_pos ⟨hle, h⟩]

/-- Settles O53. -/
theorem readsAreServedFromTheirRegion : Obligations.ReadsAreServedFromTheirRegion := by
  refine ⟨fun v k block m u hm => ?_, fun tag s e hr ht hp hw => ?_⟩
  · intro asked wanted
    have hwanted (m' : MapEntry) (h : wanted m') := readAhead_of_wanted hm h
    refine ⟨fun h => readAhead_of_not hm h, fun m' h => ⟨fun hlt => ?_, fun hge hall => ?_, fun pre x post hcache hge hx hpost => ?_⟩⟩
    · rw [hwanted m' h, makeCacheRoom_of_room hlt]
      rfl
    · rw [hwanted m' h, makeCacheRoom_of_none hge hall]
      rfl
    · have hroom : makeCacheRoom u.rd.cache = some (pre ++ post) := by
        rw [hcache] at hge ⊢
        exact makeCacheRoom_of_evict hge hx hpost
      rw [hwanted m' h, hroom]
      rfl
  · have htag : e.tag = tag.toNat := tag_tag ht
    have hexec := exec_serveBlock hr ht hp hw
    rw [← htag]
    intro block given gives fails waits
    have hgiven (b : Block) : s.deliver e b = given b := deliver_eq e b s
    have hgives (b : Block) (h : s.serve e = s.deliver e b) : gives b := hexec.trans (congrArg _ (h.trans (hgiven b)))
    have hfails (h : s.serve e = s.complete e.tag .storeError none e.done) : fails := hexec.trans (congrArg _ h)
    have hends (h : s.serve e = s.complete e.tag .unavailable none 0) :
        exec (.serveBlock tag) s = .next (s.complete e.tag .unavailable none 0) := hexec.trans (congrArg _ h)
    have hwaits (w : ReadWait) (u : State) (h : s.serve e = u.setWait e.tag w) (hu : u.client = s.client) : waits w u := by
      refine hexec.trans (congrArg _ (h.trans ?_))
      rw [setWait_eq, hu]
    refine ⟨fun hn hwin => hgives _ ?_, fun n hn hv => hgives _ ?_, fun n v hn hv => ?_, fun hn hwin => ?_⟩
    · simp only [State.serve, hn, beq_eq_false_iff_ne.mpr hwin, Bool.false_eq_true, if_false]
    · simp only [State.serve, hn, hv]
    · obtain rfl := volOf_serial hv
      have hclosed (hst : v.state = .closed ∨ v.state = .expiring) := serve_of_closed hn hv hst
      refine ⟨fun c h1 h2 hc hle => ?_, fun hst hle => hgives _ ?_, fun hst hlt hnone => hfails ?_, fun hregion k m hfind => ?_⟩
      · have hserve : s.serve e = s.serveOpen e v c block := serve_of_open hn hv h1 h2 hc
        rw [State.serveOpen, if_neg (Nat.not_lt.mpr hle)] at hserve
        refine ⟨fun p hp' => ⟨fun hlost => hfails ?_, fun h3 h4 => hgives _ ?_⟩, fun hp' => ⟨fun h3 h4 => hgives _ ?_, fun h3 => hgives _ ?_⟩⟩
        · have hyes : (p.status == .marking || p.hdr.kind == .lost) = true := by simpa using hlost
          simpa only [hp', hyes, if_true, State.readError] using hserve
        · have hno : (p.status == .marking || p.hdr.kind == .lost) = false := by simp [h3, h4]
          simpa only [hp', hno, Bool.false_eq_true, if_false] using hserve
        · have hyes : (decide (c.seg.first ≤ block) && decide (block < v.ingest)) = true := by simp [h3, h4]
          simpa only [hp', hyes, if_true] using hserve
        · have hno : (decide (c.seg.first ≤ block) && decide (block < v.ingest)) = false := by simp [Nat.not_lt.mpr h3]
          simpa only [hp', hno, Bool.false_eq_true, if_false] using hserve
      · rw [hclosed hst, State.serveClosed, if_neg (Nat.not_lt.mpr hle)]
      · rw [hclosed hst, State.serveClosed, if_pos hlt, findEntry_none hnone]
        rfl
      · intro fetching
        have hserve : s.serve e = s.serveMapped e v block k m := by
          rcases hregion with ⟨hst, hlt⟩ | ⟨h1, h2, c, hc, hlt⟩
          · rw [hclosed hst, State.serveClosed, if_pos hlt, hfind]
          · rw [serve_of_open hn hv h1 h2 hc, State.serveOpen, if_pos hlt, hfind]
        have hdemand (h1 : s.cached v.serial k = none) (h2 : m.kind ≠ .lost) : s.serve e = s.demand e v k m :=
          hserve.trans (serveMapped_of_none h1 h2)
        refine ⟨fun h1 h2 => hfails ?_, fun h1 h2 h3 => hends ?_, fun h1 h2 h3 h4 => hwaits _ _ ?_ rfl, fun h1 h2 h3 h4 h5 => hwaits _ _ ?_ rfl,
          fun pre x post h1 h2 h3 h4 h5 h6 h7 => hwaits _ _ ?_ rfl, fun x ahead first ws h1 h2 h3 => hends ?_, fun x first ws h1 h2 h3 => ?_,
          fun x first ws h1 h2 h3 => hwaits _ _ ?_ rfl, fun x cls h1 h2 h3 h4 => hwaits _ _ ?_ rfl, fun x blocks h1 h2 => ?_⟩
        · exact hserve.trans (serveMapped_of_lost h1 h2)
        · exact (hdemand h1 h2).trans (demand_of_loss h3)
        · exact (hdemand h1 h2).trans (demand_of_room h3 (makeCacheRoom_of_room h4))
        · refine (hdemand h1 h2).trans (demand_of_none h3 (makeCacheRoom_of_none h4 fun x hx => ?_))
          obtain ⟨ahead, first, ws, hst⟩ := h5 x hx
          rw [CacheEntry.isFetching, hst]
        · refine (hdemand h1 h2).trans (demand_of_room h3 ?_)
          rw [h5] at h4 ⊢
          exact makeCacheRoom_of_evict h4 h6 h7
        · exact hserve.trans (serveMapped_of_fetching_loss h1 h2 h3)
        · intro ahead
          refine hwaits _ _ ?_ rfl
          rw [hserve, serveMapped_of_fetching h1 h2 h3, setFetch_eq]
          rfl
        · rw [hserve, serveMapped_of_fetching h1 h2 h3, setFetch_eq]
          rfl
        · refine hserve.trans ((serveMapped_of_failed h1 h2).trans ?_)
          rw [uncache_eq]
          exact demand_of_room h3 (makeCacheRoom_of_room (Nat.lt_of_lt_of_le (length_uncached h1) h4))
        · intro u
          refine hexec.trans (congrArg _ (hserve.trans ((serveMapped_of_ready h1 h2).trans ?_)))
          rw [deliver_eq]
          dsimp only
          split <;> rfl
    · have hserve : s.serve e = s.serveJournal e block := by
        simp only [State.serve, hn, hwin, beq_self_eq_true, if_true, block]
      have hin (hlt : block < s.ringLen) : ¬s.ringLen ≤ block := Nat.not_le.mpr hlt
      refine ⟨fun hle => hgives _ ?_, fun hlt hhead hptr => hgives _ ?_, fun hlt hhead hle hptr => ?_, fun hlt hne w hw => ?_,
        fun hlt hne hnone => ?_⟩
      · rw [hserve, State.serveJournal, if_pos hle]
      · rw [hserve, State.serveJournal, if_neg (hin hlt), if_pos (beq_iff_eq.mpr hhead), deliverRing_of_other _ hptr]
      · intro u
        refine hexec.trans (congrArg _ ?_)
        rw [hserve, State.serveJournal, if_neg (hin hlt), if_pos (beq_iff_eq.mpr hhead), deliverRing_of_pointer _ hle hptr, hgiven]
      · intro keeps
        have hkeeps : (w.failed || s.heldBack block) = true ↔ keeps := by
          simp [State.heldBack, State.isHalted, keeps]
        have hsource : s.serve e = if w.failed || s.heldBack block then s.deliverRing e block w.newest
            else if s.lossFail then s.finish e.tag .unavailable else s.setWait e.tag (.journalWrite block) := by
          rw [hserve, State.serveJournal, if_neg (hin hlt), if_neg (by simpa using hne), hw]
        refine ⟨fun hk hptr => hgives _ ?_, fun hk hloss => hends ?_, fun hk hloss => hwaits _ _ ?_ rfl⟩
        · rw [hsource, if_pos (hkeeps.mpr hk), deliverRing_of_other _ hptr]
          rfl
        · rw [hsource, if_neg fun h => hk (hkeeps.mp h), if_pos hloss, State.finish]
        · rw [hsource, if_neg fun h => hk (hkeeps.mp h), hloss, if_neg Bool.false_ne_true]
      · have hfind : s.jr.writes.find? (fun x => x.ring == block) = none :=
          List.find?_eq_none.mpr fun x hx => by simpa using hnone x hx
        have hsource : s.serve e = if s.lossFail then s.finish e.tag .unavailable
            else (s.enqueue (journalReadReq e.tag block)).setWait e.tag (.journalRead block false) := by
          rw [hserve, State.serveJournal, if_neg (hin hlt), if_neg (by simpa using hne), hfind]
        refine ⟨fun hloss => hends ?_, fun hloss => hwaits _ _ ?_ rfl⟩
        · rw [hsource, if_pos hloss, State.finish]
        · rw [hsource, hloss, if_neg Bool.false_ne_true]
          rfl

end Sys2Proof.Machine
end

section
/-! The store's answers to fetches and ring reads (6.3, 6.4): O54. -/

namespace Sys2Proof.Machine

variable {s : State} {tag status : Byte} {field : BitVec 64} {e : StoreEntry} {serial index : Nat} {c : CacheEntry}

/-! ### The rows that end a request of the store -/

/-- The state in which a request's watchdog has run out: the request ABANDONED, the ABORT sent. -/
def State.timedOut (tag : Byte) (s : State) : State := { s with
  sent := s.sent ++ [.storeAbort tag.toNat]
  port := { s.port with table := s.port.table.map fun x => if x.tag = tag.toNat then { x with abandoned := true } else x } }

theorem exec_watchdog (ha : s.Awaits tag e) (hw : e.watchdog ≠ 0) :
    exec (.storeWatchdogExpiry tag) s = .next ((s.timedOut tag).tell e.req.user true (.error ⟨.timeout, 0⟩)) := by
  have hruns : ¬(e.abandoned || e.watchdog == 0) = true := by simp [ha.live, hw]
  have hout : State.send (.storeAbort e.tag) (s.abandon e.tag) = s.timedOut tag := by
    rw [entry_tag ha.found]
    simp only [State.abandon, State.send, State.timedOut, beq_iff_eq]
  show execStoreWatchdogExpiry tag s = _
  rw [execStoreWatchdogExpiry, if_neg (ne_true_of_eq_false ha.released), ha.found]
  dsimp only
  rw [if_neg hruns, if_neg (ne_true_of_eq_false ha.wanted), hout]

theorem outcome_error {status : Byte} (field : BitVec 64) (h : status ≠ 0 ∨ (status = 0 ∧ e.req.op = .read ∧ gather e.got e.req.count = none)) :
    (e.outcome status field.toNat).mapError (·.cls) = .error .medium := by
  rcases h with h | ⟨rfl, hop, hg⟩
  · rw [outcome_failed field.toNat e h]
    rfl
  · rw [outcome_short_read field.toNat hop hg]
    rfl

theorem exec_fetchCompletion (ha : s.Awaits tag e) (hu : e.req.user = .fetch serial index) :
    exec (.fetchCompletion tag status field) s
      = .next ((s.dropEntry tag.toNat).fetchEnds serial index ((e.outcome status field.toNat).mapError (·.cls))) := by
  refine congrArg _ ((completeFor_awaited ha (by rw [hu]; rfl) field).trans ?_)
  rw [hu]
  rfl

theorem exec_journalReadCompletion {t ring : Nat} (ha : s.Awaits tag e) (hu : e.req.user = .journalRead t ring) :
    exec (.journalReadCompletion tag status field) s
      = .next ((s.dropEntry tag.toNat).journalReadEnds t ring ((e.outcome status field.toNat).mapError (·.cls))) := by
  refine congrArg _ ((completeFor_awaited ha (by rw [hu]; rfl) field).trans ?_)
  rw [hu]
  rfl

/-! ### The outcome of a fetch -/

theorem roomPass_of_nil (h : s.rd.roomWait = []) : s.roomPass = s := by
  simp only [State.roomPass, h, each]
  rw [← h]

section
variable {ahead : Bool} {first : Option FaultClass} {ws : List Nat} {cls : FaultClass}
variable (hc : s.cached serial index = some c) (hst : c.st = .fetching ahead first ws)
include hc

theorem cached_keys : c.serial = serial ∧ c.index = index := by
  have h := List.find?_some hc
  simpa using h

include hst

theorem fetchEnds_failed (cls : FaultClass) : s.fetchEnds serial index (.error cls) = s.fetchFailed c ahead first ws cls := by
  simp only [State.fetchEnds, hc, hst]

theorem fetchEnds_check {bs : List Block} (hd : decodeStored c.window serial index c.entry bs = none) :
    s.fetchEnds serial index (.ok bs) = s.fetchFailed c ahead first ws .check := by
  simp only [State.fetchEnds, hc, hst, hd]

theorem fetchEnds_good {bs blocks : List Block} {h : SegHeader} (hd : decodeStored c.window serial index c.entry bs = some (h, blocks)) :
    s.fetchEnds serial index (.ok bs) = s.fetchGood c ahead first ws blocks := by
  simp only [State.fetchEnds, hc, hst, hd]

end

theorem fetchFailed_of_first {ahead : Bool} {ws : List Nat} {cls : FaultClass} (hcls : cls ≠ .linkDown) :
    s.fetchFailed c ahead none ws cls
      = (s.setFetch c.serial c.index (.fetching ahead (some cls) ws)).enqueue (fetchReq ahead c.serial c.index c.entry) := by
  simp only [State.fetchFailed, beq_eq_false_iff_ne.mpr hcls, Bool.false_eq_true, if_false, Option.isNone_none, if_true]

theorem fetchFailed_of_second {ahead : Bool} {first : Option FaultClass} {ws : List Nat} {cls : FaultClass} (hcls : cls ≠ .linkDown)
    (hf : first ≠ none) : s.fetchFailed c ahead first ws cls
      = if ahead = true ∨ ws = [] then (s.setFetch c.serial c.index (.failed cls)).roomPass else (s.demandFailed c cls ws).roomPass := by
  have hfirst : first.isNone = false := by cases first with
    | none => exact absurd rfl hf
    | some _ => rfl
  have hiff : (ahead || ws.isEmpty) = true ↔ ahead = true ∨ ws = [] := by simp
  simp only [State.fetchFailed, beq_eq_false_iff_ne.mpr hcls, Bool.false_eq_true, if_false, hfirst, hiff]

/-- A FAULT entry about a fetched segment (12.4). -/
def fetchEntry (c : CacheEntry) (kind : FaultKind) (cls : FaultClass) (place : Option (Nat × Nat)) : Append :=
  { code := 0x000C, forced := true, body := faultBody (fetchFault c kind cls place) }

theorem appendFault_fetch (kind : FaultKind) (cls : FaultClass) (place : Option (Nat × Nat)) (s : State) :
    s.appendFault (fetchFault c kind cls place) = s.append (fetchEntry c kind cls place) := rfl

theorem demandFailed_eq {t : Nat} {x : TagEntry} {cls : FaultClass} (ht : s.tag t = some x) : s.demandFailed c cls [t]
    = let ended := State.complete t .storeError none x.done { s with rd := { s.rd with
        cache := s.rd.cache.filter fun y => ¬(y.serial = c.serial ∧ y.index = c.index) } }
      if cls = .timeout then ended
      else State.setDamage (State.append (fetchEntry c .readDamage cls (some (c.entry.zone, c.entry.off))) (ended.recordDamage c.window c.serial)) := by
  have hfail : each failWaiter [t] (s.uncache c.serial c.index) = State.complete t .storeError none x.done { s with rd := { s.rd with
        cache := s.rd.cache.filter fun y => ¬(y.serial = c.serial ∧ y.index = c.index) } } := by
    have hlook : (s.uncache c.serial c.index).tag t = some x := ht
    rw [each, each, failWaiter, hlook, ← uncache_eq, ← tag_tag ht]
    rfl
  simp only [State.demandFailed, hfail, beq_iff_eq, appendFault_fetch]

/-! ### Damage (R106) -/

theorem recordDamage_of_none {w n : Nat} (h : s.vol w = none) : s.recordDamage w n = s := by simp only [State.recordDamage, h]

section
variable {w n : Nat} {v : Volume} (hv : s.vol w = some v)
include hv

theorem recordDamage_of_other (h : v.serial ≠ n) : s.recordDamage w n = s := by
  simp only [State.recordDamage, hv, bne_iff_ne.mpr h, if_true]

theorem recordDamage_of_damaged (h : v.serial = n) (hst : v.state = .closed) (ha : v.audit = .damaged) : s.recordDamage w n = s := by
  simp only [State.recordDamage, hv, h, bne_self_eq_false, Bool.false_eq_true, if_false, hst, ha, beq_self_eq_true, if_true]

theorem recordDamage_of_closed (h : v.serial = n) (hst : v.state = .closed) (ha : v.audit ≠ .damaged) :
    s.recordDamage w n = State.callCatalogue w [] { s with vols := s.vols.map fun y =>
      if y.window = w then { y with audit := .damaged, flags := none } else y } := by
  simp only [State.recordDamage, hv, h, bne_self_eq_false, Bool.false_eq_true, if_false, hst, beq_eq_false_iff_ne.mpr ha,
    State.rewriteVol, modVol_eq, damagedRecord]

theorem recordDamage_of_context (h : v.serial = n) (hst : v.state = .opened ∨ v.state = .suspended ∨ v.state = .closing) :
    s.recordDamage w n = { s with vols := s.vols.map fun y => if y.window = w then { y with markDamaged := true } else y } := by
  rcases hst with hst | hst | hst <;>
    simp only [State.recordDamage, hv, h, bne_self_eq_false, Bool.false_eq_true, if_false, hst, modVol_eq]

theorem recordDamage_of_expiring (h : v.serial = n) (hst : v.state = .expiring) : s.recordDamage w n
    = if (∃ q ∈ s.ret.queue, q.window = w ∧ q.serial = n) then
        s.unexpire w n fun y => { y with audit := .damaged, flags := none } else s := by
  have hiff : s.ret.queue.any (fun q => q.window == w && q.serial == n) = true ↔ ∃ q ∈ s.ret.queue, q.window = w ∧ q.serial = n := by
    simp
  simp only [State.recordDamage, hv, h, bne_self_eq_false, Bool.false_eq_true, if_false, hst, hiff]
  rfl

end

/-- Damage touches the volumes, the retention queue, the settings unit and the store's queue. -/
theorem recordDamage_only (w n : Nat) (s : State) : (s.recordDamage w n).rd = s.rd := by
  unfold State.recordDamage
  split
  · rfl
  · split
    · rfl
    · split
      · split
        · rfl
        · exact (congrArg State.rd (callCatalogue_only _ _ _)).trans rfl
      · split
        · exact (congrArg State.rd (callCatalogue_only _ _ _)).trans rfl
        · rfl
      · rfl

/-! ### A segment that has come (R104) -/

/-- An entry whose state has changed leaves with its key. -/
theorem filter_setFetch (n i : Nat) (st : FetchState) (l : List CacheEntry) :
    (l.map fun y => if y.serial = n ∧ y.index = i then { y with st } else y).filter (fun y => ¬(y.serial = n ∧ y.index = i))
      = l.filter fun y => ¬(y.serial = n ∧ y.index = i) := by
  induction l with
  | nil => rfl
  | cons y l ih =>
    rw [List.map_cons, List.filter_cons, List.filter_cons, ih]
    by_cases h : y.serial = n ∧ y.index = i
    · simp [h]
    · simp [h]

/-- The cache holds a READY entry and the others. -/
def State.withReady (c : CacheEntry) (blocks : List Block) (s : State) : State := { s with rd := { s.rd with
  cache := { c with st := .ready blocks } :: s.rd.cache.filter fun y => ¬(y.serial = c.serial ∧ y.index = c.index) } }

theorem serveWaiter_eq {blocks : List Block} {t : Nat} {x : TagEntry} (ht : s.tag t = some x)
    (hc : (s.cached c.serial c.index).isSome = true) : serveWaiter c blocks t s
      = let given := (s.withReady c blocks).deliver x (blocks.getD (x.offset + x.done - c.entry.first) zeroBlock)
        match s.volOf c.serial with
        | some v => if x.done + 1 = x.count then given.readAhead v c.index (x.offset + x.done) else given
        | none => given := by
  have htouch : s.touch { c with st := .ready blocks } = s.withReady c blocks := by
    simp only [State.touch, uncache_eq, State.withReady]
  have hvol : (s.withReady c blocks).volOf c.serial = s.volOf c.serial := rfl
  simp only [serveWaiter, ht, hc, if_true, htouch, beq_iff_eq, hvol] <;> rfl

theorem readAhead_roomWait (v : Volume) (k b : Nat) (s : State) : (s.readAhead v k b).rd.roomWait = s.rd.roomWait := by
  unfold State.readAhead
  split
  next e e' _ _ =>
    split
    · rw [beginFetch_eq]
      cases makeCacheRoom s.rd.cache <;> rfl
    · rfl
  · rfl

theorem complete_roomWait {t : Nat} {st : Status} {r : Option Reason} {n : Nat} (h : s.rd.roomWait = []) :
    (s.complete t st r n).rd.roomWait = [] := by
  show s.rd.roomWait.filter _ = []
  rw [h]
  rfl

theorem deliver_roomWait {x : TagEntry} {b : Block} (h : s.rd.roomWait = []) : (s.deliver x b).rd.roomWait = [] := by
  rw [deliver_eq]
  split
  · exact complete_roomWait h
  · exact h

theorem append_rd {a : Append} (ha : a.who = .nobody) (s : State) : (s.append a).rd = s.rd :=
  (congrArg State.rd (append_nobody ha s)).trans rfl

/-- The state in which the one waiter of a segment that has come is served. -/
def State.segmentCame (c : CacheEntry) (ahead : Bool) (first : Option FaultClass) (blocks : List Block) (s : State) : State :=
  let ready := s.setFetch c.serial c.index (.ready blocks)
  if ahead = false ∧ (first = some .medium ∨ first = some .check) then
    State.append (fetchEntry c .readRecovered (first.getD .medium) none) ready.setStoreFault
  else ready

theorem segmentCame_fields (c : CacheEntry) (ahead : Bool) (first : Option FaultClass) (blocks : List Block) (s : State) :
    (s.segmentCame c ahead first blocks).rd = (s.setFetch c.serial c.index (.ready blocks)).rd
      ∧ (s.segmentCame c ahead first blocks).vols = s.vols ∧ (s.segmentCame c ahead first blocks).client = s.client := by
  unfold State.segmentCame
  split
  · have h := append_nobody (a := fetchEntry c .readRecovered (first.getD .medium) none) rfl (s.setFetch c.serial c.index (.ready blocks)).setStoreFault
    exact ⟨(congrArg State.rd h).trans rfl, (congrArg State.vols h).trans rfl, (congrArg State.client h).trans rfl⟩
  · exact ⟨rfl, rfl, rfl⟩

theorem fetchGood_of_none {ahead : Bool} {first : Option FaultClass} {blocks : List Block} (hr : s.rd.roomWait = []) :
    s.fetchGood c ahead first [] blocks = s.setFetch c.serial c.index (.ready blocks) := by
  simp only [State.fetchGood, List.isEmpty_nil, Bool.not_true, Bool.and_false, Bool.false_and, Bool.false_eq_true, if_false, each]
  exact roomPass_of_nil hr

theorem fetchGood_of_waiter {ahead : Bool} {first : Option FaultClass} {blocks : List Block} {t : Nat} {x : TagEntry}
    (hr : s.rd.roomWait = []) (ht : s.tag t = some x) (hc : s.cached c.serial c.index = some c) :
    s.fetchGood c ahead first [t] blocks
      = let u := s.segmentCame c ahead first blocks
        let given := State.deliver x (blocks.getD (x.offset + x.done - c.entry.first) zeroBlock) { u with rd := { u.rd with
          cache := { c with st := .ready blocks } :: s.rd.cache.filter fun y => ¬(y.serial = c.serial ∧ y.index = c.index) } }
        match s.volOf c.serial with
        | some v => if x.done + 1 = x.count then given.readAhead v c.index (x.offset + x.done) else given
        | none => given := by
  let u := s.segmentCame c ahead first blocks
  let given := State.deliver x (blocks.getD (x.offset + x.done - c.entry.first) zeroBlock) { u with rd := { u.rd with
    cache := { c with st := .ready blocks } :: s.rd.cache.filter fun y => ¬(y.serial = c.serial ∧ y.index = c.index) } }
  obtain ⟨hrd, hvols, hclient⟩ := segmentCame_fields c ahead first blocks s
  have hiff : (!ahead && !List.isEmpty [t] && (first == some .medium || first == some .check)) = true
      ↔ ahead = false ∧ (first = some .medium ∨ first = some .check) := by simp
  have hgood : s.fetchGood c ahead first [t] blocks = (serveWaiter c blocks t u).roomPass := by
    simp only [State.fetchGood, appendFault_fetch, each, u, State.segmentCame]
    rw [if_congr hiff rfl rfl]
  have hcached : (u.cached c.serial c.index).isSome = true := by
    rw [State.cached, show u.rd = _ from hrd, setFetch_eq, List.find?_isSome]
    exact ⟨_, List.mem_map_of_mem (List.mem_of_find?_eq_some hc), by simp⟩
  have hready : u.withReady c blocks = { u with rd := { u.rd with
      cache := { c with st := .ready blocks } :: s.rd.cache.filter fun y => ¬(y.serial = c.serial ∧ y.index = c.index) } } := by
    rw [State.withReady, show u.rd.cache = _ from congrArg (·.cache) hrd, setFetch_eq, filter_setFetch]
  have htag : u.tag t = some x := (congrArg (fun p : ClientPort => p.tags.find? fun y : TagEntry => y.tag == t) hclient).trans ht
  have hvol : u.volOf c.serial = s.volOf c.serial := congrArg (List.find? fun y : Volume => y.serial == c.serial) hvols
  have hserve := serveWaiter_eq (blocks := blocks) htag hcached
  rw [hready, hvol] at hserve
  have hwait : given.rd.roomWait = [] := deliver_roomWait ((congrArg (·.roomWait) hrd).trans hr)
  rw [hgood, hserve]
  refine roomPass_of_nil ?_
  split
  · split
    · exact (readAhead_roomWait _ _ _ _).trans hwait
    · exact hwait
  · exact hwait

/-! ### The outcome of a ring read (R101) -/

theorem serveJournal_of_head {x : TagEntry} {ring : Nat} (h : ring < s.ringLen) (hh : ring = s.headRing) :
    s.serveJournal x ring = s.deliverRing x ring (renderJournal s.jr.head s.jr.buf) := by
  rw [State.serveJournal, if_neg (Nat.not_le.mpr h), if_pos (beq_iff_eq.mpr hh)]

theorem serveJournal_of_write {x : TagEntry} {ring : Nat} {w : JournalWrite} (h : ring < s.ringLen) (hh : ring ≠ s.headRing)
    (hw : s.jr.writes.find? (fun y => y.ring == ring) = some w) : s.serveJournal x ring
      = if w.failed || s.heldBack ring then s.deliverRing x ring w.newest
        else if s.lossFail then s.finish x.tag .unavailable else s.setWait x.tag (.journalWrite ring) := by
  rw [State.serveJournal, if_neg (Nat.not_le.mpr h), if_neg (by simpa using hh), hw]

theorem ringTaken_iff {ring : Nat} : s.ringTaken ring = true ↔ ring = s.headRing ∨ ∃ w ∈ s.jr.writes, w.ring = ring := by
  simp [State.ringTaken]

section
variable {t ring r : Nat} {x : TagEntry} {second : Bool} (ht : s.tag t = some x) (hw : x.wait = .journalRead r second)
include ht hw

theorem journalReadEnds_good (b : Block) : s.journalReadEnds t ring (.ok [b])
    = if s.ringTaken ring then s.serveJournal x ring else s.deliverRing x ring b := by
  simp only [State.journalReadEnds, ht, hw]
  rfl

theorem journalReadEnds_failed {cls : FaultClass} (hcls : cls ≠ .linkDown) : s.journalReadEnds t ring (.error cls)
    = if second then s.complete t .storeError none x.done
      else (s.enqueue (journalReadReq t ring)).setWait t (.journalRead ring true) := by
  have htag := tag_tag ht
  cases cls with
  | linkDown => exact absurd rfl hcls
  | _ => simp only [State.journalReadEnds, ht, hw, State.readError, htag]

end

/-- Settles O54. -/
theorem storeReadsAreDelivered : Obligations.StoreReadsAreDelivered := by
  intro tag field s e ha hop freed gone asks
  have hdrop : s.dropEntry tag.toNat = freed := dropEntry_eq _ _
  refine ⟨fun serial index c ahead first ws hu hc hst hr => ?_, fun t ring x second hu ht hw => ?_⟩
  · intro becomes report failed
    obtain ⟨rfl, rfl⟩ := cached_keys hc
    have hkeys (st : FetchState) (u : State) (hu : u.rd = s.rd) : u.setFetch c.serial c.index st = becomes st u := by
      rw [setFetch_eq]
      simp only [becomes, hu]
    have hcomes (bs : List Block) (hg : gather e.got e.req.count = some bs) :
        exec (.fetchCompletion tag 0 field) s = .next (freed.fetchEnds c.serial c.index (.ok bs)) := by
      rw [exec_fetchCompletion ha hu, hdrop, outcome_good_read _ hop hg]
      rfl
    have hfailed (cls : FaultClass) (row : Instr) (base : State) (h : failed cls row base) :
        exec row s = .next (base.fetchFailed c ahead first ws cls) ∧ cls ≠ .linkDown
          ∧ base.rd = s.rd ∧ base.client = s.client ∧ base.vols = s.vols ∧ base.ret = s.ret := by
      rcases h with ⟨rfl, rfl, status, hstatus, rfl⟩ | ⟨rfl, rfl, rfl, bs, hg, hd⟩ | ⟨rfl, rfl, rfl, hwatch⟩
      · refine ⟨?_, nofun, rfl, rfl, rfl, rfl⟩
        have herr : (e.outcome status field.toNat).mapError (·.cls) = .error .medium := by
          by_cases h0 : status = 0
          · exact outcome_error field (.inr ⟨h0, hop, hstatus.resolve_left (not_not.mpr h0)⟩)
          · exact outcome_error field (.inl h0)
        rw [exec_fetchCompletion ha hu, hdrop, herr, fetchEnds_failed (s := freed) hc hst .medium]
      · refine ⟨?_, nofun, rfl, rfl, rfl, rfl⟩
        rw [hcomes bs hg, fetchEnds_check (s := freed) hc hst hd]
      · refine ⟨?_, nofun, rfl, rfl, rfl, rfl⟩
        have htell : State.tell (.fetch c.serial c.index) true (.error ⟨.timeout, 0⟩) gone = gone.fetchEnds c.serial c.index (.error .timeout) := rfl
        have hgone : s.timedOut tag = gone := rfl
        rw [exec_watchdog ha hwatch, hu, hgone, htell, fetchEnds_failed (s := gone) hc hst .timeout]
    refine ⟨fun bs h blocks hg hd => ⟨fun hws => ?_, fun t x hws ht => ?_⟩, fun cls row base hf => ?_⟩
    · subst hws
      rw [hcomes bs hg, fetchEnds_good (s := freed) hc hst hd, fetchGood_of_none (s := freed) hr, hkeys _ freed rfl]
    · subst hws
      intro block ready recovers u hyes hno given
      have hready : freed.setFetch c.serial c.index (.ready blocks) = ready := hkeys _ freed rfl
      have hcame : freed.segmentCame c ahead first blocks = u := by
        unfold State.segmentCame
        rw [hready]
        by_cases hrec : recovers
        · rw [hyes hrec]
          exact if_pos hrec
        · rw [hno hrec]
          exact if_neg hrec
      have hclient : u.client = s.client := by
        rw [← hcame]
        exact (segmentCame_fields c ahead first blocks freed).2.2
      have hexec : exec (.fetchCompletion tag 0 field) s = .next (freed.fetchGood c ahead first [t] blocks) := by
        rw [hcomes bs hg, fetchEnds_good (s := freed) hc hst hd]
      have htag := tag_tag ht
      have hvolOf : freed.volOf c.serial = s.volOf c.serial := rfl
      have hcached : freed.cached c.serial c.index = some c := hc
      rw [fetchGood_of_waiter (s := freed) hr ht hcached, hcame, hvolOf] at hexec
      simp only [deliver_eq, htag] at hexec
      refine ⟨fun hmore => ?_, fun hlast hv => ?_, fun hlast v hv => ?_⟩
      · rw [hexec]
        cases s.volOf c.serial <;> simp only [hmore, if_false, hclient] <;> rfl
      · rw [hexec, hv]
        simp only [hlast, if_true]
        rfl
      · rw [hexec, hv]
        simp only [hlast, if_true]
        rfl
    · obtain ⟨hexec, hcls, hrd, hclient, hvols, hret⟩ := hfailed cls row base hf
      refine ⟨fun hfirst => ?_, fun hfirst hnone => ?_, fun t x hfirst hahead hws ht => ?_⟩
      · subst hfirst
        rw [hexec, fetchFailed_of_first hcls, hkeys _ base hrd]
        rfl
      · refine hexec.trans (congrArg _ ((fetchFailed_of_second hcls hfirst).trans ((if_pos hnone).trans ?_)))
        rw [hkeys _ base hrd]
        exact roomPass_of_nil (s := becomes (.failed cls) base) ((congrArg (·.roomWait) hrd).trans hr)
      · subst hws
        intro ended ends queued
        have hdemand := demandFailed_eq (c := c) (cls := cls) (s := base) ((congrArg (fun p : ClientPort => p.tags.find? fun y : TagEntry => y.tag == t) hclient).trans ht)
        have hnotahead : ¬(ahead = true ∨ [t] = []) := by simp [hahead]
        rw [fetchFailed_of_second hcls hfirst, if_neg hnotahead, hdemand] at hexec
        have hbase : State.complete t .storeError none x.done { base with rd := { base.rd with
            cache := base.rd.cache.filter fun y => ¬(y.serial = c.serial ∧ y.index = c.index) } } = ended := by rw [hrd]
        have hendedVols : ended.vols = s.vols := hvols
        have hendedRet : ended.ret = s.ret := hret
        have hendedVol (w : Nat) : ended.vol w = s.vol w := congrArg (List.find? fun y : Volume => y.window == w) hendedVols
        have hroom : ended.rd.roomWait = [] := complete_roomWait hr
        simp only [hbase] at hexec
        have hdamage (u : State) (hnot : cls ≠ .timeout) (hrec : ended.recordDamage c.window c.serial = u) : ends u := by
          have hwait : (State.append (fetchEntry c .readDamage cls (some (c.entry.zone, c.entry.off))) u).setDamage.rd.roomWait = [] := by
            refine (congrArg (·.roomWait) (append_rd (a := fetchEntry c .readDamage cls (some (c.entry.zone, c.entry.off))) rfl u)).trans ?_
            rw [← hrec, recordDamage_only]
            exact hroom
          rw [if_neg hnot, hrec, roomPass_of_nil hwait] at hexec
          exact hexec
        refine ⟨fun htime => ?_, fun hnot hv => hdamage _ hnot (recordDamage_of_none ((hendedVol _).trans hv)), fun hnot v hv => ?_⟩
        · rw [hexec, if_pos htime, roomPass_of_nil hroom]
        · have hv' := (hendedVol _).trans hv
          refine ⟨fun hser => hdamage _ hnot (recordDamage_of_other hv' hser), fun hser => ⟨fun hst ha => ?_, fun hst ha => ?_, fun hst => ?_,
            fun hst hq => ?_, fun hst hq => ?_⟩⟩
          · exact hdamage _ hnot (recordDamage_of_damaged hv' hser hst ha)
          · exact hdamage _ hnot ((recordDamage_of_closed hv' hser hst ha).trans (by rw [hendedVols]))
          · exact hdamage _ hnot ((recordDamage_of_context hv' hser hst).trans (by rw [hendedVols]))
          · exact hdamage _ hnot ((recordDamage_of_expiring hv' hser hst).trans (if_pos (hendedRet ▸ hq)))
          · exact hdamage _ hnot ((recordDamage_of_expiring hv' hser hst).trans (if_neg (hendedRet ▸ hq)))
  · have htag := tag_tag ht
    refine ⟨fun b hcount hgot => ?_, fun row base hrow => ?_⟩
    · intro sends
      have hg : gather e.got e.req.count = some [b] := by
        rw [hcount, hgot]
        simp [gather]
      have hexec : exec (.journalReadCompletion tag 0 field) s
          = .next (if freed.ringTaken ring then freed.serveJournal x ring else freed.deliverRing x ring b) := by
        rw [exec_journalReadCompletion ha hu, hdrop, outcome_good_read _ hop hg]
        exact congrArg _ (journalReadEnds_good (s := freed) ht hw b)
      have hsends (b : Block) (h : exec (.journalReadCompletion tag 0 field) s = .next (freed.deliverRing x ring b)) : sends b := by
        rw [deliverRing_eq, deliver_eq, htag] at h
        exact h
      have htaken : freed.ringTaken ring = s.ringTaken ring := rfl
      have hyes (h : ring = s.headRing ∨ ∃ w ∈ s.jr.writes, w.ring = ring) :
          exec (.journalReadCompletion tag 0 field) s = .next (freed.serveJournal x ring) := by
        rw [hexec, htaken, if_pos (ringTaken_iff.mpr h)]
      refine ⟨fun hne hnone => hsends b ?_, fun hlt hhead => hsends _ ?_, fun hlt hne w hfind => ?_⟩
      · rw [hexec, htaken, if_neg]
        rintro h
        rcases ringTaken_iff.mp h with h | ⟨w, hw, hr⟩
        · exact hne h
        · exact hnone w hw hr
      · exact (hyes (.inl hhead)).trans (congrArg _ (serveJournal_of_head (s := freed) hlt hhead))
      · have hmem := List.mem_of_find?_eq_some hfind
        have hring : w.ring = ring := by simpa using List.find?_some hfind
        have hserve := hyes (.inr ⟨w, hmem, hring⟩)
        rw [serveJournal_of_write (s := freed) hlt hne hfind] at hserve
        refine ⟨fun hf hg => hsends _ ?_, fun hf hh hl => ?_⟩
        · have hnew : w.newest = w.content := by rw [JournalWrite.newest, hg]
          rw [hserve, hf, Bool.true_or, if_pos rfl, hnew]
        · have hback : freed.heldBack ring = false := by
            rw [State.heldBack, isHalted_eq_false (s := freed) hh, Bool.false_and]
          have hloss : freed.lossFail = false := hl
          rw [hserve, hf, hback, Bool.or_self, if_neg Bool.false_ne_true, hloss, if_neg Bool.false_ne_true, setWait_eq, htag]
    · have hends : ∃ cls, cls ≠ .linkDown ∧ exec row s = .next (base.journalReadEnds t ring (.error cls)) ∧ base.client = s.client := by
        rcases hrow with ⟨rfl, status, hstatus, rfl⟩ | ⟨rfl, rfl, hwatch⟩
        · refine ⟨.medium, nofun, ?_, rfl⟩
          rw [exec_journalReadCompletion ha hu, hdrop, outcome_error field (.inl hstatus)]
        · refine ⟨.timeout, nofun, ?_, rfl⟩
          have htell : State.tell (.journalRead t ring) true (.error ⟨.timeout, 0⟩) gone = gone.journalReadEnds t ring (.error .timeout) := rfl
          have hgone : s.timedOut tag = gone := rfl
          rw [exec_watchdog ha hwatch, hu, hgone, htell]
      obtain ⟨cls, hcls, hexec, hclient⟩ := hends
      have ht' : base.tag t = some x := (congrArg (fun p : ClientPort => p.tags.find? fun y : TagEntry => y.tag == t) hclient).trans ht
      rw [journalReadEnds_failed ht' hw hcls] at hexec
      refine ⟨fun hsec => ?_, fun hsec => ?_⟩
      · rw [hexec, hsec, if_neg Bool.false_ne_true, setWait_eq, ← hclient]
        rfl
      · rw [hexec, hsec, if_pos rfl]

end Sys2Proof.Machine
end

section
/-! Verifications by patrol and by queue (8.6 to 8.8): O59. -/

namespace Sys2Proof.Machine

variable {s : State} {v : Volume} {m : MapEntry} {index : Nat}

/-! ### A verdict (R137) -/

/-- The VERIFY entry (12.4). -/
def verifyEntry (w serial : Nat) (ref : Option Nat) (d : Verdict) (clean : Nat) (failing : Option (Nat × FaultClass)) (audit : AuditState) :
    Append :=
  { code := 0x000B, body := verifyBody w serial ref d clean failing audit, who := if ref.isSome then .verification else .patrol }

theorem endVerification_eq (w serial : Nat) (ref : Option Nat) (d : Verdict) (clean : Nat) (failing : Option (Nat × FaultClass)) (s : State) :
    s.endVerification w serial ref d clean failing
      = (s.recordVerdict w serial d).append (verifyEntry w serial ref d clean failing ((s.recordVerdict w serial d).auditOf w serial)) := rfl

theorem auditOf_eq {w : Nat} (hv : s.vol w = some v) : s.auditOf w v.serial = v.audit := by
  simp only [State.auditOf, hv, beq_self_eq_true, if_true]

section
variable {w : Nat} {d : Verdict} (hv : s.vol w = some v)
include hv

theorem recordVerdict_of_damaged (hd : d = .damaged ∨ d = .mismatch) (hst : v.state = .closed) (ha : v.audit = .damaged) :
    s.recordVerdict w v.serial d = s.setDamage := by
  have hbad : (d == .damaged || d == .mismatch) = true := by simpa using hd
  simp only [State.recordVerdict, hbad, if_true, hv, hst, ha, beq_self_eq_true, Bool.and_self]

theorem recordVerdict_of_closed (hd : d = .damaged ∨ d = .mismatch) (hst : v.state = .closed) (ha : v.audit ≠ .damaged) :
    s.recordVerdict w v.serial d = (State.callCatalogue w [] { s with vols := s.vols.map fun x =>
      if x.window = w then { x with audit := .damaged, flags := none } else x }).setDamage := by
  have hbad : (d == .damaged || d == .mismatch) = true := by simpa using hd
  simp only [State.recordVerdict, hbad, if_true, hv, hst, beq_eq_false_iff_ne.mpr ha, beq_self_eq_true, Bool.and_self, Bool.false_eq_true,
    if_false, State.rewriteVol, modVol_eq, damagedRecord]

theorem recordVerdict_of_other (hd : ¬(d = .damaged ∨ d = .mismatch) ∨ v.state ≠ .closed) : s.recordVerdict w v.serial d = s := by
  by_cases hbad : (d == .damaged || d == .mismatch) = true
  · have hst := hd.resolve_left fun h => h (by simpa using hbad)
    simp only [State.recordVerdict, hbad, if_true, hv, beq_eq_false_iff_ne.mpr hst, Bool.and_false, Bool.false_eq_true, if_false]
  · rw [State.recordVerdict, if_neg hbad]

end

/-- Settles the first part of O59: what a verdict records and appends. -/
theorem endVerification_cases {w serial clean : Nat} {ref : Option Nat} {d : Verdict} {failing : Option (Nat × FaultClass)}
    (hv : s.vol w = some v) (hs : v.serial = serial) :
    let ends (x : State) (audit : AuditState) : Prop :=
      s.endVerification w serial ref d clean failing = x.append (verifyEntry w serial ref d clean failing audit)
    let bad : Prop := d = .damaged ∨ d = .mismatch
    (bad → v.state = .closed → v.audit = .damaged → ends s.setDamage .damaged)
    ∧ (bad → v.state = .closed → v.audit ≠ .damaged → ends (State.setDamage (State.callCatalogue w []
        { s with vols := s.vols.map fun x => if x.window = w then { x with audit := .damaged, flags := none } else x })) .damaged)
    ∧ (¬bad ∨ v.state ≠ .closed → ends s v.audit) := by
  subst hs
  intro ends bad
  refine ⟨fun hb hst ha => ?_, fun hb hst ha => ?_, fun h => ?_⟩
  · have haudit : s.setDamage.auditOf w v.serial = .damaged := (auditOf_eq (s := s.setDamage) hv).trans ha
    simp only [ends, endVerification_eq, recordVerdict_of_damaged hv hb hst ha, haudit]
  · have hvols : (State.callCatalogue w [] { s with vols := s.vols.map fun x =>
        if x.window = w then { x with audit := .damaged, flags := none } else x }).setDamage.vol w
        = some { v with audit := .damaged, flags := none } := by
      have hmod := vol_modVol w w (fun x => { x with audit := .damaged, flags := none }) (fun _ => rfl) s
      rw [hv, Option.map_some, if_pos (beq_self_eq_true w), modVol_eq] at hmod
      rw [callCatalogue_only]
      exact hmod
    have haudit := auditOf_eq hvols
    simp only [ends, endVerification_eq, recordVerdict_of_closed hv hb hst ha, haudit]
  · simp only [ends, endVerification_eq, recordVerdict_of_other hv h, auditOf_eq hv]

/-! ### Whose turn it is (R138, R139) -/

theorem patrolReady_iff : s.patrolReady = true ↔ s.Runs ∧ s.audit.patrol.timer = true ∧ s.audit.patrol.active = none
    ∧ s.audit.patrol.entryWaits = false ∧ s.audit.current = none ∧ s.audit.queue = [] := by
  have hruns : s.Runs ↔ s.halted = none ∧ s.startup = none ∧ s.resetHeld = false :=
    ⟨fun h => ⟨h.alive, h.started, h.released⟩, fun ⟨h1, h2, h3⟩ => ⟨h3, h1, h2⟩⟩
  rw [hruns]
  simp only [State.patrolReady, State.running, State.isHalted, State.starting, Bool.and_eq_true, Bool.not_eq_true', Option.isSome_eq_false_iff,
    Option.isNone_iff_eq_none, List.isEmpty_iff, and_assoc]

theorem exec_patrolTurn_of_not (h : s.patrolReady = false) : exec .patrolTurn s = .next s := by
  show execPatrolTurn s = _
  rw [execPatrolTurn, h]
  rfl

theorem foldl_lowerWindow (l : List Volume) (acc : Option Volume) :
    (l.foldl lowerWindow acc = none ↔ acc = none ∧ l = [])
    ∧ ∀ u, l.foldl lowerWindow acc = some u → (acc = some u ∨ u ∈ l) ∧ (∀ x ∈ l, u.window ≤ x.window)
      ∧ ∀ x, acc = some x → u.window ≤ x.window := by
  induction l generalizing acc with
  | nil => exact ⟨by simp, fun u h => ⟨.inl h, fun _ hx => absurd hx List.not_mem_nil, fun x hx => by
      rw [List.foldl_nil] at h; rw [hx] at h; rw [Option.some.inj h]⟩⟩
  | cons y l ih =>
    obtain ⟨hnone, hsome⟩ := ih (lowerWindow acc y)
    have hne : lowerWindow acc y ≠ none := by
      cases acc with
      | none => simp [lowerWindow]
      | some x => simp only [lowerWindow]; split <;> simp
    refine ⟨⟨fun h => absurd (hnone.mp h).1 hne, fun h => absurd h.2 (List.cons_ne_nil y l)⟩, fun u hu => ?_⟩
    obtain ⟨hmem, hlow, hacc⟩ := hsome u hu
    cases acc with
    | none =>
      have hy := hacc y rfl
      refine ⟨.inr ?_, fun x hx => ?_, fun x hx => by cases hx⟩
      · rcases hmem with h | h
        · exact List.mem_cons.mpr (.inl (Option.some.inj h).symm)
        · exact List.mem_cons_of_mem y h
      · rcases List.mem_cons.mp hx with rfl | hx
        · exact hy
        · exact hlow x hx
    | some a =>
      simp only [lowerWindow] at hmem hacc
      by_cases hlt : y.window < a.window
      · rw [if_pos hlt] at hmem hacc
        have hy := hacc y rfl
        refine ⟨.inr ?_, fun x hx => ?_, fun x hx => ?_⟩
        · rcases hmem with h | h
          · exact List.mem_cons.mpr (.inl (Option.some.inj h).symm)
          · exact List.mem_cons_of_mem y h
        · rcases List.mem_cons.mp hx with rfl | hx
          · exact hy
          · exact hlow x hx
        · rw [← Option.some.inj hx]
          exact hy.trans hlt.le
      · rw [if_neg hlt] at hmem hacc
        have ha := hacc a rfl
        refine ⟨hmem.imp_right (List.mem_cons_of_mem y), fun x hx => ?_, fun x hx => ?_⟩
        · rcases List.mem_cons.mp hx with rfl | hx
          · exact ha.trans (Nat.not_lt.mp hlt)
          · exact hlow x hx
        · rw [← Option.some.inj hx]
          exact ha

theorem lowest_spec (l : List Volume) : (l.foldl lowerWindow none = none ↔ l = [])
    ∧ ∀ u, l.foldl lowerWindow none = some u → u ∈ l ∧ ∀ x ∈ l, u.window ≤ x.window := by
  obtain ⟨hnone, hsome⟩ := foldl_lowerWindow l none
  refine ⟨by simpa using hnone, fun u hu => ?_⟩
  obtain ⟨hmem, hlow, -⟩ := hsome u hu
  exact ⟨hmem.resolve_left nofun, hlow⟩

theorem nextClosed_spec (w : Nat) (s : State) : (s.nextClosed w = none ↔ ∀ v ∈ s.vols, v.state ≠ .closed)
    ∧ ∀ v, s.nextClosed w = some v → v.state = .closed ∧ v ∈ s.vols
      ∧ ((w < v.window ∧ ∀ x ∈ s.vols, x.state = .closed → w < x.window → v.window ≤ x.window)
        ∨ ∀ x ∈ s.vols, x.state = .closed → x.window ≤ w ∧ v.window ≤ x.window) := by
  have hclosed (x : Volume) : x ∈ s.vols.filter (·.state == .closed) ↔ x ∈ s.vols ∧ x.state = .closed := by simp
  obtain ⟨hall, hlow⟩ := lowest_spec (s.vols.filter (·.state == .closed))
  obtain ⟨habove, hnext⟩ := lowest_spec ((s.vols.filter (·.state == .closed)).filter fun v => w < v.window)
  cases h : ((s.vols.filter (·.state == .closed)).filter fun v => w < v.window).foldl lowerWindow none with
  | some u =>
    have heq : s.nextClosed w = some u := by simp only [State.nextClosed, h]
    obtain ⟨hmem, hmin⟩ := hnext u h
    obtain ⟨hin, hw⟩ := List.mem_filter.mp hmem
    obtain ⟨hvol, hst⟩ := (hclosed u).mp hin
    rw [heq]
    refine ⟨⟨nofun, fun hno => absurd hst (hno u hvol)⟩, fun v hv => ?_⟩
    obtain rfl := Option.some.inj hv
    exact ⟨hst, hvol, .inl ⟨of_decide_eq_true hw, fun x hx hxst hxw =>
      hmin x (List.mem_filter.mpr ⟨(hclosed x).mpr ⟨hx, hxst⟩, decide_eq_true hxw⟩)⟩⟩
  | none =>
    have heq : s.nextClosed w = (s.vols.filter (·.state == .closed)).foldl lowerWindow none := by simp only [State.nextClosed, h]
    rw [heq]
    refine ⟨hall.trans ?_, fun v hv => ?_⟩
    · rw [List.filter_eq_nil_iff]
      exact forall₂_congr fun v _ => by simp
    · obtain ⟨hmem, hmin⟩ := hlow v hv
      obtain ⟨hvol, hst⟩ := (hclosed v).mp hmem
      refine ⟨hst, hvol, .inr fun x hx hxst => ⟨?_, hmin x ((hclosed x).mpr ⟨hx, hxst⟩)⟩⟩
      by_contra hlt
      have hin : x ∈ (s.vols.filter (·.state == .closed)).filter fun v => w < v.window :=
        List.mem_filter.mpr ⟨(hclosed x).mpr ⟨hx, hxst⟩, decide_eq_true (Nat.not_le.mp hlt)⟩
      rw [habove.mp h] at hin
      cases hin

/-! ### The patrol's segment (R135, R138) -/

/-- The patrol's verification of a volume ends with a verdict. -/
def State.patrolJudged (w serial : Nat) (d : Verdict) (n : Nat) (failing : Option (Nat × FaultClass)) (q : Patrol) (s : State) : State :=
  State.endVerification w serial none d n failing { s with audit := { s.audit with patrol :=
    { q with active := none, entryWaits := true, serial := if d = .verified then q.serial else none } } }

theorem endPatrol_eq (w serial : Nat) (d : Verdict) (n : Nat) (failing : Option (Nat × FaultClass)) (s : State) :
    s.endPatrol w serial d n failing = s.patrolJudged w serial d n failing s.audit.patrol := by
  simp only [State.endPatrol, State.modPatrol, State.patrolJudged, beq_iff_eq]

theorem exec_patrolTurn_of_ready (h : s.patrolReady = true) : exec .patrolTurn s = .next (match s.underCursor with
    | none => s.movePatrol
    | some v => if s.audit.patrol.index < v.map.length then s.patrolSegment v s.audit.patrol.index else s.movePatrol) := by
  show execPatrolTurn s = _
  rw [execPatrolTurn, h]
  rfl

theorem underCursor_iff : s.underCursor = some v ↔ s.vol s.audit.patrol.window = some v ∧ v.state = .closed
    ∧ s.audit.patrol.serial = some v.serial := by
  rw [State.underCursor, Option.filter_eq_some_iff]
  simp

/-- The patrol takes up a segment. -/
theorem patrolSegment_eq (v : Volume) (index : Nat) (s : State) : s.patrolSegment v index = match v.map[index]? with
    | none => if v.digest.getD 0 = 0 then s.patrolJudged v.window v.serial .verified 0 none s.audit.patrol
      else s.patrolJudged v.window v.serial .mismatch 0 (some (0, .mismatch)) s.audit.patrol
    | some m => if m.kind = .lost then s.patrolJudged v.window v.serial .lost index (some (index, .lost)) s.audit.patrol
      else { s with
        audit := { s.audit with patrol := { s.audit.patrol with active := some none } }
        port := { s.port with queue := s.port.queue ++
          [{ cls := 5, user := .patrol v.serial index, op := .read, block := m.zone * 4096 + m.off, count := m.len }] } } := by
  unfold State.patrolSegment
  cases v.map[index]? with
  | none => simp only [endPatrol_eq, digestOf, beq_iff_eq]
  | some m =>
    simp only [endPatrol_eq, beq_iff_eq]
    rfl

/-! ### The outcome of a verification read (R135, R136) -/

/-- A segment reads clean from a register: its header's digest is reached, and after the last segment the volume's (R135). -/
def readsClean (v : Volume) (index : Nat) (reg : BitVec 64) (h : SegHeader) (blocks : List Block) : Prop :=
  crc64Run reg blocks.flatten = h.run.digest ∧ (index + 1 = v.map.length → ~~~ h.run.digest = v.digest.getD 0)

section
variable {reg : BitVec 64} {bs blocks : List Block} {h : SegHeader}

theorem readOutcome_of_clean (hd : decodeStored v.window v.serial index m bs = some (h, blocks)) (hc : readsClean v index reg h blocks) :
    readOutcome v index m reg (.ok bs) = .ok h.run.digest := by
  obtain ⟨hrun, hlast⟩ := hc
  simp only [readOutcome, checkSegment, hd, hrun, bne_self_eq_false, Bool.false_eq_true, if_false]
  refine if_neg fun hno => ?_
  simp only [Bool.and_eq_true, beq_iff_eq, bne_iff_ne, digestOf] at hno
  exact hno.2 (hlast hno.1)

theorem readOutcome_of_unclean (hd : decodeStored v.window v.serial index m bs = some (h, blocks)) (hc : ¬readsClean v index reg h blocks) :
    readOutcome v index m reg (.ok bs) = .error .mismatch := by
  simp only [readOutcome, checkSegment, hd]
  by_cases hrun : crc64Run reg blocks.flatten = h.run.digest
  · have hlast : index + 1 = v.map.length ∧ ~~~ h.run.digest ≠ v.digest.getD 0 := by
      by_contra hno
      exact hc ⟨hrun, fun hl => by_contra fun hne => hno ⟨hl, hne⟩⟩
    rw [if_neg (by simpa using hrun), if_pos]
    simp only [hrun, Bool.and_eq_true, beq_iff_eq, bne_iff_ne, digestOf]
    exact hlast
  · rw [if_pos (bne_iff_ne.mpr hrun)]

theorem readOutcome_of_check (hd : decodeStored v.window v.serial index m bs = none) : readOutcome v index m reg (.ok bs) = .error .check := by
  simp only [readOutcome, checkSegment, hd]

end

/-- The verdict that a second failure gives. -/
def secondVerdict (cls : FaultClass) : Verdict := if cls = .timeout then .incomplete else .damaged

theorem judge_of_failed {first : Option FaultClass} {cls : FaultClass} (h : cls = .medium ∨ cls = .check ∨ cls = .timeout) :
    judge first (.error cls) = if first = none then .again cls else .verdict (secondVerdict cls) cls := by
  rcases h with rfl | rfl | rfl <;> cases first <;> rfl

/-- A clean second attempt after MEDIUM or CHECK sets STORE_FAULT and appends RECOVERED. -/
theorem readRecovered_eq (v : Volume) (index : Nat) (m : MapEntry) (first : Option FaultClass) (s : State) :
    s.readRecovered v index m first = if first = some .medium ∨ first = some .check then
      State.append
        { code := 0x000C, forced := true, body := faultBody { kind := .readRecovered, cls := first.getD .medium
                                                              vol := some (v.window, v.serial), seg := some (index, m.first, m.count) } }
        { s with latched := { s.latched with storeFault := true } } else s := by
  cases first with
  | none => rfl
  | some cls => cases cls <;> rfl

theorem readRecovered_audit (v : Volume) (index : Nat) (m : MapEntry) (first : Option FaultClass) (s : State) :
    (s.readRecovered v index m first).audit = s.audit := by
  rw [readRecovered_eq]
  split
  · exact (congrArg State.audit (append_nobody rfl _)).trans rfl
  · rfl

/-! ### The patrol's reads -/

section
variable {first : Option FaultClass} (hh : s.halted = none) (hi : s.audit.patrol.index = index) (hv : s.vol s.audit.patrol.window = some v)
  (hst : v.state = .closed) (hs : s.audit.patrol.serial = some v.serial) (ha : s.audit.patrol.active = some first) (hm : v.map[index]? = some m)
include hh hi hv hst hs ha hm

theorem patrolReadEnds_eq (out : Except FaultClass (List Block)) : s.patrolReadEnds v.serial index out
    = s.patrolOutcome v index m first (readOutcome v index m s.audit.patrol.reg out) := by
  have hcur : s.underCursor = some v := underCursor_iff.mpr ⟨hv, hst, hs⟩
  simp only [State.patrolReadEnds, ha, isHalted_eq_false hh, hs, hi, bne_self_eq_false, Bool.or_self, Bool.false_eq_true, if_false, hcur, hm]

theorem patrolReadEnds_of_clean {bs blocks : List Block} {h : SegHeader} (hd : decodeStored v.window v.serial index m bs = some (h, blocks))
    (hc : readsClean v index s.audit.patrol.reg h blocks) :
    s.patrolReadEnds v.serial index (.ok bs)
      = let on : Patrol := { s.audit.patrol with active := none, index := index + 1, reg := h.run.digest }
        let u := s.readRecovered v index m first
        if index + 1 = v.map.length then u.patrolJudged s.audit.patrol.window v.serial .verified (index + 1) none on
        else { u with audit := { s.audit with patrol := on } } := by
  have haudit := readRecovered_audit v index m first s
  rw [patrolReadEnds_eq hh hi hv hst hs ha hm, readOutcome_of_clean hd hc]
  simp only [State.patrolOutcome, judge, State.modPatrol, haudit, beq_iff_eq, endPatrol_eq, ← vol_window hv]
  split
  · simp only [State.patrolJudged, haudit]
  · rfl

theorem patrolReadEnds_of_unclean {bs blocks : List Block} {h : SegHeader} (hd : decodeStored v.window v.serial index m bs = some (h, blocks))
    (hc : ¬readsClean v index s.audit.patrol.reg h blocks) :
    s.patrolReadEnds v.serial index (.ok bs)
      = s.patrolJudged s.audit.patrol.window v.serial .mismatch index (some (index, .mismatch)) s.audit.patrol := by
  rw [patrolReadEnds_eq hh hi hv hst hs ha hm, readOutcome_of_unclean hd hc]
  simp only [State.patrolOutcome, judge, endPatrol_eq, vol_window hv]

theorem patrolReadEnds_of_down : s.patrolReadEnds v.serial index (.error .linkDown)
    = s.patrolJudged s.audit.patrol.window v.serial .incomplete index (some (index, .linkDown)) s.audit.patrol := by
  rw [patrolReadEnds_eq hh hi hv hst hs ha hm]
  simp only [readOutcome, State.patrolOutcome, judge, endPatrol_eq, vol_window hv]

theorem patrolReadEnds_of_failed {cls : FaultClass} {out : Except FaultClass (List Block)} (hcls : cls = .medium ∨ cls = .check ∨ cls = .timeout)
    (hout : readOutcome v index m s.audit.patrol.reg out = .error cls) : s.patrolReadEnds v.serial index out
      = if first = none then { s with
          audit := { s.audit with patrol := { s.audit.patrol with active := some (some cls) } }
          port := { s.port with queue := s.port.queue ++
            [{ cls := 5, user := .patrol v.serial index, op := .read, block := m.zone * 4096 + m.off, count := m.len }] } }
        else s.patrolJudged s.audit.patrol.window v.serial (secondVerdict cls) index (some (index, cls)) s.audit.patrol := by
  rw [patrolReadEnds_eq hh hi hv hst hs ha hm, hout, State.patrolOutcome, judge_of_failed hcls]
  split
  next hj =>
    split at hj
    next hf => obtain rfl := Attempt.again.inj hj; rw [if_pos hf]; rfl
    next => cases hj
  next hj =>
    split at hj
    next => cases hj
    next hf =>
      obtain ⟨rfl, rfl⟩ := Attempt.verdict.inj hj
      rw [if_neg hf, endPatrol_eq, vol_window hv]
  next hj => split at hj <;> cases hj

end

/-! ### The verify queue (R142) -/

/-- The verification in progress ends with a verdict. -/
def State.queueJudged (c : Verification) (d : Verdict) (n : Nat) (failing : Option (Nat × FaultClass)) (x : Verification) (s : State) : State :=
  State.endVerification c.window c.serial (some c.ref) d n failing { s with audit := { s.audit with current := some { x with entryWaits := true } } }

variable {c : Verification}

theorem endQueued_eq {x : Verification} (hx : s.audit.current = some x) (c : Verification) (d : Verdict) (n : Nat)
    (failing : Option (Nat × FaultClass)) : s.endQueued c d n failing = s.queueJudged c d n failing x := by
  simp only [State.endQueued, State.modCurrent, hx, Option.map_some, State.queueJudged]

/-- The verification in progress takes up a segment, or ends behind the last. -/
theorem verifySegment_eq {x : Verification} (hx : s.audit.current = some x) (c : Verification) (v : Volume) (index : Nat) :
    s.verifySegment c v index = match v.map[index]? with
      | none => if index = 0 ∧ v.digest.getD 0 ≠ 0 then s.queueJudged c .mismatch 0 (some (0, .mismatch)) x
        else s.queueJudged c .verified index none x
      | some m => if m.kind = .lost then s.queueJudged c .lost index (some (index, .lost)) x
        else { s with port := { s.port with queue := s.port.queue ++
          [{ cls := 5, user := .queueVerify c.serial index, op := .read, block := m.zone * 4096 + m.off, count := m.len }] } } := by
  unfold State.verifySegment
  cases v.map[index]? with
  | none => simp only [endQueued_eq hx, digestOf, Bool.and_eq_true, beq_iff_eq, bne_iff_ne]
  | some m =>
    simp only [endQueued_eq hx, beq_iff_eq]
    rfl

section
variable (hh : s.halted = none) (hc : s.audit.current = some c) (hi : c.index = index) (hs : c.serial = v.serial)
  (hv : s.vol c.window = some v) (he : c.entryWaits = false) (hm : v.map[index]? = some m)
include hh hc hi hs hv he hm

theorem queueReadEnds_eq (out : Except FaultClass (List Block)) : s.queueReadEnds v.serial index out
    = s.queueOutcome c v m (readOutcome v index m c.reg out) := by
  simp only [State.queueReadEnds, hc, isHalted_eq_false hh, hs, hi, he, bne_self_eq_false, Bool.or_self, Bool.false_eq_true, if_false, hv, hm]

theorem queueReadEnds_of_clean {bs blocks : List Block} {h : SegHeader} (hd : decodeStored v.window v.serial index m bs = some (h, blocks))
    (hclean : readsClean v index c.reg h blocks) :
    s.queueReadEnds v.serial index (.ok bs)
      = let on : Verification := { c with index := index + 1, reg := h.run.digest, firstFail := none }
        let u := s.readRecovered v index m c.firstFail
        State.verifySegment on v (index + 1) { u with audit := { s.audit with current := some on } } := by
  have haudit := readRecovered_audit v index m c.firstFail s
  rw [queueReadEnds_eq hh hc hi hs hv he hm, readOutcome_of_clean hd hclean]
  simp only [State.queueOutcome, judge, State.modCurrent, hi, haudit, hc, Option.map_some]

theorem queueReadEnds_of_unclean {bs blocks : List Block} {h : SegHeader} (hd : decodeStored v.window v.serial index m bs = some (h, blocks))
    (hclean : ¬readsClean v index c.reg h blocks) :
    s.queueReadEnds v.serial index (.ok bs) = s.queueJudged c .mismatch index (some (index, .mismatch)) c := by
  rw [queueReadEnds_eq hh hc hi hs hv he hm, readOutcome_of_unclean hd hclean]
  simp only [State.queueOutcome, judge, endQueued_eq hc, hi]

theorem queueReadEnds_of_down : s.queueReadEnds v.serial index (.error .linkDown)
    = s.queueJudged c .incomplete index (some (index, .linkDown)) c := by
  rw [queueReadEnds_eq hh hc hi hs hv he hm]
  simp only [readOutcome, State.queueOutcome, judge, endQueued_eq hc, hi]

theorem queueReadEnds_of_failed {cls : FaultClass} {out : Except FaultClass (List Block)} (hcls : cls = .medium ∨ cls = .check ∨ cls = .timeout)
    (hout : readOutcome v index m c.reg out = .error cls) : s.queueReadEnds v.serial index out
      = if c.firstFail = none then { s with
          audit := { s.audit with current := some { c with firstFail := some cls } }
          port := { s.port with queue := s.port.queue ++
            [{ cls := 5, user := .queueVerify v.serial index, op := .read, block := m.zone * 4096 + m.off, count := m.len }] } }
        else s.queueJudged c (secondVerdict cls) index (some (index, cls)) c := by
  rw [queueReadEnds_eq hh hc hi hs hv he hm, hout, State.queueOutcome, judge_of_failed hcls]
  split
  next hj =>
    split at hj
    next hf =>
      obtain rfl := Attempt.again.inj hj
      have hreq : verifyReq (.queueVerify c.serial c.index) m = verifyReq (.queueVerify v.serial index) m := by rw [hs, hi]
      rw [if_pos hf, hreq, State.modCurrent, State.enqueue, hc]
      rfl
    next => cases hj
  next hj =>
    split at hj
    next => cases hj
    next hf =>
      obtain ⟨rfl, rfl⟩ := Attempt.verdict.inj hj
      rw [if_neg hf, endQueued_eq hc, hi]
  next hj => split at hj <;> cases hj

end

/-! ### The rows that end a verification's read -/

section
variable {tag status : Byte} {field : BitVec 64} {e : StoreEntry} {serial : Nat}

theorem exec_patrolRead (ha : s.Awaits tag e) (hu : e.req.user = .patrol serial index) :
    exec (.verificationReadCompletion tag status field) s
      = .next ((s.dropEntry tag.toNat).patrolReadEnds serial index ((e.outcome status field.toNat).mapError (·.cls))) := by
  refine congrArg _ ((completeFor_awaited ha (by rw [hu]; rfl) field).trans ?_)
  rw [hu]
  rfl

theorem exec_queueRead (ha : s.Awaits tag e) (hu : e.req.user = .queueVerify serial index) :
    exec (.verificationReadCompletion tag status field) s
      = .next ((s.dropEntry tag.toNat).queueReadEnds serial index ((e.outcome status field.toNat).mapError (·.cls))) := by
  refine congrArg _ ((completeFor_awaited ha (by rw [hu]; rfl) field).trans ?_)
  rw [hu]
  rfl

/-- At the store link's DOWN a read tells its user (5.10). -/
theorem entryDown_of_read (ha : s.Awaits tag e) (hop : e.req.op = .read) :
    entryDown e s = s.tell e.req.user false (.error ⟨.linkDown, 0⟩) := by
  simp only [entryDown, ha.live, ha.wanted, hop, Bool.false_eq_true, if_false]
  rfl

end

/-- Settles O59. -/
theorem verificationsFollowTheDigest : Obligations.VerificationsFollowTheDigest := by
  refine ⟨fun w serial clean ref d failing u v hv hs => ?_, fun s => patrolReady_iff, fun s => exec_patrolTurn_of_not, nextClosed_spec,
    fun s hready => ?_, fun s q rest v hruns hcur hqueue hv hs => ?_, fun tag field s e v m index ha hh hop hm => ?_,
    fun tag status field s e serial index ha => ?_⟩
  · intro code ends found bad
    obtain ⟨h1, h2, h3⟩ := endVerification_cases (clean := clean) (ref := ref) (d := d) (failing := failing) hv hs
    have hentry (audit : AuditState) : verifyEntry w serial ref d clean failing audit
        = { code := 0x000B, who := if ref = none then .patrol else .verification
            body := be 2 w ++ be 4 serial ++ [if ref = none then 0 else 1] ++ be 4 (ref.getD 0) ++ be 1 code ++ be 4 clean
              ++ optBytes 5 (failing.map fun p => be 4 p.1 ++ be 1 p.2.code) ++ be 1 audit.code } := by
      simp only [verifyEntry, verifyBody, boolByte, code]
      cases ref <;> cases d <;> rfl
    simp only [hentry] at h1 h2 h3
    have hfound (x : State) (hx : x.latched = u.latched) : x.setDamage = found x := by simp only [State.setDamage, found, hx]
    have hlatched : (State.callCatalogue w [] { u with vols := u.vols.map fun x =>
        if x.window = w then { x with audit := .damaged, flags := none } else x }).latched = u.latched :=
      (congrArg State.latched (callCatalogue_only _ _ _)).trans rfl
    rw [hfound _ hlatched] at h2
    exact ⟨h1, h2, h3⟩
  · intro p takes
    have hexec := exec_patrolTurn_of_ready hready
    have htakes (v : Volume) (index : Nat) (q : Patrol) (hq : q.window = v.window)
        (h : exec .patrolTurn s = .next (State.patrolSegment v index { s with audit := { s.audit with patrol := q } }))
        (hin : v.map[index]? = none → index = 0) : takes v.serial index (v.digest.getD 0) v.map[index]? q := by
      rw [patrolSegment_eq, ← hq] at h
      refine ⟨_, h, ?_⟩
      cases hmi : v.map[index]? with
      | none =>
        rw [hin hmi]
        dsimp only
        split <;> rfl
      | some m =>
        dsimp only
        split <;> rfl
    have hmove (hno : ∀ v, s.vol p.window = some v → v.state ≠ .closed ∨ p.serial ≠ some v.serial ∨ v.map.length ≤ p.index) :
        exec .patrolTurn s = .next s.movePatrol := by
      rw [hexec]
      cases hcur : s.underCursor with
      | none => rfl
      | some v =>
        obtain ⟨hv, hst, hs⟩ := underCursor_iff.mp hcur
        have hlen := ((hno v hv).resolve_left (not_not.mpr hst)).resolve_left (not_not.mpr hs)
        exact congrArg _ (if_neg (Nat.not_lt.mpr hlen))
    refine ⟨fun v m hv hst hs hm => ?_, fun hno => ⟨fun hnone => ?_, fun v hnext => ?_⟩⟩
    · have hcur : s.underCursor = some v := underCursor_iff.mpr ⟨hv, hst, hs⟩
      have hlt : p.index < v.map.length := (List.getElem?_eq_some_iff.mp hm).1
      rw [hcur] at hexec
      have h := htakes v p.index p (vol_window hv).symm (hexec.trans (congrArg _ (if_pos hlt))) (fun hn => by rw [hm] at hn; cases hn)
      rw [hm] at h
      obtain ⟨t, ht, hcase⟩ := h
      exact ⟨t, ht, hcase⟩
    · have hnone' : s.nextClosed s.audit.patrol.window = none := hnone
      rw [hmove hno]
      simp only [State.movePatrol, hnone', State.modPatrol]
      rfl
    · refine htakes v 0 _ rfl ?_ fun _ => rfl
      have hnext' : s.nextClosed s.audit.patrol.window = some v := hnext
      rw [hmove hno]
      simp only [State.movePatrol, hnext', State.modPatrol]
      rfl
  · intro c begun judged
    have hok : (s.running && !s.resetHeld && v.serial == q.serial) = true := by
      simp [State.running, State.isHalted, State.starting, hruns.alive, hruns.started, hruns.released, hs]
    have hexec : exec .queueVerificationBegin s = .next (State.verifySegment c v 0 (begun c)) := by
      show execQueueVerificationBegin s = _
      simp only [execQueueVerificationBegin, hcur, hqueue, hv, hok, if_true, modVol_eq]
      rfl
    rw [verifySegment_eq (x := c) rfl] at hexec
    refine ⟨fun m hm hk => ?_, fun m hm hk => ?_, fun hmap hd => ?_, fun hmap hd => ?_⟩
    · rw [hexec, hm]
      exact congrArg _ (if_neg hk)
    · show exec _ s = _
      rw [hexec, hm]
      exact congrArg _ (if_pos hk)
    · show exec _ s = _
      rw [hexec, hmap]
      exact congrArg _ (if_neg fun h => h.2 hd)
    · show exec _ s = _
      rw [hexec, hmap]
      exact congrArg _ (if_pos ⟨rfl, hd⟩)
  · intro freed gone again row read failed second clean recovered
    have hdrop : s.dropEntry tag.toNat = freed := dropEntry_eq _ _
    have hgot {bs : List Block} (hg : gather e.got e.req.count = some bs) :
        (e.outcome 0 field.toNat).mapError (·.cls) = .ok bs := by
      rw [outcome_good_read _ hop hg]
      rfl
    have hrecovered (first : Option FaultClass) : freed.readRecovered v index m first = recovered first := readRecovered_eq v index m first freed
    have hfails (reg : BitVec 64) (ends : State → Except FaultClass (List Block) → State)
        (hrow : ∀ status, exec (.verificationReadCompletion tag status field) s
          = .next (ends freed ((e.outcome status field.toNat).mapError (·.cls))))
        (htime : e.watchdog ≠ 0 → exec (.storeWatchdogExpiry tag) s = .next (ends gone (.error .timeout)))
        (cls : FaultClass) (row : Instr) (base : State) (h : failed cls row base) :
        ∃ out, exec row s = .next (ends base out) ∧ readOutcome v index m reg out = .error cls
          ∧ (cls = .medium ∨ cls = .check ∨ cls = .timeout) ∧ (base = freed ∨ base = gone) := by
      rcases h with ⟨rfl, rfl, status, hstatus, rfl⟩ | ⟨rfl, rfl, rfl, bs, hg, hd⟩ | ⟨rfl, rfl, rfl, hwatch⟩
      · have herr : (e.outcome status field.toNat).mapError (·.cls) = .error .medium := by
          by_cases h0 : status = 0
          · exact outcome_error field (.inr ⟨h0, hop, hstatus.resolve_left (not_not.mpr h0)⟩)
          · exact outcome_error field (.inl h0)
        exact ⟨.error .medium, herr ▸ hrow status, rfl, .inl rfl, .inl rfl⟩
      · exact ⟨.ok bs, hgot hg ▸ hrow 0, readOutcome_of_check hd, .inr (.inl rfl), .inl rfl⟩
      · exact ⟨.error .timeout, htime hwatch, rfl, .inr (.inr rfl), .inr rfl⟩
    refine ⟨?patrol, fun c hc hu hi hs hv he => ?queue⟩
    case patrol =>
      intro first p hu hi hv hst hs ha' turned judged
      have hrow (status : Byte) := exec_patrolRead (status := status) (field := field) ha hu
      rw [hdrop] at hrow
      have hgood {bs : List Block} (hg : gather e.got e.req.count = some bs) : exec row s = .next (freed.patrolReadEnds v.serial index (.ok bs)) :=
        (hgot hg) ▸ hrow 0
      refine ⟨fun h blocks hread => ?_, fun cls row base hf => ?_, ?_⟩
      · obtain ⟨bs, hg, hd⟩ := hread
        intro on
        have hclean (hcl : clean p.reg h blocks) := (hgood hg).trans (congrArg _
          (patrolReadEnds_of_clean (s := freed) hh hi hv hst hs ha' hm hd hcl))
        rw [hrecovered] at hclean
        refine ⟨fun hcl hlt => ?_, fun hcl hlast => ?_, fun hcl => ?_⟩
        · exact (hclean hcl).trans (congrArg _ (if_neg (Nat.ne_of_lt hlt)))
        · refine (hclean hcl).trans (congrArg _ ((if_pos hlast).trans ?_))
          have haudit : (recovered first).audit = s.audit := by
            rw [← hrecovered]
            exact readRecovered_audit v index m first freed
          simp only [State.patrolJudged, judged, turned, haudit]
          rfl
        · exact (hgood hg).trans (congrArg _ (patrolReadEnds_of_unclean (s := freed) hh hi hv hst hs ha' hm hd hcl))
      · obtain ⟨out, hexec, hout, hcls, hbase⟩ := hfails p.reg (fun u o => u.patrolReadEnds v.serial index o) hrow
          (fun hwatch => by rw [exec_watchdog ha hwatch, hu]; rfl) cls row base hf
        have hends : base.patrolReadEnds v.serial index out = if first = none then again (.patrol v.serial index) (turned { p with active := some (some cls) } base)
            else judged (second cls) index (some (index, cls)) p base := by
          rcases hbase with rfl | rfl
          · exact patrolReadEnds_of_failed (s := freed) hh hi hv hst hs ha' hm hcls hout
          · exact patrolReadEnds_of_failed (s := gone) hh hi hv hst hs ha' hm hcls hout
        exact ⟨fun hfirst => hexec.trans (congrArg _ (hends.trans (if_pos hfirst))),
          fun hfirst => hexec.trans (congrArg _ (hends.trans (if_neg hfirst)))⟩
      · rw [entryDown_of_read ha hop, hu]
        exact patrolReadEnds_of_down hh hi hv hst hs ha' hm
    case queue =>
      intro turned judged
      have hrow (status : Byte) := exec_queueRead (status := status) (field := field) ha hu
      rw [hdrop] at hrow
      have hgood {bs : List Block} (hg : gather e.got e.req.count = some bs) : exec row s = .next (freed.queueReadEnds v.serial index (.ok bs)) :=
        (hgot hg) ▸ hrow 0
      refine ⟨fun h blocks hread => ?_, fun cls row base hf => ?_, ?_⟩
      · obtain ⟨bs, hg, hd⟩ := hread
        intro on u
        have hclean (hcl : clean c.reg h blocks) := (hgood hg).trans (congrArg _
          (queueReadEnds_of_clean (s := freed) hh hc hi hs hv he hm hd hcl))
        rw [hrecovered] at hclean
        replace hclean (hcl : clean c.reg h blocks) : exec row s = .next (State.verifySegment on v (index + 1) (turned on u)) := hclean hcl
        rw [verifySegment_eq (s := turned on u) (x := on) rfl on] at hclean
        refine ⟨fun hcl hlast => ?_, fun hcl m' hm' => ⟨fun hk => ?_, fun hk => ?_⟩, fun hcl => ?_⟩
        · have hnone : v.map[index + 1]? = none := List.getElem?_eq_none (by omega)
          rw [hnone] at hclean
          exact (hclean hcl).trans (congrArg _ (if_neg fun h => Nat.succ_ne_zero index h.1))
        · rw [hm'] at hclean
          exact (hclean hcl).trans (congrArg _ (if_pos hk))
        · intro x
          rw [hm'] at hclean
          have hserial : on.serial = v.serial := hs
          refine (hclean hcl).trans (congrArg _ ((if_neg hk).trans ?_))
          rw [hserial]
        · exact (hgood hg).trans (congrArg _ (queueReadEnds_of_unclean (s := freed) hh hc hi hs hv he hm hd hcl))
      · obtain ⟨out, hexec, hout, hcls, hbase⟩ := hfails c.reg (fun u o => u.queueReadEnds v.serial index o) hrow
          (fun hwatch => by rw [exec_watchdog ha hwatch, hu]; rfl) cls row base hf
        have hends : base.queueReadEnds v.serial index out = if c.firstFail = none then
              again (.queueVerify v.serial index) (turned { c with firstFail := some cls } base)
            else judged (second cls) index (some (index, cls)) c base := by
          rcases hbase with rfl | rfl
          · exact queueReadEnds_of_failed (s := freed) hh hc hi hs hv he hm hcls hout
          · exact queueReadEnds_of_failed (s := gone) hh hc hi hs hv he hm hcls hout
        exact ⟨fun hfirst => hexec.trans (congrArg _ (hends.trans (if_pos hfirst))),
          fun hfirst => hexec.trans (congrArg _ (hends.trans (if_neg hfirst)))⟩
      · rw [entryDown_of_read ha hop, hu]
        exact queueReadEnds_of_down hh hc hi hs hv he hm
  · intro freed row p
    have hdrop : s.dropEntry tag.toNat = freed := dropEntry_eq _ _
    refine ⟨fun hh hu => ?_, fun hh hu hact hs hi hno => ?_⟩
    · have hh' : freed.isHalted = true := hh
      rcases hu with hu | hu
      · show exec _ s = _
        rw [exec_patrolRead ha hu, hdrop, State.patrolReadEnds]
        cases freed.audit.patrol.active with
        | none => rfl
        | some first => simp only [hh', Bool.true_or, if_true]
      · show exec _ s = _
        rw [exec_queueRead ha hu, hdrop, State.queueReadEnds]
        cases freed.audit.current with
        | none => rfl
        | some c => simp only [hh', Bool.true_or, if_true]
    · subst hi
      obtain ⟨first, hfirst⟩ := Option.isSome_iff_exists.mp hact
      have hcur : freed.underCursor = none := by
        by_contra hne
        obtain ⟨v, hv⟩ := Option.ne_none_iff_exists'.mp hne
        obtain ⟨hvol, hst, hser⟩ := underCursor_iff.mp hv
        rcases hno v hvol with h | h
        · exact h hst
        · exact h (Option.some.inj (hser.symm.trans hs))
      have hact' : freed.audit.patrol.active = some first := hfirst
      have hser : freed.audit.patrol.serial = some serial := hs
      have hidx : freed.audit.patrol.index = p.index := rfl
      show exec _ s = _
      rw [exec_patrolRead ha hu, hdrop, State.patrolReadEnds]
      simp only [hact', isHalted_eq_false (s := freed) hh, hser, hidx, bne_self_eq_false, Bool.or_self, Bool.false_eq_true, if_false, hcur,
        State.modPatrol]
      rfl

end Sys2Proof.Machine
end

section
/-! The records of a block and the coder's chain (3.3, 3.4, 4.4), as TAKE_BLOCK uses them: O44. -/

namespace Sys2Proof.Machine

/-! ### Locating records -/

/-- Records and a trailer of 40 bytes are cut off the front of a stream; behind a trailer nothing is cut off. -/
theorem splitRecords_append {recs : List (List Byte)} {tr : Option (List Byte)} {rest : List Byte} {fuel : Nat}
    (hrecs : ∀ r ∈ recs, r.length = 40 ∧ recKind r ≠ kindT) (htr : ∀ r, tr = some r → r.length = 40 ∧ recKind r = kindT)
    (hrest : tr = none → rest.length < 40) (hfuel : recs.length < fuel) :
    splitRecords fuel (recs.flatten ++ tr.getD [] ++ rest) = (recs ++ tr.toList, rest, tr.isSome) := by
  induction recs generalizing fuel with
  | nil =>
    obtain ⟨fuel, rfl⟩ := Nat.exists_eq_succ_of_ne_zero (Nat.ne_of_gt (Nat.zero_lt_of_lt hfuel))
    cases tr with
    | none => simp [splitRecords, hrest rfl]
    | some r =>
      obtain ⟨hlen, hkind⟩ := htr r rfl
      have hne : r ≠ [] := by rintro rfl; simp at hlen
      have hk : recKind (r ++ rest) = kindT := by
        cases r with
        | nil => exact absurd rfl hne
        | cons b bs => exact hkind
      have hlong : ¬((r ++ rest).length < 40) := by simp [hlen]
      rw [List.flatten_nil, Option.getD_some, List.nil_append, splitRecords, if_neg hlong, hk, List.take_left' hlen, List.drop_left' hlen]
      rfl
  | cons r recs ih =>
    obtain ⟨fuel, rfl⟩ := Nat.exists_eq_succ_of_ne_zero (Nat.ne_of_gt (Nat.zero_lt_of_lt hfuel))
    obtain ⟨⟨hlen, hkind⟩, hrecs⟩ := List.forall_mem_cons.mp hrecs
    have hstream : (r :: recs).flatten ++ tr.getD [] ++ rest = r ++ (recs.flatten ++ tr.getD [] ++ rest) := by simp
    generalize hX : recs.flatten ++ tr.getD [] ++ rest = X at ih hstream
    have hk : (recKind (r ++ X) == kindT) = false := by
      cases r with
      | nil => simp at hlen
      | cons b bs => simpa [recKind] using hkind
    have hlong : ¬((r ++ X).length < 40) := by simp [hlen]
    rw [hstream, splitRecords, if_neg hlong, hk, if_neg Bool.false_ne_true, List.drop_left' hlen, List.take_left' hlen,
      ih hrecs (by simpa using hfuel)]
    rfl

/-- Every stream is records, a trailer where one is completed, and the bytes left; where no record start shows a loss of framing,
every record behind the first is a call record, and the bytes left begin with the kind of one or of a trailer. -/
theorem exists_records (fuel : Nat) (skip : Bool) (bs : List Byte) (hlen : bs.length < 40 * fuel)
    (hloss : lossScan fuel skip bs = false) :
    ∃ (recs : List (List Byte)) (tr : Option (List Byte)) (rest : List Byte), bs = recs.flatten ++ tr.getD [] ++ rest
      ∧ recs.length < fuel
      ∧ (∀ r ∈ recs, r.length = 40 ∧ recKind r ≠ kindT) ∧ (∀ r, tr = some r → r.length = 40 ∧ recKind r = kindT)
      ∧ (tr = none → rest.length < 40) ∧ (∀ r ∈ if skip then recs.drop 1 else recs, recKind r = kindC)
      ∧ (tr = none → skip = false ∨ recs ≠ [] → ∀ b t, rest = b :: t → b = kindC ∨ b = kindT) := by
  induction fuel generalizing skip bs with
  | zero => omega
  | succ fuel ih =>
    cases bs with
    | nil => exact ⟨[], none, [], rfl, Nat.succ_pos _, by simp, nofun, fun _ => by simp, by simp, by simp⟩
    | cons k bs =>
      rw [lossScan] at hloss
      by_cases hT : k = kindT
      · by_cases hshort : (k :: bs).length < 40
        · exact ⟨[], none, k :: bs, rfl, Nat.succ_pos _, by simp, nofun, fun _ => hshort, by simp,
            fun _ _ b t hb => .inr ((List.cons.inj hb).1 ▸ hT)⟩
        · refine ⟨[], some ((k :: bs).take 40), (k :: bs).drop 40, (List.take_append_drop 40 _).symm, Nat.succ_pos _, by simp, ?_, nofun,
            by simp, nofun⟩
          rintro r ⟨⟩
          exact ⟨List.length_take_of_le (by omega), by simp [recKind, hT]⟩
      · rw [if_neg (by simpa using hT)] at hloss
        have hok : (skip || k == kindC) = true := by
          by_contra hno
          rw [if_neg hno] at hloss
          cases hloss
        rw [if_pos hok] at hloss
        by_cases hshort : (k :: bs).length < 40
        · refine ⟨[], none, k :: bs, rfl, Nat.succ_pos _, by simp, nofun, fun _ => hshort, by simp, fun _ hs b t hb => .inl ?_⟩
          rw [← (List.cons.inj hb).1]
          simpa [hs.resolve_right (by simp)] using hok
        · obtain ⟨recs, tr, rest, heq, hcount, hrecs, htr, hrest, hkinds, hhead⟩ := ih false (bs.drop 39)
            (by simp only [List.length_drop, List.length_cons] at hlen hshort ⊢; omega) hloss
          have hcut : (k :: bs).take 40 ++ bs.drop 39 = k :: bs := List.take_append_drop 40 (k :: bs)
          refine ⟨(k :: bs).take 40 :: recs, tr, rest, ?_, by simpa using hcount, ?_, htr, hrest, ?_, fun hn _ => hhead hn (.inl rfl)⟩
          · rw [heq] at hcut
            simpa using hcut.symm
          · refine List.forall_mem_cons.mpr ⟨⟨List.length_take_of_le (by omega), ?_⟩, hrecs⟩
            simpa [recKind] using hT
          · cases skip with
            | true => simpa using hkinds
            | false =>
              have hC : k = kindC := by simpa using hok
              simpa [recKind, hC] using hkinds

/-! ### Counting and coding a block's records -/

/-- The flag with which a record behind the first is handed to the coder. -/
def flagged (r : List Byte) : Bool × List Byte := (recKind r != kindT && recCrcGood r, r)

/-- Call records are counted in order (R44). -/
def countCalls (bank : List TariffEntry) (rs : List (List Byte)) (c : Ctx) : Ctx := rs.foldl (fun x r => countCall bank r x) c

/-- Counting looks at the counts alone, and changes nothing else. -/
theorem countCall_only (bank : List TariffEntry) (r : List Byte) (c : Ctx) :
    countCall bank r c = { c with
      counts := (countCall bank r c).counts, lastSeq := (countCall bank r c).lastSeq, overflow := (countCall bank r c).overflow } := by
  unfold countCall
  split <;> rfl

theorem countCall_with (bank : List TariffEntry) (r : List Byte) (g : OpenSeg) (ref : List Byte) (c : Ctx) :
    countCall bank r { c with seg := g, reference := ref } = { countCall bank r c with seg := g, reference := ref } := by
  unfold countCall
  split <;> rfl

theorem countCalls_with (bank : List TariffEntry) (rs : List (List Byte)) (g : OpenSeg) (ref : List Byte) (c : Ctx) :
    countCalls bank rs { c with seg := g, reference := ref } = { countCalls bank rs c with seg := g, reference := ref } := by
  induction rs generalizing c with
  | nil => rfl
  | cons r rs ih =>
    simp only [countCalls, List.foldl_cons] at ih ⊢
    rw [countCall_with, ih]

theorem countCalls_only (bank : List TariffEntry) (rs : List (List Byte)) (c : Ctx) :
    countCalls bank rs c = { c with
      counts := (countCalls bank rs c).counts, lastSeq := (countCalls bank rs c).lastSeq, overflow := (countCalls bank rs c).overflow } := by
  induction rs generalizing c with
  | nil => rfl
  | cons r rs ih =>
    have hstep : countCalls bank (r :: rs) c = countCalls bank rs (countCall bank r c) := rfl
    rw [hstep, ih]
    generalize countCalls bank rs (countCall bank r c) = y
    rw [countCall_only]

/-- Records of the open segment, the last of them the new reference (R61, R62). -/
def Ctx.coded (rs : List (Bool × List Byte)) (c : Ctx) : Ctx :=
  { c with
    seg := { c.seg with payload := c.seg.payload ++ encodeRecords c.reference rs, recs := c.seg.recs + rs.length }
    reference := ((rs.map (·.2)).getLast?).getD c.reference }

theorem getLast?_cons_getD {α : Type} (x d : α) (l : List α) : ((x :: l).getLast?).getD d = (l.getLast?).getD x := by
  cases l with
  | nil => rfl
  | cons y l => rw [List.getLast?_cons_cons, List.getLast?_eq_some_getLast (by simp)]; rfl

theorem coded_cons (p : Bool × List Byte) (rs : List (Bool × List Byte)) (c : Ctx) :
    c.coded (p :: rs) = (codeRecord p.1 p.2 c).coded rs := by
  simp [Ctx.coded, codeRecord, encodeRecords, getLast?_cons_getD, Nat.add_assoc, Nat.add_comm 1]

/-- The records behind the first are counted, coded, and a trailer stops the framer. -/
theorem frameRecords_append {bank : List TariffEntry} {recs : List (List Byte)} {tr : Option (List Byte)} (c : Ctx)
    (hrecs : ∀ r ∈ recs, recKind r ≠ kindT) (htr : ∀ r, tr = some r → recKind r = kindT) :
    frameRecords bank (recs ++ tr.toList) c = { (countCalls bank recs c).coded ((recs ++ tr.toList).map flagged) with
      trailer := (tr.map trailerTotals).or c.trailer, framer := if tr.isSome then .afterTrailer else c.framer } := by
  induction recs generalizing c with
  | nil =>
    cases tr with
    | none => simp [frameRecords, countCalls, Ctx.coded, encodeRecords]
    | some r =>
      have hk := htr r rfl
      simp [frameRecords, countCalls, frameRecord, hk, codeRecord, flagged, mayCode, Ctx.coded, encodeRecords]
  | cons r recs ih =>
    obtain ⟨hk, hrecs⟩ := List.forall_mem_cons.mp hrecs
    have hframe : frameRecord bank false r c = countCall bank r c := by simp [frameRecord, hk]
    have hcoded : (codeRecord (mayCode false r) r (countCall bank r c)) = { countCall bank r c with
        seg := (codeRecord (mayCode false r) r c).seg, reference := r } := by
      rw [countCall_only]; rfl
    rw [List.cons_append, frameRecords, hframe, ih _ hrecs, List.map_cons, coded_cons, hcoded, countCalls_with]
    have hcount : countCalls bank (r :: recs) c = countCalls bank recs (countCall bank r c) := rfl
    rw [hcount, countCall_only]
    conv_rhs => rw [countCalls_only]
    conv_lhs => rw [countCalls_only]
    rfl

/-- The records of a block as they are handed to the coder: the header is stored whole (R42, R58). -/
def codedRecords (headerTaken : Bool) : List (List Byte) → List (Bool × List Byte)
  | [] => []
  | r :: rs => (headerTaken && (flagged r).1, r) :: rs.map flagged

/-- The open segment and the reference after a block's records: one begun before the segment is stored raw (R65). -/
def Ctx.codedBlock (block : Block) (all : List (List Byte)) (c : Ctx) : Ctx :=
  if c.seg.blocks = 0 ∧ c.carry ≠ [] then
    (storeLead (block.take (40 - c.carry.length)) c).coded ((codedRecords c.headerTaken all).drop 1)
  else c.coded (codedRecords c.headerTaken all)

/-- A block in IN_CALLS, once its records are located: counted in order, coded, and the bytes left kept. -/
theorem takeCalls_eq {bank : List TariffEntry} {block : Block} {c : Ctx} {recs : List (List Byte)} {tr : Option (List Byte)}
    {rest : List Byte} (hsplit : splitRecords 104 (c.carry ++ block) = (recs ++ tr.toList, rest, tr.isSome))
    (hrecs : ∀ r ∈ recs, recKind r ≠ kindT) (htr : ∀ r, tr = some r → recKind r = kindT) (hhead : c.headerTaken = false → recs ≠ [])
    (hall : recs ++ tr.toList ≠ []) :
    takeCalls bank block c = { countCalls bank (if c.headerTaken then recs else recs.drop 1) c with
      headerTaken := true
      carry := if tr.isSome then [] else rest
      afterTrailer := if tr.isSome then rest else []
      digest := crc64Run c.digest block
      trailer := (tr.map trailerTotals).or c.trailer
      framer := if tr.isSome then .afterTrailer else c.framer
      reference := (c.codedBlock block (recs ++ tr.toList)).reference
      seg := { (c.codedBlock block (recs ++ tr.toList)).seg with blocks := c.seg.blocks + 1 } } := by
  have hcond : (c.seg.blocks == 0 && !c.carry.isEmpty) = true ↔ c.seg.blocks = 0 ∧ c.carry ≠ [] := by simp
  unfold takeCalls
  simp only [hsplit]
  cases recs with
  | nil =>
    have hheader : c.headerTaken = true := by simpa using hhead
    obtain ⟨r, rfl⟩ : ∃ r, tr = some r := Option.ne_none_iff_exists'.mp fun hn => hall (by rw [hn]; rfl)
    have hk := htr r rfl
    by_cases hs : c.seg.blocks = 0 ∧ c.carry ≠ []
    · simp [Ctx.codedBlock, if_pos hs, hheader, frameRecord, hk, frameRecords, countCalls, codedRecords, Ctx.coded,
        encodeRecords, storeLead]
    · simp [Ctx.codedBlock, if_neg hs, hheader, frameRecord, hk, frameRecords, countCalls, codedRecords,
        Ctx.coded, encodeRecords, codeRecord, mayCode, flagged]
  | cons r recs =>
    obtain ⟨hk, hrecs⟩ := List.forall_mem_cons.mp hrecs
    have hframe : frameRecord bank (!c.headerTaken) r c = countCalls bank (if c.headerTaken then [r] else []) c := by
      cases c.headerTaken <;> simp [frameRecord, hk, countCalls]
    have hcount : countCalls bank (if c.headerTaken then r :: recs else (r :: recs).drop 1) c
        = countCalls bank recs (countCalls bank (if c.headerTaken then [r] else []) c) := by
      cases c.headerTaken <;> rfl
    have hflag : mayCode (!c.headerTaken) r = (c.headerTaken && (flagged r).1) := by simp [mayCode, flagged, Bool.and_assoc]
    have hfirst (d : Ctx) (hd : d = if c.seg.blocks = 0 ∧ c.carry ≠ [] then storeLead (block.take (40 - c.carry.length)) c
          else codeRecord (mayCode (!c.headerTaken) r) r c) :
        (if (c.seg.blocks == 0 && !c.carry.isEmpty) = true then
          storeLead (block.take (40 - c.carry.length)) (frameRecord bank (!c.headerTaken) r c)
          else codeRecord (mayCode (!c.headerTaken) r) r (frameRecord bank (!c.headerTaken) r c))
        = { countCalls bank (if c.headerTaken then [r] else []) c with seg := d.seg, reference := d.reference }
        ∧ c.codedBlock block (r :: recs ++ tr.toList) = d.coded ((recs ++ tr.toList).map flagged) := by
      rw [hframe, hd, countCalls_only, Ctx.codedBlock]
      by_cases hs : c.seg.blocks = 0 ∧ c.carry ≠ []
      · rw [if_pos (hcond.mpr hs), if_pos hs, if_pos hs]
        exact ⟨rfl, rfl⟩
      · rw [if_neg (mt hcond.mp hs), if_neg hs, if_neg hs]
        exact ⟨rfl, by rw [List.cons_append, codedRecords, coded_cons, hflag]⟩
    obtain ⟨d, hd⟩ : ∃ d : Ctx, d = if c.seg.blocks = 0 ∧ c.carry ≠ [] then storeLead (block.take (40 - c.carry.length)) c
      else codeRecord (mayCode (!c.headerTaken) r) r c := ⟨_, rfl⟩
    obtain ⟨hc0, hblock⟩ := hfirst d hd
    simp only [List.cons_append] at hblock ⊢
    rw [hc0, hblock, frameRecords_append _ hrecs htr, countCalls_with, hcount]
    generalize hy : countCalls bank (if c.headerTaken then [r] else []) c = y
    have hkept : y.trailer = c.trailer ∧ y.framer = c.framer := by
      rw [← hy, countCalls_only]; exact ⟨rfl, rfl⟩
    have hblocks : d.seg.blocks = c.seg.blocks := by rw [hd]; split <;> rfl
    simp only [Ctx.coded, hkept, hblocks]

/-! ### What an open segment holds -/

theorem encodeRecords_append (ref : List Byte) (xs ys : List (Bool × List Byte)) :
    encodeRecords ref (xs ++ ys) = encodeRecords ref xs ++ encodeRecords (((xs.map (·.2)).getLast?).getD ref) ys := by
  induction xs generalizing ref with
  | nil => rfl
  | cons p xs ih => simp only [List.cons_append, encodeRecords, ih, List.map_cons, getLast?_cons_getD, List.append_assoc]

theorem getLast?_append_getD {α : Type} (xs ys : List α) (d : α) :
    ((xs ++ ys).getLast?).getD d = (ys.getLast?).getD ((xs.getLast?).getD d) := by
  rw [List.getLast?_append]
  cases ys.getLast? <;> rfl

theorem codedRecords_snd (b : Bool) (all : List (List Byte)) : (codedRecords b all).map (·.2) = all := by
  cases all with
  | nil => rfl
  | cons r rs => simp [codedRecords, flagged, Function.comp_def]

theorem length_codedRecords (b : Bool) (all : List (List Byte)) : (codedRecords b all).length = all.length := by
  rw [← List.length_map (f := (·.2)), codedRecords_snd]

/-- The lead bytes, records and bytes of an open segment whose tail has grown into records (R65). -/
def OpenSeg.HoldsRecords (g : OpenSeg) (ref bytes : List Byte) : Prop :=
  ∃ (lead : List Byte) (rs : List (Bool × List Byte)),
    g.payload = lead ++ encodeRecords zeroRecord rs ∧ g.lead = lead.length ∧ g.recs = rs.length ∧ (∀ p ∈ rs, codable p)
      ∧ ref = ((rs.map (·.2)).getLast?).getD zeroRecord ∧ bytes = lead ++ rs.flatMap (·.2)

theorem holds_iff {c : Ctx} {bytes : List Byte} :
    c.Holds bytes ↔ c.seg.kind = .coded ∧ c.carry.length < 40 ∧ ∃ stored, c.seg.HoldsRecords c.reference stored
      ∧ bytes = stored ++ c.tailBytes := by
  unfold Ctx.Holds OpenSeg.HoldsRecords
  refine and_congr_right fun _ => and_congr_right fun _ => ?_
  constructor
  · rintro ⟨lead, rs, hp, hl, hr, hc, href, rfl⟩
    exact ⟨_, ⟨lead, rs, hp, hl, hr, hc, href, rfl⟩, rfl⟩
  · rintro ⟨_, ⟨lead, rs, hp, hl, hr, hc, href, rfl⟩, rfl⟩
    exact ⟨lead, rs, hp, hl, hr, hc, href, rfl⟩

/-- Records joined to an open segment are held behind those it holds. -/
theorem holdsRecords_coded {c : Ctx} {stored : List Byte} {rs : List (Bool × List Byte)} (h : c.seg.HoldsRecords c.reference stored)
    (hrs : ∀ p ∈ rs, codable p) :
    (c.coded rs).seg.HoldsRecords (c.coded rs).reference (stored ++ rs.flatMap (·.2)) := by
  obtain ⟨lead, xs, hp, hl, hr, hc, href, rfl⟩ := h
  refine ⟨lead, xs ++ rs, ?_, hl, ?_, ?_, ?_, by simp⟩
  · rw [encodeRecords_append, ← href, ← List.append_assoc, ← hp]; rfl
  · rw [List.length_append, ← hr]; rfl
  · exact fun p hmem => (List.mem_append.mp hmem).elim (hc p) (hrs p)
  · rw [List.map_append, getLast?_append_getD, ← href]; rfl

/-- The records of a block can be coded where each is a call record, the trailer, or the header, which is stored whole. -/
theorem codable_codedRecords {headerTaken : Bool} {recs : List (List Byte)} {tr : Option (List Byte)}
    (hlen : ∀ r ∈ recs, r.length = 40) (htr : ∀ r, tr = some r → r.length = 40 ∧ recKind r = kindT)
    (hkinds : ∀ r ∈ if headerTaken then recs else recs.drop 1, recKind r = kindC) (hhead : headerTaken = false → recs ≠ []) :
    ∀ p ∈ codedRecords headerTaken (recs ++ tr.toList), codable p := by
  have hflag (r : List Byte) (hr : r.length = 40) (hk : recKind r = kindC ∨ recKind r = kindT) : codable (flagged r) := by
    refine ⟨hr, fun h => ?_⟩
    obtain ⟨hne, hcrc⟩ := Bool.and_eq_true_iff.mp h
    exact ⟨hk.resolve_right (by simpa using hne), hcrc⟩
  have htail (r : List Byte) (hr : r ∈ tr.toList) : r.length = 40 ∧ (recKind r = kindC ∨ recKind r = kindT) := by
    obtain ⟨hl, hk⟩ := htr r (by simpa using hr)
    exact ⟨hl, .inr hk⟩
  cases headerTaken with
  | true =>
    have hall (r : List Byte) (hr : r ∈ recs ++ tr.toList) : codable (flagged r) := by
      rcases List.mem_append.mp hr with hr | hr
      · exact hflag r (hlen r hr) (.inl (hkinds r hr))
      · exact hflag r (htail r hr).1 (htail r hr).2
    have hmap : codedRecords true (recs ++ tr.toList) = (recs ++ tr.toList).map flagged := by
      cases recs ++ tr.toList <;> rfl
    rw [hmap]
    intro p hp
    obtain ⟨r, hr, rfl⟩ := List.mem_map.mp hp
    exact hall r hr
  | false =>
    cases recs with
    | nil => exact absurd rfl (hhead rfl)
    | cons r recs =>
      obtain ⟨hr, hlen⟩ := List.forall_mem_cons.mp hlen
      refine List.forall_mem_cons.mpr ⟨⟨hr, nofun⟩, fun p hp => ?_⟩
      obtain ⟨x, hx, rfl⟩ := List.mem_map.mp hp
      rcases List.mem_append.mp hx with hx | hx
      · exact hflag x (hlen x hx) (.inl (hkinds x hx))
      · exact hflag x (htail x hx).1 (htail x hx).2

/-- Two streams that end alike begin alike where the beginnings are of one length. -/
theorem first_record_of_carry {carry block r x : List Byte} (h : carry ++ block = r ++ x) (hr : r.length = 40) (hc : carry.length < 40) :
    r = carry ++ block.take (40 - carry.length) ∧ x = block.drop (40 - carry.length) := by
  have htake := congrArg (List.take 40) h
  have hdrop := congrArg (List.drop 40) h
  rw [List.take_left' hr, List.take_append, List.take_of_length_le (by omega)] at htake
  rw [List.drop_left' hr, List.drop_append, List.drop_of_length_le (by omega)] at hdrop
  exact ⟨htake.symm, by simpa using hdrop.symm⟩

/-- The bytes that an open segment holds behind a block's records. -/
theorem holdsRecords_codedBlock {c : Ctx} {block stored rest : List Byte} {recs : List (List Byte)} {tr : Option (List Byte)}
    (hstream : c.carry ++ block = recs.flatten ++ tr.getD [] ++ rest) (hcarry : c.carry.length < 40)
    (hlen : ∀ r ∈ recs, r.length = 40) (htr : ∀ r, tr = some r → r.length = 40) (hall : recs ++ tr.toList ≠ [])
    (hcoded : ∀ p ∈ codedRecords c.headerTaken (recs ++ tr.toList), codable p) :
    (c.seg.blocks ≠ 0 → c.seg.HoldsRecords c.reference stored →
      ∃ bytes, (c.codedBlock block (recs ++ tr.toList)).seg.HoldsRecords (c.codedBlock block (recs ++ tr.toList)).reference bytes
        ∧ bytes ++ rest = stored ++ c.carry ++ block)
    ∧ (c.seg.payload = [] → c.seg.recs = 0 → c.seg.lead = 0 → c.seg.blocks = 0 → c.reference = zeroRecord →
      ∃ bytes, (c.codedBlock block (recs ++ tr.toList)).seg.HoldsRecords (c.codedBlock block (recs ++ tr.toList)).reference bytes
        ∧ bytes ++ rest = block) := by
  have hbytes : recs.flatten ++ tr.getD [] = (codedRecords c.headerTaken (recs ++ tr.toList)).flatMap (·.2) := by
    rw [List.flatMap_def, codedRecords_snd]
    cases tr <;> simp
  constructor
  · intro hb h
    have hs : ¬(c.seg.blocks = 0 ∧ c.carry ≠ []) := fun hs => hb hs.1
    rw [Ctx.codedBlock, if_neg hs]
    refine ⟨_, holdsRecords_coded h hcoded, ?_⟩
    rw [← hbytes, List.append_assoc, ← hstream, List.append_assoc]
  · intro hp hr hl hb href
    rw [Ctx.codedBlock]
    split
    next hs =>
      obtain ⟨r, all, hra⟩ := List.exists_cons_of_ne_nil hall
      have hr40 : r.length = 40 := by
        have hmem : r ∈ recs ++ tr.toList := by rw [hra]; exact List.mem_cons_self
        rcases List.mem_append.mp hmem with hm | hm
        · exact hlen r hm
        · exact htr r (by simpa using hm)
      have hcut : c.carry ++ block = r ++ ((all.map flagged).flatMap (·.2) ++ rest) := by
        rw [hstream, hbytes, hra]
        simp [codedRecords]
      obtain ⟨-, hdrop⟩ := first_record_of_carry hcut hr40 hcarry
      rw [hra] at hcoded ⊢
      refine ⟨_, holdsRecords_coded (c := storeLead (block.take (40 - c.carry.length)) c) (stored := block.take (40 - c.carry.length))
        ⟨block.take (40 - c.carry.length), [], ?_, rfl, hr, by simp, href, by simp⟩ fun p hp => hcoded p (List.mem_of_mem_drop hp), ?_⟩
      · show c.seg.payload ++ _ = _
        rw [hp]; simp [encodeRecords]
      · show block.take _ ++ (all.map flagged).flatMap (·.2) ++ rest = block
        rw [List.append_assoc, hdrop, List.take_append_drop]
    next hs =>
      have hc : c.carry = [] := by simpa [hb] using hs
      refine ⟨_, holdsRecords_coded (c := c) (stored := []) ⟨[], [], ?_, hl, hr, by simp, href, by simp⟩ hcoded, ?_⟩
      · rw [hp]; rfl
      · rw [← hbytes, List.nil_append, ← hstream, hc, List.nil_append]

theorem codedBlock_kept (block : Block) (all : List (List Byte)) (c : Ctx) :
    (c.codedBlock block all).seg.kind = c.seg.kind := by
  unfold Ctx.codedBlock
  split <;> rfl

/-- A block that the framer takes without loss is cut into records, call records all but the header and the trailer, and the next
carry begins with a record's kind. -/
theorem exists_records_of_taken {v : Volume} {c : Ctx} {block : Block} (hblock : block.length = 4096) (hcarry : c.carry.length < 40)
    (hloss : isLossBlock v c block = false) (hhead : c.headerTaken = false → c.carry = [])
    (hfirst : ∀ b bs, c.carry = b :: bs → b = kindC ∨ b = kindT) :
    ∃ (recs : List (List Byte)) (tr : Option (List Byte)) (rest : List Byte), c.carry ++ block = recs.flatten ++ tr.getD [] ++ rest
      ∧ recs.length < 104
      ∧ (∀ r ∈ recs, r.length = 40 ∧ recKind r ≠ kindT) ∧ (∀ r, tr = some r → r.length = 40 ∧ recKind r = kindT)
      ∧ (tr = none → rest.length < 40) ∧ (∀ r ∈ if c.headerTaken then recs else recs.drop 1, recKind r = kindC)
      ∧ (c.headerTaken = false → recs ≠ []) ∧ recs ++ tr.toList ≠ []
      ∧ (tr = none → ∀ b t, rest = b :: t → b = kindC ∨ b = kindT) := by
  have hscan : lossScan 104 (!c.headerTaken || !c.carry.isEmpty) (c.carry ++ block) = false ∧ (c.headerTaken = false → headerFits v block = true) := by
    unfold isLossBlock at hloss
    cases hh : c.headerTaken with
    | true => simpa [hh] using hloss
    | false =>
      simp only [hh, Bool.false_eq_true, if_false, Bool.or_eq_false_iff, Bool.not_eq_false'] at hloss
      simpa [hhead hh] using ⟨hloss.2, hloss.1⟩
  obtain ⟨recs, tr, rest, hstream, hcount, hrecs, htr, hrest, hkinds, hcut⟩ :=
    exists_records 104 _ _ (by rw [List.length_append]; omega) hscan.1
  have hall : recs ++ tr.toList ≠ [] := by
    intro hn
    obtain ⟨rfl, htl⟩ := List.append_eq_nil_iff.mp hn
    obtain rfl : tr = none := by simpa using htl
    have hlen := congrArg List.length hstream
    simp only [List.flatten_nil, Option.getD_none, List.nil_append, List.length_append] at hlen
    have := hrest rfl
    omega
  have hne : tr = none → recs ≠ [] := by
    rintro rfl rfl
    exact hall rfl
  refine ⟨recs, tr, rest, hstream, hcount, hrecs, htr, hrest, ?_, fun hh => ?_, hall, fun hn => hcut hn (.inr (hne hn))⟩
  · cases hh : c.headerTaken with
    | false => simpa [hh] using hkinds
    | true =>
      cases hc : c.carry with
      | nil => simpa [hh, hc] using hkinds
      | cons b bs =>
        have hdrop : ∀ r ∈ recs.drop 1, recKind r = kindC := by simpa [hh, hc] using hkinds
        rw [if_pos rfl]
        cases recs with
        | nil => simp
        | cons r recs =>
          refine List.forall_mem_cons.mpr ⟨?_, hdrop⟩
          obtain ⟨hr40, hkind⟩ := hrecs r List.mem_cons_self
          obtain ⟨hr, -⟩ := first_record_of_carry (x := recs.flatten ++ tr.getD [] ++ rest) (by simpa using hstream) hr40 hcarry
          have hk : recKind r = b := by rw [hr, hc]; rfl
          rw [hk] at hkind ⊢
          exact (hfirst b bs hc).resolve_right hkind
  · rintro rfl
    obtain ⟨r, rfl⟩ : ∃ r, tr = some r := Option.ne_none_iff_exists'.mp fun hn => hne hn rfl
    obtain ⟨hr40, hkind⟩ := htr r rfl
    have htake : block.take 40 = r := by
      have := congrArg (List.take 40) hstream
      rw [hhead hh] at this
      simpa [List.take_left' hr40] using this
    have hfits := hscan.2 hh
    simp only [headerFits, htake, validHeader, Bool.and_eq_true, beq_iff_eq] at hfits
    obtain ⟨⟨⟨⟨⟨⟨⟨⟨-, hH⟩, -⟩, -⟩, -⟩, -⟩, -⟩, -⟩, -⟩ := hfits
    rw [hH] at hkind
    exact absurd hkind (by decide)

/-- An open segment that holds the bytes of its blocks holds the next block's behind them. -/
theorem takeCalls_holds {bank : List TariffEntry} {v : Volume} {c : Ctx} {block : Block} {bytes : List Byte}
    (hblock : block.length = 4096) (hcalls : c.framer = .inCalls) (hcarry : c.carry.length < 40)
    (hloss : isLossBlock v c block = false) (hhead : c.headerTaken = false → c.carry = [])
    (hfirst : ∀ b bs, c.carry = b :: bs → b = kindC ∨ b = kindT) :
    (∀ b bs, (takeCalls bank block c).carry = b :: bs → b = kindC ∨ b = kindT)
    ∧ (c.seg.blocks ≠ 0 → c.Holds bytes → (takeCalls bank block c).Holds (bytes ++ block))
    ∧ (c.seg = { index := c.seg.index, first := c.seg.first } → c.reference = zeroRecord → (takeCalls bank block c).Holds block) := by
  obtain ⟨recs, tr, rest, hstream, hcount, hrecs, htr, hrest, hkinds, hheader, hall, hcut⟩ :=
    exists_records_of_taken hblock hcarry hloss hhead hfirst
  have hsplit : splitRecords 104 (c.carry ++ block) = (recs ++ tr.toList, rest, tr.isSome) :=
    hstream ▸ splitRecords_append hrecs htr hrest hcount
  have heq := takeCalls_eq (bank := bank) hsplit (fun r hr => (hrecs r hr).2) (fun r hr => (htr r hr).2) hheader hall
  have hcoded := codable_codedRecords (fun r hr => (hrecs r hr).1) htr hkinds hheader
  obtain ⟨hbehind, hfresh⟩ := holdsRecords_codedBlock (stored := bytes.take (bytes.length - c.carry.length)) hstream hcarry
    (fun r hr => (hrecs r hr).1) (fun r hr => (htr r hr).1) hall hcoded
  have hholds {all : List Byte} (hk : c.seg.kind = .coded) (h : ∃ stored,
      (c.codedBlock block (recs ++ tr.toList)).seg.HoldsRecords (c.codedBlock block (recs ++ tr.toList)).reference stored
        ∧ stored ++ rest = all) : (takeCalls bank block c).Holds all := by
    obtain ⟨stored, hstored, rfl⟩ := h
    rw [heq]
    refine holds_iff.mpr ⟨(codedBlock_kept ..).trans hk, ?_, stored, hstored, congrArg _ ?_⟩
    · cases htr' : tr with
      | none => simpa using hrest htr'
      | some r => simp
    · simp only [Ctx.tailBytes, codedBlock_kept, hk, hcalls]
      cases tr <;> simp
  refine ⟨fun b bs hb => ?_, fun hb hold => ?_, fun hseg href => ?_⟩
  · rw [heq] at hb
    cases htr' : tr with
    | none => exact hcut htr' b bs (by simpa [htr'] using hb)
    | some r => simp [htr'] at hb
  · obtain ⟨hk, -, stored, hstored, hbytes⟩ := holds_iff.mp hold
    have htail : c.tailBytes = c.carry := by simp [Ctx.tailBytes, hk, hcalls]
    have hcutBytes : bytes.take (bytes.length - c.carry.length) = stored := by
      rw [hbytes, htail, List.length_append, Nat.add_sub_cancel, List.take_left']
      rfl
    rw [hcutBytes] at hbehind
    refine hholds hk ?_
    rw [hbytes, htail]
    exact hbehind hb hstored
  · have hk : c.seg.kind = .coded := by rw [hseg]
    exact hholds hk (hfresh (by rw [hseg]) (by rw [hseg]) (by rw [hseg]) (by rw [hseg]) href)

end Sys2Proof.Machine
end

section
/-! TAKE_BLOCK (3.3, 3.6, 4.6, 4.7): the close before a block, the block, and what follows it. O44. -/

namespace Sys2Proof.Machine

variable {w : Nat} {s : State} {v : Volume} {c : Ctx}

/-! ### A close due, as the context sees it -/

/-- The context once its open segment has been sealed and a fresh one begun (4.8). -/
def Ctx.begun (c : Ctx) : Ctx :=
  { c with
    next := c.next + 1
    seg := { index := c.next + 1, first := c.seg.first + c.seg.blocks, kind := if c.framer = .raw then .raw else .coded }
    reference := zeroRecord }

/-- The waiting list leaves a context alone on whose segment no close is held. -/
theorem ctx_proceed (i : WaitItem) {d : Ctx} (hd : d.seg.held = none) (h : s.ctx w = some d) : (State.proceed i s).ctx w = some d := by
  match i with
  | .seal k n =>
    simp only [State.proceed]
    split
    · exact h
    next x hx =>
      split
      · exact h
      next hheld =>
        split
        · have hne : k ≠ w := by
            rintro rfl
            obtain rfl : x = d := Option.some.inj (hx.symm.trans h)
            simp [hd] at hheld
          rw [sealOnce_eq hx]
          split
          · rw [State.ctx, placeOnce_ctxs]
            exact (ctx_sealedInto_other hne).trans h
          · exact (ctx_sealedInto_other hne).trans h
        · exact h
  | .place n k =>
    simp only [State.proceed]
    split
    · exact h
    · split
      · exact h
      next ht =>
        rw [State.ctx, leaveWaiting_ctxs, tryPlace_only ht]
        exact h

theorem ctx_seal (hc : s.ctx w = some c) : (s.seal w).ctx w = some c.begun := by
  have hbegun : (s.sealedInto w c.serial (c.sealedSeg s.sealStatus) s.alloc).ctx w = some c.begun := ctx_sealedInto hc
  refine passIfJoined_of_kept (K := fun t => t.ctx w = some c.begun) (fun i t h => ctx_proceed i rfl h) _ ?_
  rw [sealOnce_eq hc]
  split
  · rw [State.ctx, placeOnce_ctxs]; exact hbegun
  · exact hbegun

/-- A close due leaves a fresh open segment, or one with a close held; of the context nothing else changes but the next index and the
reference. -/
theorem ctx_closeDue (cond : CloseCond) (hc : s.ctx w = some c) :
    ∃ (n : Nat) (g : OpenSeg) (r : List Byte), (s.closeDue cond w).ctx w = some { c with next := n, seg := g, reference := r }
      ∧ (g.blocks = 0 ∨ g.held.isSome = true) := by
  by_cases hdue : c.seg.blocks = 0 ∨ c.seg.held.isSome = true
  · rw [closeDue_of_none hc hdue]
    exact ⟨_, _, _, hc, hdue⟩
  · obtain ⟨hb, hh⟩ := not_or.mp hdue
    rw [closeDue_eq hc hb (by simpa using hh)]
    have hheld := ctx_closeHeld (cond := cond) hc
    split
    · exact ⟨_, _, _, ctx_seal hc, .inl rfl⟩
    · split
      · obtain ⟨l, hl⟩ := joinWaiting_eq (.seal w c.serial) (s.closeHeld cond w)
        rw [hl]
        exact ⟨_, _, _, hheld, .inr rfl⟩
      · exact ⟨_, _, _, hheld, .inr rfl⟩

/-- A seal takes the condition of a held close with it. -/
theorem seal_closeHeld (cond : CloseCond) (hc : s.ctx w = some c) : (s.closeHeld cond w).seal w = s.seal w := by
  have hsealed : (s.closeHeld cond w).sealedInto w c.serial (c.sealedSeg s.sealStatus) s.alloc
      = s.sealedInto w c.serial (c.sealedSeg s.sealStatus) s.alloc := by
    simp only [State.sealedInto, State.closeHeld, List.map_map, Function.comp_def]
    congr 1
    refine List.map_congr_left fun x _ => ?_
    by_cases hx : x.window = w <;> simp [hx]
  rw [State.seal, State.seal, sealOnce_eq hc, sealOnce_eq (ctx_closeHeld hc)]
  exact congrArg (fun u => State.passIfJoined s.alloc (if c.opened then u.placeOnce c.serial c.next else u)) hsealed

/-- HELD_CLOSE, from the state in which a close is held, is the close due. -/
theorem exec_heldClose_closeHeld {window : BitVec 12} (cond : CloseCond) (hr : s.resetHeld = false) (hst : s.startup = none)
    (hc : s.ctx window.toNat = some c) (hb : c.seg.blocks ≠ 0) (hh : c.seg.held = none) :
    exec (.heldClose window) (s.closeHeld cond window.toNat) = .next (s.closeDue cond window.toNat) := by
  rw [exec_heldClose (s := s.closeHeld cond window.toNat) hr hst (ctx_closeHeld hc) rfl, closeDue_eq hc hb hh, seal_closeHeld cond hc]
  rfl

theorem vol_congr {t : State} (h : t.vols = s.vols) : t.vol w = s.vol w := congrArg (fun l => l.find? fun x : Volume => x.window == w) h

/-! ### The closes after a block -/

theorem closeCommitted_of_settled (hc : s.ctx w = some c) (h : c.seg.blocks = 0 ∨ c.seg.held.isSome = true) :
    s.closeCommitted w = s := by
  unfold State.closeCommitted
  split
  · dsimp only
    split
    · exact closeDue_of_none hc h
    · rfl
  · rfl

theorem closeForSync_of_settled (hc : s.ctx w = some c) (h : c.seg.blocks = 0 ∨ c.seg.held.isSome = true) : s.closeForSync w = s := by
  unfold State.closeForSync
  split
  · rfl
  · split
    · exact closeDue_of_none hc h
    · rfl

/-- The condition that calls for a close after a block is taken: block limit, COMMITTED mode, SYNC, in this order. -/
def State.dueAfter (v : Volume) (c : Ctx) (s : State) : Option CloseCond :=
  if c.atBlockLimit then some .blockLimit
  else if 16 ≤ s.waitersOn c || (0 < s.waitersOn c && (s.heldAt v.serial v.ingest).isNone) then some .committed
  else if (syncsOf v.serial s.client.tags).any (·.target == some v.ingest) then some .sync
  else none

/-- At most one close is due after a block. -/
theorem closesAfter_eq (hv : s.vol w = some v) (hc : s.ctx w = some c) :
    ((s.closeAtLimit w).closeCommitted w).closeForSync w = ((s.dueAfter v c).map fun cond => s.closeDue cond w).getD s := by
  have hsettled (cond : CloseCond) := ctx_closeDue cond hc
  unfold State.dueAfter
  by_cases hl : c.atBlockLimit = true
  · obtain ⟨n, g, r, hd, hg⟩ := hsettled .blockLimit
    have hlimit : s.closeAtLimit w = s.closeDue .blockLimit w := by simp [State.closeAtLimit, hc, hl]
    rw [hlimit, closeCommitted_of_settled hd hg, closeForSync_of_settled hd hg, if_pos hl]
    rfl
  have hlimit : s.closeAtLimit w = s := by simp [State.closeAtLimit, hc, hl]
  rw [hlimit, if_neg hl]
  by_cases hn : (decide (16 ≤ s.waitersOn c) || (decide (0 < s.waitersOn c) && (s.heldAt v.serial v.ingest).isNone)) = true
  · obtain ⟨n, g, r, hd, hg⟩ := hsettled .committed
    have hcommitted : s.closeCommitted w = s.closeDue .committed w := by
      simp only [State.closeCommitted, hv, hc]
      exact if_pos hn
    rw [hcommitted, closeForSync_of_settled hd hg, if_pos hn]
    rfl
  have hcommitted : s.closeCommitted w = s := by
    simp only [State.closeCommitted, hv, hc]
    exact if_neg hn
  rw [hcommitted, if_neg hn]
  simp only [State.closeForSync, hv]
  split <;> rfl

/-! ### The end of a volume's taking -/

/-- A completed trailer gives the record its totals, makes an OPEN volume CLOSING and stops the framer (3.5, 3.6). -/
def State.trailerStop (w : Nat) (v : Volume) (trailer : Option TrailerTotals) (u : State) : State :=
  let t : State := { u with vols := u.vols.map fun x => if x.window = w then { x with trailer } else x }
  State.framerStop w (if v.state = .opened then State.callCatalogue w [] { t with
    ctxs := t.ctxs.map fun x => if x.window = w then { x with idle := none, close := some { stage := .segments } } else x
    vols := t.vols.map fun x => if x.window = w then { x with state := .closing, stalled := false } else x } else t)

/-- What follows a block and its closes: the trailer's stop, the end of a CLOSING volume's taking, or nothing. -/
def State.takingEnds (w : Nat) (v : Volume) (k : Ctx) (u : State) : State :=
  if k.framer = .afterTrailer then u.trailerStop w v k.trailer
  else if v.state = .closing then u.endTaking w
  else u

theorem endTaking_of_no_close (hc : s.ctx w = some c) (h : c.close = none) : s.endTaking w = s := by
  unfold State.endTaking
  split
  next v x hv hx =>
    obtain rfl : x = c := Option.some.inj (hx.symm.trans hc)
    simp [h]
  · rfl

theorem afterTrailer_eq {x : Volume} {k d : Ctx} (hx : s.vol w = some x) (hd : s.ctx w = some d) (hstate : x.state = v.state)
    (hf : d.framer = k.framer) (ht : d.trailer = k.trailer) (hclose : v.state = .opened ∧ d.close = none ∨ v.state = .closing) :
    s.afterTrailer w = s.takingEnds w v k := by
  simp only [State.afterTrailer, hx, hd, hf, beq_iff_eq, State.takingEnds, State.trailerStop, enterClosing_eq, modVol_eq, ht, hstate]
  refine ite_congr rfl (fun _ => rfl) fun _ => ?_
  rcases hclose with ⟨ho, hn⟩ | hcl
  · rw [if_neg (by rw [ho]; decide), endTaking_of_no_close hd hn]
  · rw [if_pos hcl]

theorem vol_mapped {f : Volume → Volume} (hf : ∀ x, (f x).window = x.window) (hv : s.vol w = some v) :
    (s.vols.map fun x => if x.window = w then f x else x).find? (fun x => x.window == w) = some (f v) := by
  have h := vol_modVol w w f hf s
  rw [modVol_eq, hv, Option.map_some, if_pos (beq_self_eq_true w)] at h
  exact h

theorem ctx_mapped {f : Ctx → Ctx} (hf : ∀ x, (f x).window = x.window) (hc : s.ctx w = some c) :
    (s.ctxs.map fun x => if x.window = w then f x else x).find? (fun x => x.window == w) = some (f c) := by
  have h := ctx_modCtx w w f hf s
  rw [modCtx_eq, hc, Option.map_some, if_pos (beq_self_eq_true w)] at h
  exact h

/-- The framer's stop on a volume that still has a segment: its slots are gone, its close stands at step 1, and a close held already
stays held. -/
theorem framerStop_spec {k : Closing} (hc : s.ctx w = some c) (hk : c.close = some k) (hleft : s.pendOf c.serial ≠ [] ∨ c.seg.blocks ≠ 0) :
    (s.framerStop w).vols = s.vols ∧ (∀ y ∈ (s.framerStop w).client.slots, y.serial ≠ c.serial)
    ∧ ∃ (y : Closing) (n : Nat) (g : OpenSeg) (r : List Byte), y.stage = .segments ∧ y.ref = k.ref
      ∧ (s.framerStop w).ctx w = some { c with close := some y, next := n, seg := g, reference := r }
      ∧ (c.seg.held.isSome = true → g = c.seg ∧ (s.framerStop w).pend = s.pend) := by
  obtain ⟨hvols, hpend, -, -, -, hctx, -, hslots, -⟩ := stoppedAs_stopped hc hk
  have hpendOf : (s.stopped w).pendOf c.serial = s.pendOf c.serial := by rw [State.pendOf, hpend]; rfl
  obtain ⟨x, hx, -, -, hsegs⟩ := closeDue_of_segments_left (cond := .volumeClose) hctx (hpendOf ▸ hleft)
  obtain ⟨n, g, r, hd, -⟩ := ctx_closeDue .volumeClose hctx
  rw [framerStop_eq, endStep1_of_segments_left hx hsegs]
  refine ⟨by rw [closeDue_vols, hvols], fun y hy => ?_,
    { s.countedClose c.serial k with stage := .segments }, n, g, r, rfl, rfl, hd, fun hheld => ?_⟩
  · rw [closeDue_client, hslots] at hy
    simpa using (List.mem_filter.mp (List.mem_of_mem_filter hy)).2
  · rw [closeDue_of_none hctx (.inr hheld)] at hd ⊢
    obtain h := congrArg Ctx.seg (Option.some.inj (hctx.symm.trans hd))
    exact ⟨h.symm, hpend⟩

/-- What a completed trailer leaves of a volume and its context. -/
theorem trailerStop_spec {x : Volume} {d : Ctx} (hx : s.vol w = some x) (hd : s.ctx w = some d) (hstate : x.state = v.state)
    (hserial : d.serial = x.serial) (hleft : s.pendOf d.serial ≠ [] ∨ d.seg.blocks ≠ 0)
    (hclose : v.state = .opened ∧ d.close = none ∨ v.state = .closing ∧ d.close.isSome = true) :
    (s.trailerStop w v d.trailer).vol w = some { x with
        state := .closing, stalled := if v.state = .closing then x.stalled else false, trailer := d.trailer }
    ∧ (∀ y ∈ (s.trailerStop w v d.trailer).client.slots, y.serial ≠ x.serial)
    ∧ ∃ (y : Closing) (n : Nat) (g : OpenSeg) (r : List Byte), y.stage = .segments ∧ y.ref = d.close.bind (·.ref)
      ∧ (s.trailerStop w v d.trailer).ctx w = some { d with
          idle := if v.state = .closing then d.idle else none, close := some y, next := n, seg := g, reference := r }
      ∧ (d.seg.held.isSome = true → g = d.seg ∧ (s.trailerStop w v d.trailer).pend = s.pend) := by
  have hvol := vol_mapped (f := fun x => { x with trailer := d.trailer }) (fun _ => rfl) hx
  dsimp only [State.trailerStop]
  rcases hclose with ⟨ho, hn⟩ | ⟨hcl, hs⟩
  · rw [if_pos ho, if_neg (by rw [ho]; decide), if_neg (by rw [ho]; decide)]
    obtain ⟨t, ht⟩ : ∃ t : State, t = { s with
        vols := (s.vols.map fun x => if x.window = w then { x with trailer := d.trailer } else x).map fun x =>
          if x.window = w then { x with state := .closing, stalled := false } else x
        ctxs := s.ctxs.map fun x => if x.window = w then { x with idle := none, close := some { stage := .segments } } else x } := ⟨_, rfl⟩
    obtain ⟨u, hu⟩ : ∃ u : State, u = State.callCatalogue w [] t := ⟨_, rfl⟩
    have honly : u = { t with set := u.set, port := u.port } := by rw [hu]; exact callCatalogue_only w [] t
    have hctx : u.ctx w = some { d with idle := none, close := some { stage := .segments } } := by
      rw [State.ctx, honly, ht]
      exact ctx_mapped (f := fun x => { x with idle := none, close := some { stage := .segments } }) (fun _ => rfl) hd
    have hleftU : u.pendOf d.serial ≠ [] ∨ d.seg.blocks ≠ 0 := by rw [State.pendOf, honly, ht]; exact hleft
    obtain ⟨hvols, hslots, y, n, g, r, hstage, href, hend, hheld⟩ := framerStop_spec hctx rfl hleftU
    have hv2 : u.vol w = some { x with state := .closing, stalled := false, trailer := d.trailer } := by
      rw [State.vol, honly, ht]
      exact vol_mapped (s := { s with vols := s.vols.map fun x => if x.window = w then { x with trailer := d.trailer } else x })
        (f := fun x => { x with state := .closing, stalled := false }) (fun _ => rfl) hvol
    rw [← ht, ← hu]
    refine ⟨?_, hserial ▸ hslots, y, n, g, r, hstage, ?_, hend, fun h => ?_⟩
    · rw [State.vol, hvols]; exact hv2
    · rw [href, hn]; rfl
    · obtain ⟨hg, hpend⟩ := hheld h
      exact ⟨hg, hpend.trans (by rw [honly, ht])⟩
  · rw [if_neg (by rw [hcl]; decide), if_pos hcl, if_pos hcl]
    obtain ⟨k, hk⟩ := Option.isSome_iff_exists.mp hs
    obtain ⟨hvols, hslots, y, n, g, r, hstage, href, hend, hheld⟩ := framerStop_spec
      (s := { s with vols := s.vols.map fun x => if x.window = w then { x with trailer := d.trailer } else x }) hd hk hleft
    refine ⟨?_, hserial ▸ hslots, y, n, g, r, hstage, by rw [href, hk]; rfl, hend, hheld⟩
    rw [State.vol, hvols]
    have hclosing : x.state = .closing := hstate.trans hcl
    rw [← hclosing]
    exact hvol

/-! ### The block at the ingest point -/

/-- The state once the block at the ingest point is taken, with the volume's context as `k` (3.3): the slot is FREE, the ingest point
has advanced, and a COMMITTED write whose last block this is waits on the open segment. -/
def State.takenAs (w : Nat) (v : Volume) (index : Nat) (k : Ctx) (s : State) : State :=
  { s with
    ctxs := s.ctxs.map fun x => if x.window = w then k else x
    vols := s.vols.map fun x => if x.window = w then { x with ingest := x.ingest + 1 } else x
    client := { s.client with
      slots := s.client.slots.filter fun x => ¬(x.serial = v.serial ∧ x.offset = v.ingest)
      tags := s.client.tags.map fun x =>
        if x.phase = .waitingCommit ∧ x.serial = some v.serial ∧ x.offset + x.count = v.ingest + 1 then
          { x with waitingOn := some index } else x } }

/-- What a block leaves of its context: all but the framer's own fields, and of the open segment its place and its held close. -/
structure Ctx.TakenFrom (c k : Ctx) : Prop where
  window : k.window = c.window
  serial : k.serial = c.serial
  close : k.close = c.close
  idle : k.idle = c.idle
  index : k.seg.index = c.seg.index
  held : k.seg.held = c.seg.held
  blocks : k.seg.blocks = c.seg.blocks

theorem Ctx.TakenFrom.trans {a b d : Ctx} (h : a.TakenFrom b) (k : b.TakenFrom d) : a.TakenFrom d :=
  ⟨k.1.trans h.1, k.2.trans h.2, k.3.trans h.3, k.4.trans h.4, k.5.trans h.5, k.6.trans h.6, k.7.trans h.7⟩

theorem takenFrom_frameRecord (bank : List TariffEntry) (header : Bool) (r : List Byte) (c : Ctx) :
    c.TakenFrom (frameRecord bank header r c) := by
  unfold frameRecord
  split
  · exact ⟨rfl, rfl, rfl, rfl, rfl, rfl, rfl⟩
  · split
    · exact ⟨rfl, rfl, rfl, rfl, rfl, rfl, rfl⟩
    · rw [countCall_only]
      exact ⟨rfl, rfl, rfl, rfl, rfl, rfl, rfl⟩

theorem takenFrom_codeRecord (good : Bool) (r : List Byte) (c : Ctx) : c.TakenFrom (codeRecord good r c) :=
  ⟨rfl, rfl, rfl, rfl, rfl, rfl, rfl⟩

theorem takenFrom_storeLead (lead : List Byte) (c : Ctx) : c.TakenFrom (storeLead lead c) := ⟨rfl, rfl, rfl, rfl, rfl, rfl, rfl⟩

theorem takenFrom_frameRecords (bank : List TariffEntry) (rs : List (List Byte)) (c : Ctx) : c.TakenFrom (frameRecords bank rs c) := by
  induction rs generalizing c with
  | nil => exact ⟨rfl, rfl, rfl, rfl, rfl, rfl, rfl⟩
  | cons r rs ih => exact ((takenFrom_frameRecord ..).trans (takenFrom_codeRecord ..)).trans (ih _)

/-- A block taken in IN_CALLS makes the open segment one block longer, and leaves its place and its held close. -/
theorem takenFrom_takeCalls (bank : List TariffEntry) (block : Block) (c : Ctx) :
    Ctx.TakenFrom { c with seg := { c.seg with blocks := c.seg.blocks + 1 } } (takeCalls bank block c) := by
  unfold takeCalls
  dsimp only
  split
  · exact ⟨rfl, rfl, rfl, rfl, rfl, rfl, rfl⟩
  next r rs _ =>
    have hfirst : c.TakenFrom (if c.seg.blocks == 0 && !c.carry.isEmpty then
        storeLead (block.take (40 - c.carry.length)) (frameRecord bank (!c.headerTaken) r c)
        else codeRecord (mayCode (!c.headerTaken) r) r (frameRecord bank (!c.headerTaken) r c)) := by
      split
      · exact (takenFrom_frameRecord ..).trans (takenFrom_storeLead ..)
      · exact (takenFrom_frameRecord ..).trans (takenFrom_codeRecord ..)
    obtain ⟨hw, hs, hc, hi, hx, hh, hb⟩ := hfirst.trans (takenFrom_frameRecords bank rs _)
    exact ⟨hw, hs, hc, hi, hx, hh, congrArg (· + 1) hb⟩

theorem takenFrom_take (bank : List TariffEntry) (loss : Bool) (block : Block) (c : Ctx) :
    Ctx.TakenFrom { c with seg := { c.seg with blocks := c.seg.blocks + 1 } } (c.take bank loss block) := by
  unfold Ctx.take
  split
  · exact ⟨rfl, rfl, rfl, rfl, rfl, rfl, rfl⟩
  · split
    · exact ⟨rfl, rfl, rfl, rfl, rfl, rfl, rfl⟩
    · exact takenFrom_takeCalls ..

theorem takeBlock_eq {loss : Bool} {b : Block} (hc : s.ctx w = some c) :
    s.takeBlock w v loss b = s.takenAs w v c.seg.index (c.take (s.tariff.bank c.bank) loss b) := by
  have hindex : (c.take (s.tariff.bank c.bank) loss b).seg.index = c.seg.index := (takenFrom_take ..).index
  have hslots : s.client.slots.filter (fun x => !(x.serial == v.serial && x.offset == v.ingest))
      = s.client.slots.filter fun x => ¬(x.serial = v.serial ∧ x.offset = v.ingest) :=
    List.filter_congr fun x _ => by rw [Bool.eq_iff_iff]; simp
  have htags : s.client.tags.map (waitOn v.serial v.ingest c.seg.index) = s.client.tags.map fun x =>
      if x.phase = .waitingCommit ∧ x.serial = some v.serial ∧ x.offset + x.count = v.ingest + 1 then
        { x with waitingOn := some c.seg.index } else x :=
    List.map_congr_left fun x _ => by simp [waitOn, and_assoc]
  simp only [State.takeBlock, hc, modCtx_eq, modVol_eq, hindex, State.takenAs]
  rw [hslots, htags]

theorem vol_takenAs {index : Nat} {k : Ctx} (hv : s.vol w = some v) :
    (s.takenAs w v index k).vol w = some { v with ingest := v.ingest + 1 } :=
  vol_mapped (f := fun x => { x with ingest := x.ingest + 1 }) (fun _ => rfl) hv

theorem ctx_takenAs {index : Nat} {k : Ctx} (hk : k.window = w) (hc : s.ctx w = some c) : (s.takenAs w v index k).ctx w = some k := by
  have hmap : (s.ctxs.map fun x => if x.window = w then k else x) = s.ctxs.map fun x => if x.window = w then { k with window := x.window } else x :=
    List.map_congr_left fun x _ => by
      by_cases hx : x.window = w
      · rw [if_pos hx, if_pos hx, hx, ← hk]
      · rw [if_neg hx, if_neg hx]
  have h := ctx_mapped (f := fun x => { k with window := x.window }) (fun _ => rfl) hc
  rw [← hmap, ctx_window hc] at h
  subst hk
  exact h

theorem heldAt_takenAs {index : Nat} {k : Ctx} : (s.takenAs w v index k).heldAt v.serial (v.ingest + 1) = s.heldAt v.serial (v.ingest + 1) := by
  refine congrArg (fun o : Option Slot => o.bind (·.data)) ?_
  show (s.client.slots.filter _).find? _ = s.client.slots.find? _
  rw [List.find?_filter]
  refine congrArg (fun p => s.client.slots.find? p) (funext fun x => ?_)
  rw [Bool.eq_iff_iff]
  simp
  omega

theorem limit_eq (g : OpenSeg) : g.limit = if g.kind = .raw then 15 else 256 := by
  obtain ⟨index, first, blocks, kind, payload, recs, lead, held⟩ := g
  cases kind <;> rfl

/-- The conditions for a close after a block, in the state before it. -/
theorem dueAfter_takenAs {k : Ctx} (hk : Ctx.TakenFrom { c with seg := { c.seg with blocks := c.seg.blocks + 1 } } k)
    (hserial : c.serial = v.serial) :
    let tags := s.client.tags.map fun x =>
      if x.phase = .waitingCommit ∧ x.serial = some v.serial ∧ x.offset + x.count = v.ingest + 1 then
        { x with waitingOn := some c.seg.index } else x
    let waiting : Nat := (tags.filter fun x => x.serial = some v.serial ∧ x.waitingOn = some c.seg.index).length
    let u := s.takenAs w v c.seg.index k
    ((if k.seg.kind = .raw then 15 else 256) ≤ k.seg.blocks ↔ k.atBlockLimit = true)
    ∧ ((16 ≤ waiting ∨ (0 < waiting ∧ s.heldAt v.serial (v.ingest + 1) = none)) ↔
      (16 ≤ u.waitersOn k || (0 < u.waitersOn k && (u.heldAt v.serial (v.ingest + 1)).isNone)) = true)
    ∧ ((∃ x ∈ s.client.tags, x.phase = .syncing ∧ x.serial = some v.serial ∧ x.target = some (v.ingest + 1)) ↔
      (syncsOf v.serial u.client.tags).any (·.target == some (v.ingest + 1)) = true) := by
  intro tags waiting u
  refine ⟨?_, ?_, ?_⟩
  · rw [Ctx.atBlockLimit, limit_eq, decide_eq_true_eq]
  · have hwaiting : u.waitersOn k = waiting := by
      simp only [State.waitersOn, hk.serial, hk.index, hserial]
      refine congrArg List.length (List.filter_congr fun x _ => ?_)
      rw [Bool.eq_iff_iff]; simp
    rw [hwaiting, heldAt_takenAs]
    simp
  · simp only [syncsOf, List.any_eq_true, List.mem_filter, Bool.and_eq_true, beq_iff_eq]
    constructor
    · rintro ⟨x, hx, hp, hs, ht⟩
      refine ⟨x, ⟨List.mem_map.mpr ⟨x, hx, if_neg fun h => ?_⟩, hp, hs⟩, ht⟩
      rw [hp] at h; cases h.1
    · rintro ⟨y, ⟨hy, hp, hs⟩, ht⟩
      obtain ⟨x, hx, rfl⟩ := List.mem_map.mp hy
      refine ⟨x, hx, ?_⟩
      split_ifs at hp hs ht with h <;> exact ⟨hp, hs, ht⟩

/-! ### TAKE_BLOCK -/

/-- The framer takes the volume's blocks. -/
theorem framerTakes_iff :
    framerTakes v c = true ↔ (v.state = .opened ∨ v.state = .closing ∧ ∃ y, c.close = some y ∧ y.stage = .taking) ∧ c.framer ≠ .afterTrailer := by
  cases hc : c.close <;> simp [framerTakes, hc]

theorem exec_takeBlock {window : BitVec 12} {b : Block} (hr : s.resetHeld = false) (hst : s.startup = none)
    (hv : s.vol window.toNat = some v) (hc : s.ctx window.toNat = some c) (hb : s.heldAt v.serial v.ingest = some b)
    (ht : framerTakes v c = true) : exec (.takeBlock window) s = .next (s.lookAtBlock window.toNat v c b) := by
  show execTakeBlock window s = _
  simp [execTakeBlock, State.starting, hr, hst, hv, hc, hb, ht]

/-- The state after a block and the close then due. -/
def State.closedAfter (w : Nat) (v : Volume) (k : Ctx) (u : State) : State :=
  ((u.dueAfter { v with ingest := v.ingest + 1 } k).map fun cond => u.closeDue cond w).getD u

theorem closedAfter_spec {k : Ctx} (hk : s.ctx w = some k) (hb : k.seg.blocks ≠ 0) :
    (s.closedAfter w v k).vols = s.vols
    ∧ (∃ (n : Nat) (g : OpenSeg) (r : List Byte), (s.closedAfter w v k).ctx w = some { k with next := n, seg := g, reference := r }
      ∧ ((s.closedAfter w v k).pendOf k.serial ≠ [] ∨ g.blocks ≠ 0)
      ∧ (k.seg.held.isSome = true → g = k.seg))
    ∧ (k.seg.held.isSome = true → s.closedAfter w v k = s) := by
  unfold State.closedAfter
  cases s.dueAfter { v with ingest := v.ingest + 1 } k with
  | none => exact ⟨rfl, ⟨k.next, k.seg, k.reference, hk, .inr hb, fun _ => rfl⟩, fun _ => rfl⟩
  | some cond =>
    have hsame (h : k.seg.held.isSome = true) : s.closeDue cond w = s := closeDue_of_none hk (.inr h)
    obtain ⟨n, g, r, hd, -⟩ := ctx_closeDue cond hk
    obtain ⟨x, hx, -, hserial, hleft⟩ := closeDue_of_segments_left (cond := cond) hk (.inr hb)
    obtain rfl := Option.some.inj (hx.symm.trans hd)
    refine ⟨closeDue_vols .., ⟨n, g, r, hd, hleft, fun h => ?_⟩, hsame⟩
    have hd' : s.ctx w = some { k with next := n, seg := g, reference := r } := hsame h ▸ hd
    exact (congrArg Ctx.seg (Option.some.inj (hk.symm.trans hd'))).symm

/-- A block that needs no close before it is taken; then comes the close due after it, and the end of the taking. -/
theorem exec_takeBlock_taken {window : BitVec 12} {b : Block} {k : Ctx} (hr : s.resetHeld = false) (hst : s.startup = none)
    (hv : s.vol window.toNat = some v) (hc : s.ctx window.toNat = some c) (hb : s.heldAt v.serial v.ingest = some b)
    (ht : framerTakes v c = true) (hclose : v.state = .opened ∧ c.close = none ∨ v.state = .closing)
    (hbefore : closeBefore c (losesFraming v c b) = none) (hk : k = c.take (s.tariff.bank c.bank) (losesFraming v c b) b) :
    exec (.takeBlock window) s = .next (State.takingEnds window.toNat v k
      ((s.takenAs window.toNat v c.seg.index k).closedAfter window.toNat v k)) := by
  have hfrom := hk ▸ takenFrom_take (s.tariff.bank c.bank) (losesFraming v c b) b c
  have hctx := ctx_takenAs (v := v) (index := c.seg.index) (hfrom.window.trans (show c.window = _ from ctx_window hc)) hc
  have hvol := vol_takenAs (index := c.seg.index) (k := k) hv
  obtain ⟨hvols, ⟨n, g, r, hd, -⟩, -⟩ := closedAfter_spec (v := v) hctx (by rw [hfrom.blocks]; exact Nat.succ_ne_zero _)
  rw [exec_takeBlock hr hst hv hc hb ht, State.lookAtBlock, hbefore]
  dsimp only
  rw [takeBlock_eq hc, ← hk, State.afterTake, closesAfter_eq hvol hctx]
  refine congrArg _ (afterTrailer_eq (x := { v with ingest := v.ingest + 1 }) ?_ hd rfl rfl rfl ?_)
  · exact (vol_congr hvols).trans hvol
  · exact hclose.imp_left fun h => ⟨h.1, hfrom.close.trans h.2⟩

/-- A close that the block calls for: with none held yet, TAKE_BLOCK goes on from the state that the close due leaves. -/
theorem exec_takeBlock_closed {window : BitVec 12} {b : Block} {cond : CloseCond} (hr : s.resetHeld = false) (hst : s.startup = none)
    (hv : s.vol window.toNat = some v) (hc : s.ctx window.toNat = some c) (hb : s.heldAt v.serial v.ingest = some b)
    (ht : framerTakes v c = true) (hbefore : closeBefore c (losesFraming v c b) = some cond) (hblocks : c.seg.blocks ≠ 0)
    (hheld : c.seg.held = none) :
    exec (.takeBlock window) s = exec (.takeBlock window) (s.closeDue cond window.toNat)
    ∧ (s.canClose c = false → exec (.takeBlock window) s = .next (s.closeDue cond window.toNat)) := by
  have hlook := exec_takeBlock hr hst hv hc hb ht
  have hdue := closeDue_eq (cond := cond) hc hblocks hheld
  obtain ⟨t, htd⟩ : ∃ t, t = s.closeDue cond window.toNat := ⟨_, rfl⟩
  have honly : t = { s with pend := t.pend, alloc := t.alloc, port := t.port, ctxs := t.ctxs } := htd ▸ closeDue_only ..
  have hr' : t.resetHeld = false := (congrArg State.resetHeld honly).trans hr
  have hst' : t.startup = none := (congrArg State.startup honly).trans hst
  have hv' : t.vol window.toNat = some v := (congrArg (fun u : State => u.vol window.toNat) honly).trans hv
  have hb' : t.heldAt v.serial v.ingest = some b := (congrArg (fun u : State => u.heldAt v.serial v.ingest) honly).trans hb
  have hheldIs : c.seg.held.isSome = false := by rw [hheld]; rfl
  rw [State.lookAtBlock, hbefore] at hlook
  simp only [hheldIs, Bool.false_eq_true, if_false] at hlook
  rw [← htd] at hdue ⊢
  cases hcan : s.canClose c with
  | true =>
    rw [hcan, if_pos rfl] at hdue hlook
    have hc' : t.ctx window.toNat = some c.begun := by rw [hdue]; exact ctx_seal hc
    have hnone : closeBefore c.begun (losesFraming v c.begun b) = none := if_pos rfl
    refine ⟨?_, nofun⟩
    rw [hlook, exec_takeBlock hr' hst' hv' hc' hb' ht, State.lookAtBlock, hnone, hdue]
    rfl
  | false =>
    rw [hcan, if_neg Bool.false_ne_true] at hlook
    have hhold : s.holdClose cond window.toNat c = t := by
      rw [htd, State.closeDue, hc]
      simp [hblocks, hheld, hcan]
    rw [hhold] at hlook
    refine ⟨?_, fun _ => hlook⟩
    obtain ⟨l, hc'⟩ : ∃ h, t.ctx window.toNat = some { c with seg := { c.seg with held := some h } } := by
      rw [hdue, hcan, if_neg Bool.false_ne_true]
      have hctx := ctx_closeHeld (cond := cond) hc
      split
      · obtain ⟨l, hl⟩ := joinWaiting_eq (.seal window.toNat c.serial) (s.closeHeld cond window.toNat)
        rw [hl]; exact ⟨_, hctx⟩
      · exact ⟨_, hctx⟩
    rw [hlook, exec_takeBlock hr' hst' hv' hc' hb' ht, State.lookAtBlock]
    have hsame : closeBefore { c with seg := { c.seg with held := some l } }
        (losesFraming v { c with seg := { c.seg with held := some l } } b) = some cond := hbefore
    rw [hsame]
    rfl

/-- The records that a block completes are counted and coded as their kinds say (3.3, 4.4). -/
theorem takeCalls_records {bank : List TariffEntry} {block : Block} {c : Ctx} {recs : List (List Byte)} {tr : Option (List Byte)}
    {rest : List Byte} (hblock : block.length = 4096) (hcarry : c.carry.length < 40)
    (hstream : c.carry ++ block = recs.flatten ++ tr.getD [] ++ rest) (hrecs : ∀ r ∈ recs, r.length = 40 ∧ recKind r ≠ kindT)
    (htr : ∀ r, tr = some r → r.length = 40 ∧ recKind r = kindT) (hrest : tr = none → rest.length < 40)
    (hhead : c.headerTaken = false → recs ≠ []) :
    recs ++ tr.toList ≠ [] ∧ takeCalls bank block c = { countCalls bank (if c.headerTaken then recs else recs.drop 1) c with
      headerTaken := true
      carry := if tr.isSome then [] else rest
      afterTrailer := if tr.isSome then rest else []
      digest := crc64Run c.digest block
      trailer := (tr.map trailerTotals).or c.trailer
      framer := if tr.isSome then .afterTrailer else c.framer
      reference := (c.codedBlock block (recs ++ tr.toList)).reference
      seg := { (c.codedBlock block (recs ++ tr.toList)).seg with blocks := c.seg.blocks + 1 } } := by
  have hlen := congrArg List.length hstream
  have hflat : recs.flatten.length = 40 * recs.length := by
    rw [List.length_flatten, List.map_congr_left fun r hr => (hrecs r hr).1]
    simp [Nat.mul_comm]
  simp only [List.length_append, hflat] at hlen
  have hall : recs ++ tr.toList ≠ [] := by
    intro hn
    obtain ⟨rfl, htl⟩ := List.append_eq_nil_iff.mp hn
    obtain rfl : tr = none := by simpa using htl
    have := hrest rfl
    simp at hlen
    omega
  have hsplit : splitRecords 104 (c.carry ++ block) = (recs ++ tr.toList, rest, tr.isSome) :=
    hstream ▸ splitRecords_append hrecs htr hrest (by omega)
  exact ⟨hall, takeCalls_eq hsplit (fun r hr => (hrecs r hr).2) (fun r hr => (htr r hr).2) hhead hall⟩

/-- Settles O44: the block and its closes from the state that each step leaves, and its records from the stream they stand in. -/
theorem takeBlockFramesTheBlock : Obligations.TakeBlockFramesTheBlock := by
  unfold Obligations.TakeBlockFramesTheBlock
  refine ⟨?taken, ?untaken, ?records, ?holds⟩
  case taken =>
    intro window s v c b hr hst hv hc hserial hstate hb hnotAfter loss full raw tags taken held limit waiting committed synced stopped ends
      closes made room
    have htakes : framerTakes v c = true := framerTakes_iff.mpr ⟨hstate.imp And.left id, hnotAfter⟩
    have hclose : v.state = .opened ∧ c.close = none ∨ v.state = .closing := hstate.imp_right And.left
    have hloss : loss ↔ losesFraming v c b = true := by simp [loss, losesFraming]
    have hlimit : (if c.seg.kind = .raw then 15 else 256) ≤ c.seg.blocks ↔ c.atBlockLimit = true := by
      rw [Ctx.atBlockLimit, limit_eq, decide_eq_true_eq]
    have hnone (h : c.seg.blocks = 0 ∨ ¬(loss ∨ full)) : closeBefore c (losesFraming v c b) = none := by
      unfold closeBefore
      rcases h with h | h
      · rw [if_pos (by simpa using h)]
      · obtain ⟨hl, hf⟩ := not_or.mp h
        obtain ⟨hlim, hres⟩ := not_or.mp hf
        rw [if_neg (mt hloss.mpr hl), if_neg (mt hlimit.mpr hlim), if_neg hres, ite_self]
    have hdone {k : Ctx} (h : c.seg.blocks = 0 ∨ ¬(loss ∨ full)) (hk : k = c.take (s.tariff.bank c.bank) (losesFraming v c b) b) :=
      exec_takeBlock_taken hr hst hv hc hb htakes hclose (hnone h) hk
    have hfrom {k : Ctx} (hk : k = c.take (s.tariff.bank c.bank) (losesFraming v c b) b) :
        Ctx.TakenFrom { c with seg := { c.seg with blocks := c.seg.blocks + 1 } } k ∧ (taken k).ctx window.toNat = some k := by
      have h := hk ▸ takenFrom_take (s.tariff.bank c.bank) (losesFraming v c b) b c
      exact ⟨h, ctx_takenAs (v := v) (index := c.seg.index) (h.window.trans (show c.window = _ from ctx_window hc)) hc⟩
    have hmade {k : Ctx} (h : c.seg.blocks = 0 ∨ ¬(loss ∨ full)) (hk : k = c.take (s.tariff.bank c.bank) (losesFraming v c b) b) :
        made k := by
      have hexec := hdone h hk
      obtain ⟨hkept, hctx⟩ := hfrom hk
      obtain ⟨hlim, hcom, hsync⟩ := dueAfter_takenAs (s := s) hkept hserial
      have hblocks : k.seg.blocks ≠ 0 := by rw [hkept.blocks]; exact Nat.succ_ne_zero _
      constructor
      · intro hno
        rw [hexec]
        refine congrArg _ (congrArg (ends k) ?_)
        rcases hno with hheld | ⟨hl, hc', hs⟩
        · exact (closedAfter_spec hctx hblocks).2.2 (by rw [hkept.held]; exact hheld)
        · show State.closedAfter _ _ _ _ = _
          rw [State.closedAfter, State.dueAfter, if_neg (mt hlim.mpr hl), if_neg (mt hcom.mpr hc'), if_neg (mt hsync.mpr hs)]
          rfl
      · intro hheld
        have hcloses {cond : CloseCond}
            (hdue : State.dueAfter { v with ingest := v.ingest + 1 } k (s.takenAs window.toNat v c.seg.index k) = some cond) :
            closes cond k := by
          refine ⟨_, exec_heldClose_closeHeld (s := taken k) cond hr hst hctx hblocks (by rw [hkept.held]; exact hheld), ?_⟩
          rw [hexec]
          refine congrArg _ (congrArg (ends k) ?_)
          show State.closedAfter _ _ _ _ = _
          rw [State.closedAfter, hdue]
          rfl
        refine ⟨fun hl => hcloses ?_, fun hl hc' => hcloses ?_, fun hl hc' hs => hcloses ?_⟩
        · rw [State.dueAfter, if_pos (hlim.mp hl)]
        · rw [State.dueAfter, if_neg (mt hlim.mpr hl), if_pos (hcom.mp hc')]
        · rw [State.dueAfter, if_neg (mt hlim.mpr hl), if_neg (mt hcom.mpr hc'), if_pos (hsync.mp hs)]
    have hcalls (hf : c.framer = .inCalls) (hl : ¬loss) :
        takeCalls (s.tariff.bank c.bank) b c = c.take (s.tariff.bank c.bank) (losesFraming v c b) b := by
      simp [Ctx.take, hf, mt hloss.mpr hl]
    refine ⟨?raw, ?loses, ?calls, ?trailer, ?stays, ?pending, ?before⟩
    case raw =>
      intro hf hfull
      have hl : ¬loss := fun h => absurd (hf.symm.trans h.1) (by decide)
      refine hmade (hfull.imp_right fun h => not_or.mpr ⟨hl, h⟩) ?_
      simp only [Ctx.take, hf, beq_self_eq_true, if_true]
      rfl
    case loses =>
      intro hl hb0
      refine hmade (.inl hb0) ?_
      simp only [Ctx.take, hl.1, hloss.mp hl]
      rfl
    case calls => exact fun hf hl hfull => hmade (hfull.imp_right fun h => not_or.mpr ⟨hl, h⟩) (hcalls hf hl)
    case trailer =>
      intro hf hl hfull k hafter
      have hk := hcalls hf hl
      have hexec := hdone (hfull.imp_right fun h => not_or.mpr ⟨hl, h⟩) hk
      obtain ⟨hkept, hctx⟩ := hfrom hk
      have hblocks : k.seg.blocks ≠ 0 := by rw [hkept.blocks]; exact Nat.succ_ne_zero _
      obtain ⟨hvols, ⟨n, g, r, hd, hleft, hg⟩, hsame⟩ := closedAfter_spec (v := v) hctx hblocks
      have hvol : (State.closedAfter window.toNat v k (taken k)).vol window.toNat = some { v with ingest := v.ingest + 1 } :=
        (vol_congr hvols).trans (vol_takenAs hv)
      obtain ⟨hv', hslots, y, m, g', r', hstage, href, hx, hheld⟩ := trailerStop_spec (v := v) hvol hd rfl
        (hkept.serial.trans hserial) hleft (hstate.imp (fun h => ⟨h.1, hkept.close.trans h.2⟩)
          (fun h => ⟨h.1, by obtain ⟨y, hy, -⟩ := h.2; exact Option.isSome_iff_exists.mpr ⟨y, hkept.close.trans hy⟩⟩))
      refine ⟨_, _, hexec.trans (congrArg _ (if_pos hafter)), hv', hslots, hx, rfl, rfl, rfl, ?_, y, rfl, ?_, .inl hstage, fun h => ?_⟩
      · show (if v.state = .closing then k.idle else none) = _
        rw [hkept.idle]
      · rw [href]
        exact congrArg (fun o : Option Closing => o.bind (·.ref)) hkept.close
      · have hk' : k.seg.held.isSome = true := by rw [hkept.held]; exact h
        obtain ⟨hseg, hpend⟩ := hheld (by rw [hg hk']; exact hk')
        exact ⟨hstage, hseg.trans (hg hk'), hpend.trans (by rw [show State.closedAfter _ _ _ _ = _ from hsame hk'])⟩
    case stays =>
      intro hb0 hlf hheld
      have hsome : closeBefore c (losesFraming v c b) ≠ none := by
        unfold closeBefore
        rw [if_neg (by simpa using hb0)]
        split_ifs with h1 h2 h3
        · nofun
        · nofun
        · nofun
        · exact absurd hlf (not_or.mpr ⟨mt hloss.mp h1, not_or.mpr ⟨mt hlimit.mp h2, h3⟩⟩)
      obtain ⟨cond, hcond⟩ := Option.ne_none_iff_exists'.mp hsome
      rw [exec_takeBlock hr hst hv hc hb htakes, State.lookAtBlock, hcond]
      exact congrArg _ (if_pos hheld)
    all_goals
      have hcond (hb0 : c.seg.blocks ≠ 0) (hlf : loss ∨ full) : closeBefore c (losesFraming v c b)
          = some (if c.framer = .inCalls ∧ isLossBlock v c b = true then .framingLoss
            else if (if c.seg.kind = .raw then 15 else 256) ≤ c.seg.blocks then .blockLimit else .payloadReserve) := by
        unfold closeBefore
        rw [if_neg (by simpa using hb0)]
        by_cases h1 : loss
        · rw [if_pos (hloss.mp h1), if_pos h1]
        rw [if_neg (mt hloss.mpr h1), if_neg h1]
        by_cases h2 : (if c.seg.kind = .raw then 15 else 256) ≤ c.seg.blocks
        · rw [if_pos (hlimit.mp h2), if_pos h2]
        rw [if_neg (mt hlimit.mpr h2), if_neg h2, if_pos ((hlf.resolve_left h1).resolve_left h2)]
    case pending =>
      intro hb0 hlf hheld hp
      obtain ⟨cond, hbefore⟩ : ∃ cond, closeBefore c (losesFraming v c b) = some cond := ⟨_, hcond hb0 hlf⟩
      obtain ⟨-, hstop⟩ := exec_takeBlock_closed hr hst hv hc hb htakes hbefore hb0 hheld
      have hdue := closeDue_eq (cond := cond) hc hb0 hheld
      rw [canClose_of_pending hp, if_neg Bool.false_ne_true] at hdue
      refine ⟨_, hstop (canClose_of_pending hp), closeDue_vols cond window.toNat s,
        closeDue_client cond window.toNat s, closeDue_pend_of_pending hc hp, cond, ?_⟩
      rw [hdue]
      split
      · obtain ⟨l, hl⟩ := joinWaiting_eq (.seal window.toNat c.serial) (s.closeHeld cond window.toNat)
        rw [hl]; rfl
      · rfl
    case before =>
      intro hb0 hlf hheld now
      obtain ⟨hagain, -⟩ := exec_takeBlock_closed hr hst hv hc hb htakes (hcond hb0 hlf) hb0 hheld
      refine ⟨_, exec_heldClose_closeHeld _ hr hst hc hb0 hheld, hagain, closeDue_vols .., closeDue_client .., fun hp hm hroom => ?_⟩
      rw [closeDue_eq hc hb0 hheld, canClose_of_room hp hm (sealPlaces_iff.mpr hroom), if_pos rfl]
      exact ctx_seal hc
  case untaken =>
    intro window s
    have hstop (h : (s.starting || s.resetHeld) = true) : exec (.takeBlock window) s = .next s := congrArg _ (if_pos h)
    have hbody (h : (match s.vol window.toNat, s.ctx window.toNat with
        | some v, some c => match s.heldAt v.serial v.ingest with
          | none => s
          | some block => if framerTakes v c then s.lookAtBlock window.toNat v c block else s
        | _, _ => s) = s) : exec (.takeBlock window) s = .next s := by
      by_cases hno : (s.starting || s.resetHeld) = true
      · exact hstop hno
      · exact congrArg _ ((if_neg hno).trans h)
    refine ⟨fun h => hbody ?_, fun v c hv hc h => hbody ?_⟩
    · rcases h with h | h
      · rw [h]
      · rw [h]; cases s.vol window.toNat <;> rfl
    · rw [hv, hc]
      dsimp only
      cases hb : s.heldAt v.serial v.ingest with
      | none => rfl
      | some b =>
        refine if_neg fun ht => ?_
        obtain ⟨hstate, hafter⟩ := framerTakes_iff.mp ht
        rcases h with ⟨ho, hcl⟩ | ⟨hcl, hstage⟩ | hf | hn
        · exact hstate.elim ho fun h => hcl h.1
        · rcases hstate with ho | ⟨-, y, hy, hyt⟩
          · rw [hcl] at ho; cases ho
          · exact hstage y hy hyt
        · exact hafter hf
        · rw [hb] at hn; cases hn
  case records =>
    intro bank block c recs tr rest hblock hcarry hcalls hstream hrecs htr hrest hhead t all k flagged coded split
    obtain ⟨hall, heq⟩ := takeCalls_records (bank := bank) hblock hcarry hstream hrecs htr hrest hhead
    have hcoded : coded = codedRecords c.headerTaken all := by
      show (match recs ++ tr.toList with
        | [] => []
        | r :: rs => (c.headerTaken && (flagged r).1, r) :: rs.map flagged) = codedRecords c.headerTaken (recs ++ tr.toList)
      cases recs ++ tr.toList <;> rfl
    have hmany : 1 ≤ all.length := List.length_pos_iff.mpr hall
    have hblockSplit (h : split) : c.codedBlock block all = (storeLead (block.take (40 - c.carry.length)) c).coded (coded.drop 1) := by
      rw [hcoded]; exact if_pos h
    have hblockWhole (h : ¬split) : c.codedBlock block all = c.coded coded := by
      rw [hcoded]; exact if_neg h
    have hsnd : coded.map (·.2) = all := by rw [hcoded]; exact codedRecords_snd ..
    have hlen : coded.length = all.length := by rw [hcoded]; exact length_codedRecords ..
    have hseg : t.seg = { (c.codedBlock block all).seg with blocks := c.seg.blocks + 1 } := congrArg Ctx.seg heq
    refine ⟨congrArg Ctx.headerTaken heq, (congrArg Ctx.counts heq).trans rfl, (congrArg Ctx.lastSeq heq).trans rfl,
      (congrArg Ctx.overflow heq).trans rfl,
      congrArg Ctx.digest heq, by rw [hseg], fun hn => ?_, fun r hr => ?_, ?_, fun h => ⟨?_, ?_, ?_⟩, fun h => ⟨?_, ?_, ?_⟩⟩
    · subst hn
      exact ⟨congrArg Ctx.carry heq, congrArg Ctx.afterTrailer heq, (congrArg Ctx.framer heq).trans hcalls,
        (congrArg Ctx.trailer heq).trans rfl⟩
    · subst hr
      exact ⟨congrArg Ctx.carry heq, congrArg Ctx.afterTrailer heq, congrArg Ctx.framer heq, congrArg Ctx.trailer heq⟩
    · refine (congrArg Ctx.reference heq).trans ?_
      show (c.codedBlock block all).reference = _
      by_cases h : split
      · rw [hblockSplit h, if_pos h, ← hsnd, ← List.map_drop]; rfl
      · rw [hblockWhole h, if_neg h, ← hsnd]; rfl
    · rw [hseg, hblockSplit h]; rfl
    · rw [hseg, hblockSplit h]
      show (block.take (40 - c.carry.length)).length = _
      rw [List.length_take]; omega
    · rw [hseg, hblockSplit h]
      show c.seg.recs + (coded.drop 1).length + 1 = _
      rw [List.length_drop]; omega
    · rw [hseg, hblockWhole h]; rfl
    · rw [hseg, hblockWhole h]; rfl
    · rw [hseg, hblockWhole h]
      show c.seg.recs + coded.length = _
      rw [hlen]
  case holds =>
    intro bank block v c bytes hblock hcalls hcarry hloss hhead hfirst
    exact takeCalls_holds hblock hcalls hcarry hloss hhead hfirst

end Sys2Proof.Machine
end

section
/-! The store watchdog and the store link (5.8, 5.10, 2.11): O52. -/

namespace Sys2Proof.Machine

variable {s : State}

/-! ### The watchdog -/

theorem exec_watchdog_of_none {tag : Byte} (h : s.entry tag.toNat = none) : exec (.storeWatchdogExpiry tag) s = .next s := by
  show execStoreWatchdogExpiry tag s = _
  simp [execStoreWatchdogExpiry, h]

theorem exec_watchdog_of_stopped {tag : Byte} {e : StoreEntry} (he : s.entry tag.toNat = some e)
    (h : e.abandoned = true ∨ e.watchdog = 0) : exec (.storeWatchdogExpiry tag) s = .next s := by
  have hstopped : (e.abandoned || e.watchdog == 0) = true := by simpa using h
  show execStoreWatchdogExpiry tag s = _
  simp [execStoreWatchdogExpiry, he, hstopped]

theorem exec_watchdog_of_discarded {tag : Byte} {e : StoreEntry} (hr : s.resetHeld = false) (he : s.entry tag.toNat = some e)
    (ha : e.abandoned = false) (hw : e.watchdog ≠ 0) (hd : e.discard = true) :
    exec (.storeWatchdogExpiry tag) s = .next (s.timedOut tag) := by
  have hruns : ¬(e.abandoned || e.watchdog == 0) = true := by simp [ha, hw]
  have hout : State.send (.storeAbort e.tag) (s.abandon e.tag) = s.timedOut tag := by
    rw [entry_tag he]
    simp only [State.abandon, State.send, State.timedOut, beq_iff_eq]
  show execStoreWatchdogExpiry tag s = _
  rw [execStoreWatchdogExpiry, if_neg (ne_true_of_eq_false hr), he]
  dsimp only
  rw [if_neg hruns, if_pos hd, hout]

/-! ### Start-up's requests -/

theorem startReadEnds_timeout {u : Startup} (hu : s.startup = some u) : s.startReadEnds (.error .timeout)
    = if u.second then s.startStep u (.error .timeout) else s.startRead { u with second := true } := by
  simp only [State.startReadEnds, hu]

/-- A block of a zone that could not be read is left unread, and the next one is asked for, or the zone is judged. -/
theorem startStep_scan {u : Startup} {cls : FaultClass} (hp : u.phase = .scan) : s.startStep u (.error cls) = s.scanRead u none := by
  simp only [State.startStep, hp]

theorem startStep_journal {u : Startup} {cls : FaultClass} (hp : u.phase = .journal) : s.startStep u (.error cls) = s.ringRead u none := by
  simp only [State.startStep, hp]

theorem startStep_halts {u : Startup} {cls : FaultClass} (hp : u.phase = .settings ∨ u.phase = .catalogue) :
    s.startStep u (.error cls) = s.enterHalted cls := by
  rcases hp with hp | hp <;> simp only [State.startStep, hp]

theorem scanRead_first {u : Startup} {b : Option Block} (hr : u.redo = none) : s.scanRead u b
    = if u.pos % 4096 = 4095 then s.zoneRead { u with zoneBlocks := b :: u.zoneBlocks }
      else s.startRead { u with zoneBlocks := b :: u.zoneBlocks, pos := u.pos + 1, second := false } := by
  simp only [State.scanRead, hr, beq_iff_eq]

theorem scanRead_again {u : Startup} {b : Option Block} {stop : Nat} (hr : u.redo = some stop) : s.scanRead u b
    = if u.pos % 4096 + 1 = stop then s.zoneRead { u with zoneBlocks := u.zoneBlocks.set (4095 - u.pos % 4096) b, redo := none }
      else s.startRead { u with zoneBlocks := u.zoneBlocks.set (4095 - u.pos % 4096) b, pos := u.pos + 1 } := by
  simp only [State.scanRead, hr, beq_iff_eq]

theorem modStartup_of_some {u : Startup} {f : Startup → Startup} (hu : s.startup = some u) :
    s.modStartup f = { s with startup := some (f u) } := by
  rw [State.modStartup, hu, Option.map_some]

theorem setJournal_startup (u : Startup) (s : State) : (s.setJournal u).startup = s.startup := by
  unfold State.setJournal
  split <;> rfl

/-- Phases 8 to 10 of start-up, once the ring has been read: the journal, the chain, the queues and serials, then the contexts and the
resume rules, volume by volume. -/
theorem settle_eq {u : Startup} (hu : s.startup = some u) :
    let set := (((s.setJournal u).setChain).requeue u).setSerial u
    let begun : State := { set with startup := some { u with phase := .finish, cut := set.ret.queue.any (·.cut) } }
    let given := (set.vols.filter fun v => v.state = .opened ∨ v.state = .suspended ∨ v.state = .closing).foldl
      (fun x v => giveContext u v x) begun
    s.settle u = given.vols.foldl (fun x v => settleVolume u v x) given := by
  have hset : ((((s.setJournal u).setChain).requeue u).setSerial u).startup = some u := (setJournal_startup u s).trans hu
  have hholds : (fun v : Volume => decide (v.state = .opened ∨ v.state = .suspended ∨ v.state = .closing)) = holdsContext := by
    funext v
    rw [Bool.eq_iff_iff]
    simp [holdsContext, or_assoc]
  simp only [State.settle, modStartup_of_some hset, each_eq_foldl, ← hholds]

/-! ### The link DOWN in FAIL mode -/

/-- What an UNAVAILABLE answer, or several, keep: the messages sent, the other requests, the settings unit, and every queued request that is
no client's ring read; a request that went has its completion. -/
structure State.Unavailable (u t : State) : Prop where
  sent : ∀ m ∈ u.sent, m ∈ t.sent
  tags : ∀ e ∈ t.client.tags, e ∈ u.client.tags
  nodup : (u.client.tags.map (·.tag)).Nodup → (t.client.tags.map (·.tag)).Nodup
  gone : ∀ e ∈ u.client.tags, e ∈ t.client.tags ∨ (.completion e.tag .unavailable none 0 ∈ t.sent ∧ ∀ x ∈ t.client.tags, x.tag ≠ e.tag)
  set : t.set = u.set
  queue : ∀ r ∈ u.port.queue, (∀ n i, r.user ≠ .journalRead n i) → r ∈ t.port.queue

theorem State.Unavailable.refl (u : State) : u.Unavailable u :=
  ⟨fun _ h => h, fun _ h => h, id, fun _ h => .inl h, rfl, fun _ h _ => h⟩

theorem State.Unavailable.trans {u t r : State} (h : u.Unavailable t) (k : t.Unavailable r) : u.Unavailable r where
  sent m hm := k.sent m (h.sent m hm)
  tags e he := h.tags e (k.tags e he)
  nodup hn := k.nodup (h.nodup hn)
  gone e he := by
    rcases h.gone e he with ht | ⟨hsent, hno⟩
    · exact k.gone e ht
    · exact .inr ⟨k.sent _ hsent, fun x hx => hno x (k.tags x hx)⟩
  set := k.set.trans h.set
  queue r hr hn := k.queue r (h.queue r hr hn) hn

theorem unavailable_complete (a : Nat) (u : State) : u.Unavailable (u.complete a .unavailable none 0) where
  sent m hm := List.mem_append_left _ hm
  tags e he := List.mem_of_mem_filter he
  nodup hn := hn.sublist (List.filter_sublist.map _)
  gone e he := by
    by_cases ha : e.tag = a
    · refine .inr ⟨List.mem_append_right _ (by rw [ha]; exact List.mem_singleton_self _), fun x hx => ?_⟩
      rw [ha]
      simpa using (List.mem_filter.mp hx).2
    · exact .inl (List.mem_filter.mpr ⟨he, by simpa using ha⟩)
  set := rfl
  queue r hr hn := by
    refine List.mem_filter.mpr ⟨hr, ?_⟩
    rw [Bool.not_eq_true']
    unfold isJournalReadOf
    split
    next h => exact absurd h (hn _ _)
    · rfl

theorem unavailable_answer (a : Nat) (u : State) : u.Unavailable (u.answer (some a) .unavailable none) := by
  unfold State.answer
  dsimp only
  split
  · exact unavailable_complete a u
  · exact ⟨fun m hm => List.mem_append_left _ hm, fun _ h => h, id, fun _ h => .inl h, rfl, fun _ h _ => h⟩

theorem sent_answer (a : Nat) (u : State) : .completion a .unavailable none 0 ∈ (u.answer (some a) .unavailable none).sent := by
  unfold State.answer
  dsimp only
  split <;> exact List.mem_append_right _ (List.mem_singleton_self _)

/-- A client request waits for the store. -/
def TagEntry.waitsForStore (e : TagEntry) : Prop := e.phase = .waitingCommit ∨ e.phase = .syncing ∨ (e.phase = .serving ∧ e.wait ≠ .idle)

theorem failWaiting_of_waits {e : TagEntry} (h : e.waitsForStore) (u : State) : failWaiting e u = u.complete e.tag .unavailable none 0 := by
  refine if_pos ?_
  simpa [TagEntry.waitsForStore, or_assoc] using h

theorem failWaiting_of_not {e : TagEntry} (h : ¬e.waitsForStore) (u : State) : failWaiting e u = u := by
  refine if_neg fun hw => h ?_
  simpa [TagEntry.waitsForStore, or_assoc] using hw

theorem unavailable_failWaiting (e : TagEntry) (u : State) : u.Unavailable (failWaiting e u) := by
  by_cases h : e.waitsForStore
  · rw [failWaiting_of_waits h]; exact unavailable_complete e.tag u
  · rw [failWaiting_of_not h]; exact .refl u

/-- A list of steps keeps what each step keeps of the state before it. -/
theorem unavailable_each {α : Type} {f : α → State → State} (hf : ∀ (x : α) (u : State), u.Unavailable (f x u)) (xs : List α) (u : State) :
    u.Unavailable (each f xs u) := by
  induction xs generalizing u with
  | nil => exact .refl u
  | cons x xs ih => exact (hf x u).trans (ih _)

/-- What one of the steps brings about, the later ones keep. -/
theorem each_brings {α : Type} {f : α → State → State} {P : State → Prop} (hf : ∀ x u, P u → P (f x u)) {a : α} (ha : ∀ u, P (f a u))
    {xs : List α} (hx : a ∈ xs) (u : State) : P (each f xs u) := by
  induction xs generalizing u with
  | nil => cases hx
  | cons x xs ih =>
    rcases List.mem_cons.mp hx with rfl | hx
    · exact each_of_kept hf xs (ha u)
    · exact ih hx _

/-- What every step of a list keeps, the list keeps. -/
theorem each_keeps {α : Type} {f : α → State → State} {P : State → Prop} {xs : List α} (hf : ∀ x ∈ xs, ∀ u, P u → P (f x u)) {u : State}
    (h : P u) : P (each f xs u) := by
  induction xs generalizing u with
  | nil => exact h
  | cons x xs ih => exact ih (fun y hy => hf y (List.mem_cons_of_mem _ hy)) (hf x List.mem_cons_self u h)

/-- The directives that wait on a settings or catalogue write, as the tags they are owed at. -/
theorem mem_owed {x : SettingsUnit} {a : Nat} : a ∈ x.owed ↔
    (∃ l : List SetWaiter, ((∃ w, x.write = some w ∧ l = w.waiters) ∨ x.gathered = some l)
      ∧ (.directive (some a) ∈ l ∨ ∃ r, .calendar (some a) r ∈ l))
    ∨ ∃ c ∈ x.catWrites, .resume (some a) ∈ c.waiters ∨ ∃ l, c.gathered = some l ∧ .resume (some a) ∈ l := by
  have hset (l : List SetWaiter) : a ∈ l.filterMap SetWaiter.owed ↔ .directive (some a) ∈ l ∨ ∃ r, .calendar (some a) r ∈ l := by
    rw [List.mem_filterMap]
    constructor
    · rintro ⟨w, hw, ho⟩
      cases w with
      | directive o => obtain rfl : o = some a := ho; exact .inl hw
      | calendar o r => obtain rfl : o = some a := ho; exact .inr ⟨r, hw⟩
      | opening n => cases ho
      | floor => cases ho
      | format => cases ho
    · rintro (h | ⟨r, h⟩)
      · exact ⟨_, h, rfl⟩
      · exact ⟨_, h, rfl⟩
  have hcat (l : List CatWaiter) : a ∈ l.filterMap CatWaiter.owed ↔ .resume (some a) ∈ l := by
    rw [List.mem_filterMap]
    constructor
    · rintro ⟨w, hw, ho⟩
      cases w with
      | resume o => obtain rfl : o = some a := ho; exact hw
      | opening n => cases ho
      | closing w n => cases ho
      | expiring w n => cases ho
      | free w n => cases ho
      | format => cases ho
    · exact fun h => ⟨_, h, rfl⟩
  rw [SettingsUnit.owed, List.mem_append]
  refine or_congr ?_ ?_
  · rw [List.filterMap_append, List.mem_append, hset, hset]
    cases x.write <;> cases x.gathered <;> simp
  · rw [List.mem_filterMap]
    simp only [List.mem_flatMap, List.mem_append]
    constructor
    · rintro ⟨w, ⟨c, hc, hw⟩, ho⟩
      refine ⟨c, hc, hw.imp (fun h => (hcat _).mp (List.mem_filterMap.mpr ⟨w, h, ho⟩)) fun h => ?_⟩
      cases hg : c.gathered with
      | none => rw [hg] at h; cases h
      | some l => exact ⟨l, rfl, (hcat _).mp (List.mem_filterMap.mpr ⟨w, by rwa [hg] at h, ho⟩)⟩
    · rintro ⟨c, hc, h | ⟨l, hl, h⟩⟩
      · exact ⟨_, ⟨c, hc, .inl h⟩, rfl⟩
      · exact ⟨_, ⟨c, hc, .inr (by rw [hl]; exact h)⟩, rfl⟩

/-- No directive is owed a completion once the waiters are mute. -/
theorem muteWaiters_owed (u : State) : u.muteWaiters.set.owed = [] := by
  have hset (l : List SetWaiter) : (l.map SetWaiter.mute).filterMap SetWaiter.owed = [] := by
    rw [List.filterMap_map, List.filterMap_eq_nil_iff]
    intro w _
    cases w <;> rfl
  have hcat (l : List CatWaiter) : (l.map CatWaiter.mute).filterMap CatWaiter.owed = [] := by
    rw [List.filterMap_map, List.filterMap_eq_nil_iff]
    intro w _
    cases w <;> rfl
  refine List.append_eq_nil_iff.mpr ⟨?_, ?_⟩
  · rw [List.filterMap_append, List.append_eq_nil_iff]
    constructor
    · cases hw : u.set.write with
      | none => simp [State.muteWaiters, hw]
      | some w => simpa [State.muteWaiters, hw] using hset w.waiters
    · cases hg : u.set.gathered with
      | none => simp [State.muteWaiters, hg]
      | some ws => simpa [State.muteWaiters, hg] using hset ws
  · rw [List.filterMap_flatMap, List.flatMap_eq_nil_iff]
    intro c hc
    obtain ⟨d, -, rfl⟩ := List.mem_map.mp hc
    show List.filterMap _ (d.waiters.map _ ++ (d.gathered.map _).getD []) = []
    rw [List.filterMap_append, hcat]
    cases d.gathered with
    | none => rfl
    | some ws => exact hcat ws

/-- What FAIL mode answers at a DOWN, and what it leaves. -/
theorem failAtDown_spec (u : State) :
    (∀ a ∈ u.set.owed, .completion a .unavailable none 0 ∈ u.failAtDown.sent) ∧ u.failAtDown.set.owed = []
    ∧ (∀ e ∈ u.client.tags, e.waitsForStore →
      .completion e.tag .unavailable none 0 ∈ u.failAtDown.sent ∧ u.failAtDown.tag e.tag = none)
    ∧ ((u.client.tags.map (·.tag)).Nodup → ∀ e ∈ u.client.tags, ¬e.waitsForStore → (e.phase = .directive → e.tag ∉ u.set.owed) →
      u.failAtDown.tag e.tag = some e)
    ∧ (∀ r ∈ u.port.queue, (∀ n i, r.user ≠ .journalRead n i) → r ∈ u.failAtDown.port.queue) := by
  obtain ⟨t, ht⟩ : ∃ t, t = each (fun t => State.answer (some t) .unavailable none) u.set.owed u := ⟨_, rfl⟩
  have hanswers : u.Unavailable t := ht ▸ unavailable_each unavailable_answer _ u
  have hfail : u.failAtDown = each failWaiting t.client.tags t.muteWaiters := by rw [ht]; rfl
  have hwaiting : t.muteWaiters.Unavailable u.failAtDown := hfail ▸ unavailable_each unavailable_failWaiting _ _
  have htags : t.muteWaiters.client.tags = t.client.tags := rfl
  have htagNone {a : Nat} (h : ∀ x ∈ u.failAtDown.client.tags, x.tag ≠ a) : u.failAtDown.tag a = none :=
    List.find?_eq_none.mpr fun x hx => by simpa using h x hx
  refine ⟨fun a ha => hwaiting.sent _ ?_, by rw [hwaiting.set, muteWaiters_owed], fun e he hw => ?_, fun hn e he hw hd => ?_,
    fun r hr hn => hwaiting.queue r (hanswers.queue r hr hn) hn⟩
  · rw [show t.muteWaiters.sent = t.sent from rfl, ht]
    exact each_brings (P := fun x => .completion a .unavailable none 0 ∈ x.sent) (fun x v h => (unavailable_answer x v).sent _ h)
      (sent_answer a) ha u
  · rcases hanswers.gone e he with hin | ⟨hsent, hno⟩
    · have hstep (v : State) : .completion e.tag .unavailable none 0 ∈ (failWaiting e v).sent
          ∧ ∀ x ∈ (failWaiting e v).client.tags, x.tag ≠ e.tag := by
        rw [failWaiting_of_waits hw]
        exact ⟨List.mem_append_right _ (List.mem_singleton_self _), fun x hx => by simpa using (List.mem_filter.mp hx).2⟩
      have hboth := each_brings (P := fun v => .completion e.tag .unavailable none 0 ∈ v.sent ∧ ∀ x ∈ v.client.tags, x.tag ≠ e.tag)
        (fun x v h => ⟨(unavailable_failWaiting x v).sent _ h.1, fun y hy => h.2 y ((unavailable_failWaiting x v).tags y hy)⟩) hstep hin
        t.muteWaiters
      rw [← hfail] at hboth
      exact ⟨hboth.1, htagNone hboth.2⟩
    · exact ⟨hwaiting.sent _ hsent, htagNone fun x hx => hno x (hwaiting.tags x hx)⟩
  · have hkept : e ∈ t.client.tags ∧ (t.client.tags.map (·.tag)).Nodup := by
      rw [ht]
      refine each_keeps (P := fun v => e ∈ v.client.tags ∧ (v.client.tags.map (·.tag)).Nodup) (fun a ha v hv => ?_) ⟨he, hn⟩
      refine ⟨?_, (unavailable_answer a v).nodup hv.2⟩
      unfold State.answer
      dsimp only
      split
      next hdir =>
        refine List.mem_filter.mpr ⟨hv.1, ?_⟩
        have hne : e.tag ≠ a := by
          rintro rfl
          rw [State.tag, find?_tag_of_nodup hv.2 hv.1] at hdir
          exact hd (by simpa using hdir) ha
        simpa using hne
      · exact hv.1
    have hend : e ∈ u.failAtDown.client.tags := by
      rw [hfail]
      refine each_keeps (P := fun v => e ∈ v.client.tags) (fun x hx v hv => ?_) hkept.1
      by_cases hx' : x.waitsForStore
      · rw [failWaiting_of_waits hx']
        refine List.mem_filter.mpr ⟨hv, ?_⟩
        have hne : e.tag ≠ x.tag := fun h => hw (eq_of_tag_eq hkept.2 hkept.1 hx h.symm ▸ hx')
        simpa using hne
      · rw [failWaiting_of_not hx']; exact hv
    exact find?_tag_of_nodup (hwaiting.nodup hkept.2) hend

/-! ### One entry of the request table at a DOWN -/

/-- An ABANDONED placement whose slot is free leaves its zone; a FULL zone that then holds nothing is FREE. -/
theorem dropAbandoned_eq {stamp : Nat} {z : Zone} (hz : s.alloc.zoneOfStamp stamp = some z)
    (hu : ∀ x ∈ s.alloc.zones, x.zone = z.zone → x = z) :
    let left := z.list.filter fun q => ¬(q.stamp = stamp ∧ q.status = .abandoned)
    (left ≠ [] ∨ z.live ≠ 0 → s.dropAbandoned stamp = { s with alloc := { s.alloc with
      zones := s.alloc.zones.map fun x => if x.zone = z.zone then { x with list := left } else x } })
    ∧ (left = [] → z.live = 0 → z.filling = false → s.alloc.waiting = [] → s.dropAbandoned stamp = { s with alloc := { s.alloc with
      zones := s.alloc.zones.filter (·.zone ≠ z.zone), fifo := s.alloc.fifo ++ [z.zone] } }) := by
  intro left
  have hmem := List.mem_of_find?_eq_some hz
  have hfilter (l : List Placement) : l.filter (fun q => !(q.stamp == stamp && q.status == .abandoned))
      = l.filter fun q => ¬(q.stamp = stamp ∧ q.status = .abandoned) :=
    List.filter_congr fun q _ => by rw [Bool.eq_iff_iff]; simp
  obtain ⟨a, ha⟩ : ∃ a, a = s.alloc.modZone z.zone fun x => { x with
    list := x.list.filter fun q => !(q.stamp == stamp && q.status == .abandoned) } := ⟨_, rfl⟩
  have hdrop : s.dropAbandoned stamp = State.zoneTest z.zone { s with alloc := a } := by
    rw [ha]; simp only [State.dropAbandoned, hz]
  have hzone : a.zone z.zone = some { z with list := left } := by
    rw [ha, show left = _ from (hfilter z.list).symm]
    exact zone_modZone (zone_of_unique hmem hu) (fun _ => rfl)
  have hzones : a = { s.alloc with zones := s.alloc.zones.map fun x => if x.zone = z.zone then { x with list := left } else x } := by
    rw [ha, modZone_eq]
    refine congrArg (fun l => { s.alloc with zones := l }) (List.map_congr_left fun x hx => ?_)
    by_cases h : x.zone = z.zone
    · rw [if_pos h, if_pos h, hu x hx h, hfilter]
    · rw [if_neg h, if_neg h]
  constructor
  · intro h
    have hidle : ({ z with list := left } : Zone).idle = false := by
      rw [Zone.idle, Bool.and_eq_false_iff]
      exact h.symm.imp (fun h => by simpa using h) (fun h => by simpa using h)
    rw [hdrop, zoneTest_of_holding hzone hidle, hzones]
  · intro hl hlive hf hw
    have hidle : ({ z with list := left } : Zone).idle = true := by simp [Zone.idle, hl, hlive]
    have hwait : a.waiting = [] := by rw [hzones]; exact hw
    rw [hdrop, zoneTest_of_idle_full (s := { s with alloc := a }) hzone hidle hf hwait, hzones]
    refine congrArg (fun l => { s with alloc := { s.alloc with zones := l, fifo := s.alloc.fifo ++ [z.zone] } }) ?_
    have hkey := filter_map_key Zone.zone z.zone (fun x => ({ x with list := left } : Zone)) (fun _ h => h) s.alloc.zones
    simpa [bne, Bool.beq_eq_decide_eq] using hkey

theorem entryDown_of_abandoned {e : StoreEntry} (h : e.abandoned = true) : entryDown e s = releaseAbandoned e.req.user s := by
  simp only [entryDown, h, if_true]

theorem entryDown_of_discard {e : StoreEntry} (ha : e.abandoned = false) (h : e.discard = true) : entryDown e s = s := by
  simp only [entryDown, ha, h, Bool.false_eq_true, if_false, if_true]

theorem entryDown_of_write {e : StoreEntry} (ha : e.abandoned = false) (hd : e.discard = false) (h : e.req.op = .write) :
    entryDown e s = s.enqueue e.req := by
  simp only [entryDown, ha, hd, h, Bool.false_eq_true, if_false, beq_self_eq_true, if_true]

/-- An entry that is no write and is still waited for is told the DOWN. -/
theorem entryDown_of_told {e : StoreEntry} (ha : e.abandoned = false) (hd : e.discard = false) (h : e.req.op ≠ .write) :
    entryDown e s = s.tell e.req.user false (.error ⟨.linkDown, 0⟩) := by
  simp only [entryDown, ha, hd, h, Bool.false_eq_true, if_false, beq_iff_eq]

/-- A fetch at a DOWN: an AHEAD one leaves the cache, a demand one is asked for again in HOLD mode, and ends UNAVAILABLE in FAIL mode. -/
theorem fetchFailed_of_down {c : CacheEntry} {ahead : Bool} {first : Option FaultClass} {ws : List Nat} :
    s.fetchFailed c ahead first ws .linkDown = if ahead then (s.uncache c.serial c.index).roomPass
      else if s.set.work.linkLoss = .fail then (each (fun t u => State.complete t .unavailable none 0 u) ws (s.uncache c.serial c.index)).roomPass
      else s.enqueue (fetchReq false c.serial c.index c.entry) := by
  simp only [State.fetchFailed, beq_self_eq_true, if_true, beq_iff_eq]
  rfl

theorem journalReadEnds_down {t ring r : Nat} {second : Bool} {x : TagEntry} (ht : s.tag t = some x) (hw : x.wait = .journalRead r second) :
    s.journalReadEnds t ring (.error .linkDown) = if s.set.work.linkLoss = .fail then s.complete t .unavailable none 0
      else s.enqueue (journalReadReq t ring) := by
  simp only [State.journalReadEnds, ht, hw, beq_iff_eq]
  rfl

theorem wakeHeldBack_eq (u : State) : u.wakeHeldBack = { u with client := { u.client with tags := u.client.tags.map fun e => match e.wait with
    | .journalWrite ring => if u.isHalted = true ∧ ∃ r ∈ u.port.queue, r.user = .journal ring then { e with wait := .idle } else e
    | _ => e } } := by
  refine congrArg (fun l => { u with client := { u.client with tags := l } }) (List.map_congr_left fun e _ => ?_)
  cases e.wait with
  | journalWrite ring =>
    dsimp only
    refine if_congr ?_ rfl rfl
    simp [State.heldBack]
  | _ => rfl

/-! ### A segment write that the watchdog ends -/

/-- Where nothing waits for a placement yet, a placement is made or waits, and that is all. -/
theorem placeOrWait_cases {serial index : Nat} {p : PendSeg} (hh : s.halted = none) (hw : s.alloc.waiting = [])
    (hp : s.pendSeg serial index = some p) : s.placeOrWait serial index = s.joinWaiting (.place serial index)
      ∨ ∃ (z : Zone) (a : Alloc), s.alloc.makeRoom p.hdr.len = some a ∧ a.filling = some z
        ∧ s.placeOrWait serial index = s.placedAt serial index p z.zone z.fill a := by
  have honce : s.placeOnce serial index = match s.tryPlace serial index with
      | some t => t
      | none => s.joinWaiting (.place serial index) := by
    simp only [State.placeOnce, isHalted_eq_false hh, Bool.false_eq_true, if_false] <;> rfl
  rw [State.placeOrWait, honce]
  cases ht : s.tryPlace serial index with
  | none =>
    refine .inl (passIfJoined_of_subset fun n hn => ?_)
    obtain ⟨l, hl⟩ := joinWaiting_eq (.place serial index) s
    dsimp only at hn
    rwa [hl] at hn
  | some t =>
    obtain ⟨x, z, a, hx, hroom, hz, rfl⟩ := tryPlace_eq_some ht
    obtain rfl : x = p := Option.some.inj (hx.symm.trans hp)
    refine .inr ⟨z, a, hroom, hz, passIfJoined_of_nil ?_⟩
    show a.waiting = []
    rw [(makeRoom_fields hroom).2.1, hw]

/-- Room for a placement is not made at the cost of a zone that holds one. -/
theorem makeRoom_keeps_zone {len : Nat} {a b : Alloc} {x : Zone} (hx : x ∈ a.zones) (hu : ∀ y ∈ a.zones, y.zone = x.zone → y = x)
    (hl : x.list ≠ []) (h : a.makeRoom len = some b) : ∃ y ∈ b.zones, y.zone = x.zone ∧ y.list = x.list ∧ y.fill = x.fill := by
  have hbusy : x.idle = false := by simp [Zone.idle, hl]
  unfold Alloc.makeRoom at h
  split at h
  · cases h
  next z hz =>
    have hne (hi : z.idle = true) : x.zone ≠ z.zone := by
      intro hn
      rw [hu z (List.mem_of_find?_eq_some hz) hn.symm, hbusy] at hi
      cases hi
    split at h
    · cases h
      exact ⟨x, hx, rfl, rfl, rfl⟩
    · split at h
      · cases h
        next n rest _ =>
        have hkept : ∃ y ∈ (if z.idle then Alloc.freeZone z.zone { a with fifo := rest }
            else Alloc.modZone z.zone (fun z => { z with filling := false }) { a with fifo := rest }).zones,
            y.zone = x.zone ∧ y.list = x.list ∧ y.fill = x.fill := by
          split
          next hi => exact ⟨x, List.mem_filter.mpr ⟨hx, by simpa using hne hi⟩, rfl, rfl, rfl⟩
          · refine ⟨_, List.mem_map_of_mem hx, ?_⟩
            split <;> exact ⟨rfl, rfl, rfl⟩
        obtain ⟨y, hy, hsame⟩ := hkept
        exact ⟨y, (perm_insertBy _ _ _).mem_iff.mpr (List.mem_cons_of_mem _ hy), hsame⟩
      · split at h
        next hi =>
          cases h
          exact ⟨x, List.mem_map.mpr ⟨x, hx, if_neg (by simpa using hne hi)⟩, rfl, rfl, rfl⟩
        · cases h

theorem stranded_of_nil (u : State) : (u.withdraw (isStranded [])).disown (isStranded []) = u := by
  have hno (x : StoreUser) : isStranded [] x = false := by cases x <;> rfl
  simp [State.withdraw, State.disown, hno]

theorem pendSeg_modPend {n i : Nat} {f : PendSeg → PendSeg} {p : PendSeg} (hp : s.pendSeg n i = some p)
    (hf : (f p).hdr.serial = p.hdr.serial ∧ (f p).hdr.index = p.hdr.index) : (s.modPend n i f).pendSeg n i = some (f p) := by
  simp only [State.pendSeg, State.modPend] at hp ⊢
  generalize s.pend = l at hp ⊢
  induction l with
  | nil => cases hp
  | cons x xs ih =>
    rw [List.find?_cons] at hp
    rw [List.map_cons, List.find?_cons]
    cases hx : x.hdr.serial == n && x.hdr.index == i with
    | true =>
      rw [hx] at hp
      obtain rfl : x = p := Option.some.inj hp
      simp only [if_true, hf, hx]
    | false =>
      rw [hx] at hp
      simp only [Bool.false_eq_true, if_false, hx]
      exact ih hp

/-- The write of a placement that stands alone in its zone runs out of time: the placement stays as ABANDONED, its zone is ended, and the
segment is placed afresh with its retry used (5.5, 5.9). -/
theorem segmentFailed_alone {z : Zone} {q : Placement} {p : PendSeg} {place : Place} {u : State} (hh : u.halted = none)
    (hz : u.alloc.zoneOfStamp q.stamp = some z) (hu : ∀ x ∈ u.alloc.zones, x.zone = z.zone → x = z)
    (hp : u.pendSeg q.serial q.index = some p) (hplace : p.place = some place) (hstamp : place.stamp = q.stamp)
    (hwait : u.alloc.waiting = []) (hlist : z.list = [q]) (hretry : p.retryUsed = false) :
    let t := u.segmentFailed .timeout q.stamp true
    t.port.table = u.port.table
    ∧ (∃ x ∈ t.alloc.zones, x.zone = z.zone ∧ { q with status := .abandoned } ∈ x.list ∧ (z.filling = true → 4096 ≤ x.fill))
    ∧ ∃ p', t.pendSeg q.serial q.index = some p' ∧ p'.retryUsed = true ∧ p'.failure = some (.timeout, place) := by
  obtain ⟨z', hz'⟩ : ∃ z' : Zone, z' = { z with
    list := [{ q with status := .abandoned }], fill := if z.filling then 4096 else z.fill } := ⟨_, rfl⟩
  obtain ⟨y, hy⟩ : ∃ y : State, y = { u with alloc := u.alloc.modZone z.zone fun x =>
    { x with list := [{ q with status := .abandoned }], fill := if x.filling then 4096 else x.fill } } := ⟨_, rfl⟩
  have hmem := List.mem_of_find?_eq_some hz
  have hzone : y.alloc.zone z.zone = some z' := by
    rw [hy, hz']
    exact zone_modZone (zone_of_unique hmem hu) (fun _ => rfl)
  have hmem' : z' ∈ y.alloc.zones := List.mem_of_find?_eq_some hzone
  have hu' : ∀ x ∈ y.alloc.zones, x.zone = z'.zone → x = z' := by
    intro x hx hn
    rw [hz'] at hn
    rw [hy, modZone_eq] at hx
    obtain ⟨w, hw, rfl⟩ := List.mem_map.mp hx
    by_cases hwz : w.zone = z.zone
    · rw [if_pos hwz, hz', hu w hw hwz]
    · rw [if_neg hwz] at hn
      exact absurd hn hwz
  obtain ⟨x, hx⟩ : ∃ x : State, x = y.modPend q.serial q.index fun p =>
    { p with retryUsed := true, failure := some (.timeout, place), place := none } := ⟨_, rfl⟩
  have hfailed : u.segmentFailed .timeout q.stamp true = x.placeOrWait q.serial q.index := by
    have hbusy : z'.idle = false := by rw [hz']; simp [Zone.idle]
    have hpy : y.pendSeg q.serial q.index = some p := by rw [hy]; exact hp
    have hhy : y.isHalted = false := by rw [hy]; exact isHalted_eq_false hh
    have hcut : splitAtStamp q.stamp z.list = ([], some q, []) := by rw [hlist]; simp [splitAtStamp]
    simp only [State.segmentFailed, hz, hcut, List.filter_nil, if_true, List.nil_append, List.append_nil, stranded_of_nil, each]
    rw [← hy, zoneTest_of_holding hzone hbusy]
    simp only [State.ownerFailed, hpy, hplace, hhy, hstamp, hretry, hx, bne_self_eq_false, Bool.or_self, Bool.false_eq_true, if_false,
      Bool.not_false, if_true]
  have hpx : x.pendSeg q.serial q.index = some { p with retryUsed := true, failure := some (.timeout, place), place := none } := by
    rw [hx]
    exact pendSeg_modPend (s := y) (by rw [hy]; exact hp) ⟨rfl, rfl⟩
  have hxy : x.alloc = y.alloc ∧ x.port = u.port ∧ x.halted = none := by rw [hx, hy]; exact ⟨rfl, rfl, hh⟩
  obtain ⟨halloc, hport, hhx⟩ := hxy
  have hzeta : z'.zone = z.zone ∧ z'.list = [{ q with status := .abandoned }] ∧ (z.filling = true → 4096 ≤ z'.fill) := by
    rw [hz']
    exact ⟨rfl, rfl, fun h => by simp [h]⟩
  obtain ⟨hnum, hlist', hfull⟩ := hzeta
  intro t
  have ht : t = x.placeOrWait q.serial q.index := hfailed
  rw [ht]
  have hwx : x.alloc.waiting = [] := by rw [halloc, hy]; exact hwait
  rcases placeOrWait_cases hhx hwx hpx with h | ⟨w, a, hroom, hw, h⟩
  · obtain ⟨l, hl⟩ := joinWaiting_eq (.place q.serial q.index) x
    rw [h, hl]
    refine ⟨by rw [hport], ⟨z', ?_, hnum, by rw [hlist']; exact List.mem_singleton_self _, hfull⟩, _, hpx, rfl, rfl⟩
    rw [halloc]; exact hmem'
  · rw [h]
    obtain ⟨b, hb, hbn, hbl, hbf⟩ := makeRoom_keeps_zone (halloc ▸ hmem') (halloc ▸ hu') (by rw [hlist']; simp) hroom
    have hpend := pendSeg_placedAt (zone := w.zone) (off := w.fill) (a := a) hpx q.serial q.index
    rw [hpx, Option.map_some, if_pos ⟨rfl, rfl⟩] at hpend
    refine ⟨show x.port.table = _ by rw [hport], ⟨_, List.mem_map_of_mem hb, ?_⟩, _, hpend, rfl, rfl⟩
    · split
      · exact ⟨hbn.trans hnum, List.mem_append_left _ (by rw [hbl, hlist']; exact List.mem_singleton_self _),
          fun hf => (hfull hf).trans (hbf ▸ Nat.le_add_right _ _)⟩
      · exact ⟨hbn.trans hnum, by rw [hbl, hlist']; exact List.mem_singleton_self _, fun hf => hbf ▸ hfull hf⟩

theorem wakeHeldBack_of_running (h : s.halted = none) : s.wakeHeldBack = s := by
  rw [wakeHeldBack_eq]
  have hid : (s.client.tags.map fun e => match e.wait with
      | .journalWrite ring => if s.isHalted = true ∧ ∃ r ∈ s.port.queue, r.user = .journal ring then { e with wait := .idle } else e
      | _ => e) = s.client.tags := by
    refine (List.map_congr_left fun e _ => ?_).trans (List.map_id' _)
    split
    · exact if_neg fun hh => by rw [isHalted_eq_false h] at hh; cases hh.1
    · rfl
  exact congrArg (fun l => { s with client := { s.client with tags := l } }) hid

/-- A read that waits for another thing than a write held back waits on, as every other request does. -/
theorem exists_wakeHeldBack {e : TagEntry} (he : e ∈ s.client.tags) (hw : e.phase = .waitingCommit ∨ e.phase = .syncing
      ∨ (e.phase = .serving ∧ e.wait ≠ .idle ∧ (s.halted = none ∨ ∀ ring, e.wait ≠ .journalWrite ring))) :
    ∃ x ∈ s.wakeHeldBack.client.tags, x.tag = e.tag ∧ x.waitsForStore := by
  rw [wakeHeldBack_eq]
  refine ⟨_, List.mem_map_of_mem he, ?_⟩
  split
  next ring hring =>
    split
    next hh =>
      refine ⟨rfl, hw.imp_right (Or.imp_right fun h => ?_)⟩
      rcases h.2.2 with hn | hn
      · rw [isHalted_eq_false hn] at hh; cases hh.1
      · exact absurd hring (hn ring)
    · exact ⟨rfl, hw.imp_right (Or.imp_right fun h => ⟨h.1, h.2.1⟩)⟩
  · exact ⟨rfl, hw.imp_right (Or.imp_right fun h => ⟨h.1, h.2.1⟩)⟩

/-- Settles O52: the watchdog user by user, the table at a DOWN entry by entry, and what FAIL mode answers. -/
theorem watchdogAndLinkEndRequests : Obligations.WatchdogAndLinkEndRequests := by
  unfold Obligations.WatchdogAndLinkEndRequests
  refine ⟨?watchdog, ?hold, ?fail, ?down, wakeHeldBack_eq, ?answers, ?entry, ?up⟩
  case watchdog =>
    intro tag s hr
    refine ⟨exec_watchdog_of_none, ?_⟩
    intro e he row gone asks halts
    refine ⟨exec_watchdog_of_stopped he, fun ha hw => ?_⟩
    have hawaits (hd : e.discard = false) : s.Awaits tag e := ⟨hr, he, ha, hd⟩
    have hexec (hd : e.discard = false) : exec row s = .next (gone.tell e.req.user true (.error ⟨.timeout, 0⟩)) :=
      exec_watchdog (hawaits hd) hw
    have hhalts {u : State} (h : u.halted = some .timeout ∧ u.startup = none) (hu : exec row s = .next u) : halts := ⟨u, hu, h⟩
    refine ⟨?sent, exec_watchdog_of_discarded hr he ha hw, ?settings, ?catalogue, ?journal, ?segment, ?startup, ?capacity⟩
    case sent =>
      cases hd : e.discard with
      | true => exact ⟨_, exec_watchdog_of_discarded hr he ha hw hd, List.prefix_rfl⟩
      | false =>
        obtain ⟨ms, hms, -⟩ := (keeps_tell e.req.user true (.error ⟨.timeout, 0⟩) gone).sent
        exact ⟨_, hexec hd, hms ▸ List.prefix_append _ _⟩
    case settings =>
      intro hd hh huser w hset
      have hends := settingsEnds_failed (s := gone) (cls := .timeout) hh hset
      have hex := hexec hd
      rw [huser] at hex
      refine ⟨fun h => hex.trans (congrArg _ (hends.trans ?_)), fun h => hex.trans (congrArg _ (hends.trans (if_pos h)))⟩
      rw [h]; rfl
    case catalogue =>
      intro hd hh b huser w hset
      have hends := catalogueEnds_failed (s := gone) (cls := .timeout) hh hset
      have hex := hexec hd
      rw [huser] at hex
      have hblock : w.block = b := by simpa using List.find?_some hset
      refine ⟨fun h => hex.trans (congrArg _ (hends.trans ?_)), fun h => hex.trans (congrArg _ (hends.trans (if_pos h)))⟩
      rw [h, if_neg Bool.false_ne_true, State.retryCatalogue, hblock]
      simp only [beq_iff_eq]
      rfl
    case journal =>
      intro hd hh ring huser w hset
      have hends := journalEnds_failed (s := gone) (cls := .timeout) hh hset
      have hex := hexec hd
      rw [huser] at hex
      have hcalled : exec row s = .next (gone.journalEnds ring (.error .timeout)) := hex
      rw [hends] at hcalled
      refine ⟨fun h => hcalled.trans (congrArg _ ?_), fun h => ?_⟩
      · rw [h, if_neg Bool.false_ne_true, State.modJournalWrite]
        simp only [beq_iff_eq]
        rfl
      · rw [if_pos h] at hcalled
        obtain ⟨hhalted, hstart, -⟩ := doubleFault_spec (s := gone) .timeout .journal (4096 + ring) hh
        obtain ⟨-, -, -, -, -, hlist, hwaits⟩ := doubleFault_halts (s := gone) (ring := ring) .timeout .journal (4096 + ring) hh
        obtain ⟨hcalm, -, -⟩ := journalLost_spec (ring := ring) (by rw [State.isHalted, hhalted]; rfl) hlist
        refine ⟨hhalts ⟨hcalm.halted.trans hhalted, hcalm.startup.trans hstart⟩ hcalled, ?_⟩
        intro hno d failed
        refine hcalled.trans (congrArg _ (journalLost_of_none fun x hx hw => ?_))
        obtain ⟨y, hy, himp⟩ := hwaits x hx
        exact hno y hy (himp hw)
    case segment =>
      intro z q p place hout hfresh hwait hlist hretry
      obtain ⟨hawait, -, -, hh, huser, hz, hu, hp, -, hplace, hstamp, -, -⟩ := hout
      have hex := hexec hawait.wanted
      rw [huser] at hex
      exact ⟨_, hex, segmentFailed_alone (u := gone) hh hz hu hp hplace hstamp hwait hlist hretry⟩
    case startup =>
      intro hd huser u hu
      have hends := startReadEnds_timeout (s := gone) hu
      have hex := hexec hd
      rw [huser] at hex
      have hcalled : exec row s = .next (gone.startReadEnds (.error .timeout)) := hex
      rw [hends] at hcalled
      have hfirst (h : u.second = false) := hcalled.trans (congrArg _ (if_neg (ne_true_of_eq_false h)))
      have hsecond (h : u.second = true) := hcalled.trans (congrArg _ (if_pos h))
      refine ⟨hfirst, fun h hp => ?_, ?_, fun h hp => ?_⟩
      · refine hhalts ?_ (hsecond h)
        rw [startStep_halts hp]
        exact ⟨(enterHalted_fields _ _).1, (enterHalted_fields _ _).2.1⟩
      · intro h hp i goes
        have hscan := hsecond h
        rw [startStep_scan hp] at hscan
        have hgoes {y : Startup} (hy : y.phase = .scan)
            (hs : exec row s = .next (gone.startRead { y with pos := u.pos + 1 })) : goes y := by
          refine hs.trans (congrArg _ ?_)
          simp only [State.startRead, State.startBlock, hy]
          rfl
        constructor
        · intro hredo y
          rw [scanRead_first hredo] at hscan
          exact ⟨fun hi => hgoes hp (hscan.trans (congrArg _ (if_neg hi))), fun hi => hscan.trans (congrArg _ (if_pos hi))⟩
        · intro stop hredo y
          rw [scanRead_again hredo] at hscan
          exact ⟨fun hi => hgoes hp (hscan.trans (congrArg _ (if_neg hi))), fun hi => hscan.trans (congrArg _ (if_pos hi))⟩
      · have hring := hsecond h
        rw [startStep_journal hp] at hring
        have hread : gone.ringRead u none = if u.pos + 1 = s.ringLen then State.settle u { gone with startup := some u }
            else gone.startRead { u with pos := u.pos + 1, second := false } := by
          simp only [State.ringRead, Startup.takeRing, beq_iff_eq]
          rfl
        rw [hread] at hring
        constructor
        · intro hpos
          refine hring.trans (congrArg _ ((if_neg hpos).trans ?_))
          simp only [State.startRead, State.startBlock, hp]
          rfl
        · intro hpos set begun given
          have hgone : ({ gone with startup := some u } : State) = gone := by rw [← hu]
          refine hring.trans (congrArg _ ((if_pos hpos).trans ?_))
          rw [hgone]
          exact settle_eq (s := gone) hu
    case capacity =>
      intro hd huser u hu hp
      have hex := hexec hd
      rw [huser] at hex
      have hcalled : exec row s = .next (gone.capacityEnds (.error .timeout)) := hex
      have hends : gone.capacityEnds (.error .timeout) = if u.second then gone.enterHalted .timeout
          else { gone with startup := some { u with issued := false, second := true } } := by
        have hug : gone.startup = some u := hu
        simp only [State.capacityEnds, hug, hp, bne_self_eq_false, Bool.false_eq_true, if_false]
      rw [hends] at hcalled
      refine ⟨fun h => hcalled.trans (congrArg _ (if_neg (ne_true_of_eq_false h))), fun h => hhalts ?_ hcalled⟩
      rw [if_pos h]
      exact ⟨(enterHalted_fields _ _).1, (enterHalted_fields _ _).2.1⟩
  all_goals
    have hdown (s : State) (hr : s.resetHeld = false) : exec .storeLinkDown s = .next
        (let told := s.port.table.foldl (fun u e => entryDown e u)
          { s with port := { s.port with up := false, reported := true, table := [] } }
        if told.set.work.linkLoss = .fail then told.wakeHeldBack.failAtDown else told.wakeHeldBack) := by
      show execStoreLinkDown s = _
      rw [execStoreLinkDown, if_neg (ne_true_of_eq_false hr)]
      dsimp only
      rw [each_eq_foldl]
      refine congrArg _ (if_congr ?_ rfl rfl)
      exact beq_iff_eq
  case down => exact hdown
  case hold =>
    intro s hr hmode hh hwrites
    have hqueue (l : List StoreEntry) (hl : ∀ e ∈ l, e.req.op = .write ∧ e.abandoned = false ∧ e.discard = false) (u : State) :
        l.foldl (fun u e => entryDown e u) u = { u with port := { u.port with queue := u.port.queue ++ l.map (·.req) } } := by
      induction l generalizing u with
      | nil => simp
      | cons e l ih =>
        obtain ⟨⟨hop, ha, hd⟩, hl⟩ := List.forall_mem_cons.mp hl
        rw [List.foldl_cons, entryDown_of_write ha hd hop, ih hl]
        simp [State.enqueue]
    rw [hdown s hr]
    dsimp only
    rw [hqueue _ hwrites, if_neg (by rw [hmode]; decide)]
    exact congrArg _ (wakeHeldBack_of_running hh)
  case fail =>
    intro s hr hmode htable
    obtain ⟨u, hu⟩ : ∃ u : State, u = { s with port := { s.port with up := false, reported := true, table := [] } } := ⟨_, rfl⟩
    have hexec : exec .storeLinkDown s = .next u.wakeHeldBack.failAtDown := by
      rw [hdown s hr]
      dsimp only
      rw [htable, List.foldl_nil, ← hu]
      exact congrArg _ (if_pos (by rw [hu]; exact hmode))
    obtain ⟨-, -, hwaits, -, hqueue⟩ := failAtDown_spec u.wakeHeldBack
    refine ⟨_, hexec, fun e he hw => ?_, fun r hr hfetch => hqueue r (by rw [wakeHeldBack_port, hu]; exact hr) fun n i h => ?_⟩
    · obtain ⟨x, hx, htag, hxw⟩ := exists_wakeHeldBack (s := u) (e := e) (by rw [hu]; exact he) (by rw [hu]; exact hw)
      rw [← htag]
      exact (hwaits x hx hxw).1
    · obtain ⟨m, j, hm⟩ := hfetch
      rw [hm] at h; cases h
  case answers =>
    intro u t owed waits
    obtain ⟨howed, hmute, hwaits, hkept, hqueue⟩ := failAtDown_spec u
    have hnone (a : Nat) : ¬owed t.set a := fun ha => by
      have hmem : a ∈ u.failAtDown.set.owed := mem_owed.mpr ha
      rw [hmute] at hmem
      cases hmem
    exact ⟨fun a ha => howed a (mem_owed.mpr ha), hnone, hwaits,
      fun hn e he hw hd => hkept hn e he hw fun hp hmem => hd hp (mem_owed.mp hmem), hqueue⟩
  case entry =>
    intro e u asks
    refine ⟨fun ha hno => ?_, fun n i stamp ha huser => ⟨fun hz => ?_, ?_⟩, entryDown_of_discard, fun ha hd =>
      ⟨entryDown_of_write ha hd, ?_, fun hop t ring x r second huser hx hwait => ?_,
        fun hop huser y hy => ?_, fun hop huser y hy hp => ?_⟩⟩
    · rw [entryDown_of_abandoned ha]
      unfold releaseAbandoned
      split
      next hseg => exact absurd hseg (hno _ _ _)
      · rfl
    · rw [entryDown_of_abandoned ha, huser]
      simp only [releaseAbandoned, State.dropAbandoned, hz]
    · intro z hz hu left
      rw [entryDown_of_abandoned ha, huser]
      exact dropAbandoned_eq hz hu
    · intro hop n i c ahead first ws huser hc hst uncached
      have hends : entryDown e u = u.fetchFailed c ahead first ws .linkDown := by
        rw [entryDown_of_told ha hd (by rw [hop]; decide), huser]
        exact fetchEnds_failed hc hst .linkDown
      obtain ⟨hn, hi⟩ := cached_keys hc
      have hroom (h : u.rd.roomWait = []) : uncached.rd.roomWait = [] := h
      rw [fetchFailed_of_down, hn, hi, uncache_eq] at hends
      refine ⟨fun h hr => ?_, fun h hm => ?_, fun h hm hr => ?_⟩
      · rw [hends, if_pos h]
        exact roomPass_of_nil (hroom hr)
      · rw [hends, if_neg (ne_true_of_eq_false h), if_neg (by rw [hm]; decide)]
        rfl
      · rw [hends, if_neg (ne_true_of_eq_false h), if_pos hm, ← each_eq_foldl (fun t y => State.complete t .unavailable none 0 y)]
        exact roomPass_of_nil (each_of_kept (K := fun x => x.rd.roomWait = []) (fun t x hx => complete_roomWait hx) ws (hroom hr))
    · have hends := entryDown_of_told (s := u) ha hd (by rw [hop]; decide)
      rw [huser] at hends
      have hread : entryDown e u = u.journalReadEnds t ring (.error .linkDown) := hends
      rw [journalReadEnds_down hx hwait] at hread
      exact ⟨fun hm => hread.trans (if_neg (by rw [hm]; decide)), fun hm => hread.trans (if_pos hm)⟩
    · have hends := entryDown_of_told (s := u) ha hd (by rw [hop]; decide)
      rw [huser] at hends
      have hread : entryDown e u = u.startReadEnds (.error .linkDown) := hends
      rw [hread]
      simp only [State.startReadEnds, hy, State.startRead]
      rw [← hy]
      rfl
    · have hends := entryDown_of_told (s := u) ha hd hop
      rw [huser] at hends
      have hread : entryDown e u = u.capacityEnds (.error .linkDown) := hends
      rw [hread]
      simp only [State.capacityEnds, hy, hp, bne_self_eq_false, Bool.false_eq_true, if_false]
  case up =>
    intro s hr
    exact congrArg _ (if_neg (ne_true_of_eq_false hr))

end Sys2Proof.Machine
end

section
/-! Segment writes (4.9 to 5.9): O51 fails in a zone table with two FILLING zones. -/

namespace Sys2Proof.Machine

/-- The placement whose write fails. -/
def strayPlacement : Placement := { window := 0, serial := 1, index := 1, off := 0, len := 1, stamp := 0 }

def strayPlace : Place := { zone := 5, off := 0, len := 1, stamp := 0 }

/-- Its segment: one block, coded, no record. -/
def straySegment : PendSeg :=
  { hdr := { window := 0, serial := 1, index := 1, first := 0, count := 1, kind := .coded, lead := 0, tail := 0, recs := 0
             payloadLen := 0, stamp := 0, run := {} }
    payload := [], place := some strayPlace }

/-- The FILLING zone whose only placement it is. -/
def strayZone : Zone := { zone := 5, filling := true, list := [strayPlacement] }

def strayEntry : StoreEntry :=
  { tag := 0, req := { cls := 3, user := .segment 1 1 0, op := .write, block := 5 * 4096, count := 1 }, watchdog := 1 }

/-- A state that no run reaches and the statement does not rule out: a second FILLING zone, of a lower number, stands behind the first,
whose number stands in the FIFO too. -/
def strayState : State :=
  { startup := none, pend := [straySegment], port := { up := true, table := [strayEntry] }
    alloc := { zones := [strayZone, { zone := 3, filling := true }], fifo := [5] } }

theorem segmentOut_stray : strayState.SegmentOut 0 strayEntry strayZone strayPlacement straySegment strayPlace where
  awaits := ⟨rfl, rfl, rfl, rfl⟩
  op := rfl
  started := rfl
  alive := rfl
  user := rfl
  zone := by decide
  once := by decide
  pend := by decide
  window := rfl
  placed := rfl
  stamp := rfl
  inZone := rfl
  len := by decide

theorem stampsFresh_stray : strayState.StampsFresh strayZone strayPlacement where
  below := by decide
  alone := by decide

/-- The zone table after the failure: the ended zone was FREE at once and came back from the FIFO, empty, and the fresh placement went to
the other FILLING zone. -/
theorem zones_of_stray {t : State} (h : exec (.segmentWriteCompletion 0 1 0) strayState = .next t) :
    t.alloc.zones = [{ zone := 3, filling := true, fill := 1
                       list := [{ window := 0, serial := 1, index := 1, off := 0, len := 1, stamp := 1 }] },
                     { zone := 5, filling := true }] := by
  have hzones : (match exec (.segmentWriteCompletion 0 1 0) strayState with
      | .next u => u.alloc.zones
      | _ => []) = [{ zone := 3, filling := true, fill := 1
                      list := [{ window := 0, serial := 1, index := 1, off := 0, len := 1, stamp := 1 }] },
                    { zone := 5, filling := true }] := by decide
  rw [h] at hzones
  exact hzones

/-- Refutes O51: after a first failure the zone that failed need not stand at 4096 or at the fresh placement's length. With two FILLING
zones it can come back from the FIFO with its fill point at 0, while the placement goes to the other. -/
theorem not_segmentWritesCommit : ¬ Obligations.SegmentWritesCommit := by
  unfold Obligations.SegmentWritesCommit
  rintro ⟨hrows, -⟩
  obtain ⟨-, -, -, hfails⟩ := hrows 0 0 strayState strayEntry strayZone strayPlacement straySegment strayPlace segmentOut_stray
  obtain ⟨hfirst, -⟩ := hfails stampsFresh_stray rfl 1 (by decide)
  obtain ⟨t, ht, -, hfill, -⟩ := hfirst rfl rfl
  have hzone := hfill rfl { zone := 5, filling := true } (by rw [zones_of_stray ht]; decide) rfl
  revert hzone
  decide

end Sys2Proof.Machine
end

section
/-! Start-up (11.5): O60 fails for a CAPACITY request that the table carries as a READ. -/

namespace Sys2Proof.Machine

/-- A table entry of the CAPACITY user with the operation READ of one block, none of which has arrived. -/
def readingEntry : StoreEntry :=
  { tag := 0, req := { cls := 2, user := .capacity, op := .read, block := 0, count := 1 }, watchdog := 250 }

/-- Start-up in its capacity phase, its request answered under that entry. -/
def readingState : State := { startup := some {}, port := { table := [readingEntry] } }

theorem awaits_readingEntry : readingState.Awaits 0 readingEntry where
  released := rfl
  found := rfl
  live := rfl
  wanted := rfl

/-- The GOOD completion of that entry counts as a failure, for a READ that ends without its blocks is one (2.12): the request is asked
for again, and start-up stays in its capacity phase. -/
theorem startup_of_readingState {t : State} (h : exec (.capacityCompletion 0 0 0) readingState = .next t) :
    t.startup.map (fun u => (u.phase, u.second)) = some (.capacity, true) := by
  rw [← Host.Outcome.next.inj h]
  decide

/-- Refutes O60: the statement lets a GOOD completion of the CAPACITY user begin the settings read whatever operation the table's entry
holds, and where that is a READ the completion is a short one. -/
theorem not_startUpRunsItsPhases : ¬ Obligations.StartUpRunsItsPhases := by
  unfold Obligations.StartUpRunsItsPhases
  rintro ⟨-, hcompletions, -⟩
  have hcapacity := (hcompletions 0 0 readingState readingEntry {} awaits_readingEntry rfl).1 rfl rfl
  exact absurd (startup_of_readingState hcapacity.1) (by decide)

end Sys2Proof.Machine
end
